-- ==== Sys2Proof/Word.lean ====
section
/-! DEFINITION. The word types of the Ebzin 64 (R2, R3): a byte is 8 bits, a word 32 bits, a doubleword 64 bits. -/
namespace Sys2Proof

/-- R2: a byte is 8 bits. -/
abbrev Byte := BitVec 8

/-- R2: a word is 32 bits. -/
abbrev Word := BitVec 32

/-- R2: a doubleword is 64 bits. -/
abbrev Dword := BitVec 64

end Sys2Proof
end

