-- ==== Sys2Proof/Syntax.lean ====
section
/-! DEFINITION. The commands: one constructor per row of the opcode table, with the row's operands. A bus write carries its
address and value; an EKI instruction its core and the low 26 bits of its word (its major opcode is the row's); an analogue
or timed event the quantities measured outside the part; a packet or frame its bytes. -/
namespace Sys2Proof

/-- R272: where a command packet comes from, and its reply goes: the spine master; an SGMII port with the sender's IPv4 address,
UDP port and MAC address; a console port; a tenant's mailbox. -/
inductive CmdSrc where
  | spine
  | udp (port : Bool) (ip : Word) (udpPort : BitVec 16) (mac : BitVec 48)
  | console (port : Bool)
  | mailbox (tenant : Fin 64)
  deriving DecidableEq, Repr

/-- R263: what the receiving ports deliver in a slot: the ports of the mask (bit 0 A, bit 1 B), and the bits after the SD on each. -/
structure Rx (w : Nat) where
  ports : BitVec 2
  a : BitVec w
  b : BitVec w
  deriving DecidableEq, Repr

/-- A command of the opcode table (R268): its source and the fields of its packet beside OPCODE; `tenant` is byte 4 with ACKREQ and
POSTED, `prio` byte 5. -/
structure CmdIn where
  src : CmdSrc
  tenant : Byte
  prio : Byte
  seq : BitVec 16
  params : List Byte
  deriving DecidableEq, Repr

/-- The commands the block takes (325 rows). -/
inductive Instr where
  /-- R25: A write to a register field that has no row of its own is checked, clamped or refused, and takes effect by its latch class. -/
  | registerWrite (addr : Word) (value : Word)
  /-- R22: Writing 1 to BLOCK_CFG_CTRL.DISCARD drops every pending shadow value of the block. -/
  | discard (block : BitVec 6)
  /-- R31: Writing 1 to the CLR bit of a block ring or of the global ring empties that ring and zeroes its LOST count. -/
  | clr (block : Option (BitVec 6))
  /-- R34: A write to PMU, HARV, WAKE or RTC finishes crossing into XT1 and takes effect, and XSYNC falls. -/
  | xsyncComplete (block : BitVec 6)
  /-- R91: The XT1 tick logic reaches FRAME_PERIOD cycles and places a tick. -/
  | frameTick
  /-- R92: FRAME presents the tick to the fabric: FRAME_NUM increments, FRAME_POS restarts and all shadows latch. -/
  | latchEdge
  /-- R51: HARV computes and publishes the gauge values and the allowance at a tick or every 32 XT1 cycles in FURL. -/
  | gaugeUpdate (vstore : Nat) (harvested : Nat) (drawn : Nat) (cycles : Nat)
  /-- R42: After 262 XT1 cycles the open-circuit voltage is held and the converter regulates at VOC × FRAC / 16, or stops below 10 mV. -/
  | mpptSampleEnd (input : Bool) (uv : Nat)
  /-- R40: VSTORE rises through 1.20 V: the keep cell enters BARE, loads its reset thresholds and sets LOADED. -/
  | keepCellLoad
  /-- R39: VSTORE falls below 1.20 V and the keep cell enters EMPTY, losing its fields. -/
  | keepCellLoss
  /-- R39: VSTORE has held at or above STORE_REARM for 1 ms and the load switch closes. -/
  | loadReconnect
  /-- R40: AON power-on reset is released 200 µs after the load switch closes, and HARV_EVENT shows the start reason. -/
  | aonPorRelease (boot : BitVec 2) (strap : BitVec 2)
  /-- R39: VSTBY has held at or above 3.10 V for 1 ms: VSTBY_OK rises and the load moves to VSTBY. -/
  | stbyUp
  /-- R66: VSTBY_OK falls: the load moves to VSTORE and the PMU sheds bay, ADC, SGMII and PLL1 domains and moves the clocks to FIRC. -/
  | stbyLost
  /-- R50: VSTORE has stayed below STORE_CUT for 250 µs and the cut is decided; no new write entry starts. -/
  | loadCut
  /-- R50: The load switch opens after the started write entry is retired, and the buffered writes are lost. -/
  | loadSwitchOpen
  /-- R45: VSTORE reaches STORE_FULL: FULL rises and the charger and converters stop. -/
  | fullRise
  /-- R45: VSTORE falls below STORE_FULL − 50 mV and FULL clears. -/
  | fullClear
  /-- R48: VSTORE has stayed below STORE_LOW for 250 µs: catalog writes are refused and the halyard event is raised. -/
  | storeLow
  /-- R48: VSTORE reaches 2.70 V or VSTBY_OK rises and STORE_LOW ends. -/
  | storeLowEnd
  /-- R49: At the fourth tick after a STORE_LOW crossing the PMU enters Reef 3 or lower unless already requested. -/
  | storeLowForcedEntry
  /-- R62: A write of PMU_REEF_REQ.LEVEL requests a level and is accepted or refused with BAYS_ACTIVE or SEQUENCE. -/
  | pmuReefReq (value : Word)
  /-- R63: At the tick after an accepted request, dispatch stops, caches are cleaned and the write buffer drains. -/
  | entrySequenceStart
  /-- R63: Once the write buffer is empty, domains outside the target level switch off and the new level is in force. -/
  | entrySwitchOff
  /-- R61: The Reef 1 conditions have held for 16 FCLK cycles and CCLK and FCLK stop. -/
  | reef1Entry
  /-- R61: A halyard event, tick, bus request or interrupt resumes the clocks and returns to SAIL. -/
  | reef1Exit
  /-- R69: A wake-enabled halyard event at allowance 2 or more starts a full wake and loads PMU_DOM_ON from the wake set. -/
  | fullWakeStart
  /-- R69: A wake-set domain is released at its fixed wake offset. -/
  | wakeDomainRelease (d : Fin 72)
  /-- R69: The last release, XT2_OK and every PLL lock have occurred, and the wake ends in SAIL. -/
  | wakeComplete
  /-- R59: A domain switched on at a tick is released after its on-request delay. -/
  | domainRelease (d : Fin 72)
  /-- R74: A qualified edge on a WAKE pin raises PIN and sets WAKE_STAT as MODE selects. -/
  | wakePinEdge (pin : Fin 16) (level : Bool)
  /-- R75: At the 64th frame boundary after masking the pin ignores no longer and re-arms once qualified inactive. -/
  | wakePinUnmask (pin : Fin 16)
  /-- R76: A write to WAKE_PINn unarms the detector and clears any pending mask. -/
  | wakePinWrite (pin : Fin 16) (value : Word)
  /-- R80: XT1 has counted 8,192 consecutive cycles and is judged stable; the tick source moves to XT1 at the next tick. -/
  | xt1Judged
  /-- R83: XT1 shows a gap of 122 µs: before judgement the count restarts, after it SIRC takes over and XT1_FAIL is set. -/
  | xt1Fail
  /-- R81: XT2 reaches its 65,536th counted edge and is judged stable. -/
  | xt2Ok
  /-- R82: A PLL lock counter completes and LOCK0 or LOCK1 rises. -/
  | pllLock (pll : Bool)
  /-- R83: XT2 is not judged by t0+4.0 ms after release; XT2_FAIL is set and a wake completes on FIRC. -/
  | xt2Fail
  /-- R83: A judged XT2 shows no edge for 1 µs: XT2_OK falls, the PLLs lose lock and the count restarts. -/
  | xt2Stop
  /-- R83: A locked PLL loses lock, its LOST bit is set and the system source moves to FIRC if it was PLL0. -/
  | pllLockLoss (pll : Bool)
  /-- R89: A new CLKOUT SEL or DIV takes effect at the end of the output period in progress. -/
  | clkoutChange
  /-- R90: A write of 1 to CLK_FM_CTRL.START clears the result and starts a frequency measurement. -/
  | start (value : Word)
  /-- R90: The FMEAS window of WIN reference edges ends, DONE is set and BUSY clears. -/
  | fmeasDone (count : Nat)
  /-- R243: A received beacon is accepted or rejected and accepted beacons update the SPINE_BCN registers. -/
  | beacon (frame : Rx 208) (e : Int) (per : Nat)
  /-- R97: BEACON_AGE reaches 7 and FRAME becomes unanchored. -/
  | unanchored
  /-- R100: BKP changes between VSTORE and VBAK as the higher source changes, with 50 mV hysteresis. -/
  | bkpSupplyChangeover (vbak : Bool)
  /-- R101: The BKP supply falls below its hold level and every RTC field returns to its reset value. -/
  | bkpPor
  /-- R102: SUBSEC wraps to 0 and the calendar fields carry together on that XT1 edge. -/
  | secondRollover
  /-- R103: XT1 stops while AON is unpowered and the RTC halts with its fields kept. -/
  | halted
  /-- R103: A halted RTC resumes counting at the first XT1 edge. -/
  | rtcResume
  /-- R104: A write of RTC_CTRL.CAPTURE copies SUBSEC and the calendar into the snapshot registers at one XT1 edge. -/
  | capture
  /-- R105: A write of RTC_CTRL.LOAD moves the staged time and date into the calendar and begins a new second. -/
  | load
  /-- R122: The ALU instruction performs the function selected by func on g[ra] and g[rb]. -/
  | alu (core : Fin 5) (x : BitVec 26)
  /-- R122: ADDI adds the sign-extended imm18 to g[ra]. -/
  | addi (core : Fin 5) (x : BitVec 26)
  /-- R122: ANDI ANDs g[ra] with the zero-extended imm18. -/
  | andi (core : Fin 5) (x : BitVec 26)
  /-- R122: ORI ORs g[ra] with the zero-extended imm18. -/
  | ori (core : Fin 5) (x : BitVec 26)
  /-- R122: XORI XORs g[ra] with the zero-extended imm18. -/
  | xori (core : Fin 5) (x : BitVec 26)
  /-- R122: SLTI sets rd when g[ra] is less than the sign-extended imm18. -/
  | slti (core : Fin 5) (x : BitVec 26)
  /-- R122: SHI shifts g[ra] by an immediate amount with the shift imm18[6:5] selects. -/
  | shi (core : Fin 5) (x : BitVec 26)
  /-- R122: LUI sets rd to imm22 shifted left by 10. -/
  | lui (core : Fin 5) (x : BitVec 26)
  /-- R122: ADDPC sets rd to PC plus the sign-extended imm22. -/
  | addpc (core : Fin 5) (x : BitVec 26)
  /-- R131: LDW loads a word after the segment checks, forwarding from the store buffer only when one entry covers it. -/
  | ldw (core : Fin 5) (x : BitVec 26)
  /-- R122: LDH loads a sign-extended halfword. -/
  | ldh (core : Fin 5) (x : BitVec 26)
  /-- R122: LDHU loads a zero-extended halfword. -/
  | ldhu (core : Fin 5) (x : BitVec 26)
  /-- R122: LDB loads a sign-extended byte. -/
  | ldb (core : Fin 5) (x : BitVec 26)
  /-- R122: LDBU loads a zero-extended byte. -/
  | ldbu (core : Fin 5) (x : BitVec 26)
  /-- R130: STW places a word store in the store buffer after the segment checks. -/
  | stw (core : Fin 5) (x : BitVec 26)
  /-- R130: STH places a halfword store in the store buffer. -/
  | sth (core : Fin 5) (x : BitVec 26)
  /-- R130: STB places a byte store in the store buffer. -/
  | stb (core : Fin 5) (x : BitVec 26)
  /-- R122: LDD loads 8 bytes into g[rd] and g[rd+1]. -/
  | ldd (core : Fin 5) (x : BitVec 26)
  /-- R122: STD stores g[rd] and g[rd+1] as 8 bytes. -/
  | std (core : Fin 5) (x : BitVec 26)
  /-- R134: AADD atomically adds g[rb] to a word at the bank atomic unit and returns the old word. -/
  | aadd (core : Fin 5) (x : BitVec 26)
  /-- R134: ASWP atomically swaps g[rb] into a word and returns the old word. -/
  | aswp (core : Fin 5) (x : BitVec 26)
  /-- R134: ACAS atomically writes g[rb] if the word equals g[rd] and returns the old word. -/
  | acas (core : Fin 5) (x : BitVec 26)
  /-- R122: BEQ branches when g[ra] equals g[rb]. -/
  | beq (core : Fin 5) (x : BitVec 26)
  /-- R122: BNE branches when g[ra] differs from g[rb]. -/
  | bne (core : Fin 5) (x : BitVec 26)
  /-- R122: BLT branches when g[ra] is less than g[rb], signed. -/
  | blt (core : Fin 5) (x : BitVec 26)
  /-- R122: BGE branches when g[ra] is at least g[rb], signed. -/
  | bge (core : Fin 5) (x : BitVec 26)
  /-- R122: BLTU branches when g[ra] is less than g[rb], unsigned. -/
  | bltu (core : Fin 5) (x : BitVec 26)
  /-- R122: BGEU branches when g[ra] is at least g[rb], unsigned. -/
  | bgeu (core : Fin 5) (x : BitVec 26)
  /-- R122: JMP jumps to PC plus 4 × imm26. -/
  | jmp (core : Fin 5) (x : BitVec 26)
  /-- R122: CALL jumps and writes the return offset to g15. -/
  | call (core : Fin 5) (x : BitVec 26)
  /-- R122: JALR jumps to g[ra] plus imm18 and writes PC + 4 to rd. -/
  | jalr (core : Fin 5) (x : BitVec 26)
  /-- R133: FENCE waits as FULL, STORE or IFETCH selects. -/
  | fence (core : Fin 5) (x : BitVec 26)
  /-- R122: SYSCALL traps SYSCALL with TVAL set to imm18. -/
  | syscall (core : Fin 5) (x : BitVec 26)
  /-- R122: BREAK traps BREAK with TVAL set to imm18. -/
  | brk (core : Fin 5) (x : BitVec 26)
  /-- R136: WFE consumes a pending event or waits until an enabled event source fires. -/
  | wfe (core : Fin 5) (x : BitVec 26)
  /-- R137: WFT waits for a cycle count, an enabled event or the next tick. -/
  | wft (core : Fin 5) (x : BitVec 26)
  /-- R137: The WFT cycle count elapses and WFT ends with rd = 0. -/
  | wftTimeout (core : Fin 5)
  /-- R137: SEV sends event bit 0 to a run-table slot of the same tenant. -/
  | sev (core : Fin 5) (x : BitVec 26)
  /-- R122: MFC reads a control register into rd. -/
  | mfc (core : Fin 5) (x : BitVec 26)
  /-- R122: MTC writes g[ra] to a control register. -/
  | mtc (core : Fin 5) (x : BitVec 26)
  /-- R116: LDSEG loads a 16-byte descriptor into a machine segment register, as INVALID if malformed. -/
  | ldseg (core : Fin 5) (x : BitVec 26)
  /-- R126: TRET returns from a trap to EPC with the saved mode. -/
  | tret (core : Fin 5) (x : BitVec 26)
  /-- R138: SFUQ offers a job descriptor to the SFU and reports acceptance or a turn hint. -/
  | sfuq (core : Fin 5) (x : BitVec 26)
  /-- R122: CACHE cleans or invalidates the line holding an address as rd selects. -/
  | cache (core : Fin 5) (x : BitVec 26)
  /-- R122: PRFM prefetches a line into the data cache and never traps. -/
  | prfm (core : Fin 5) (x : BitVec 26)
  /-- R125: The CC takes the lowest-numbered enabled pending interrupt at an instruction boundary. -/
  | ccInterrupt
  /-- R125: A write of 1 to a CC_IRQ_ACK bit clears a pending edge source. -/
  | irqAck (sources : BitVec 17)
  /-- R130: The oldest store-buffer entry drains to the cache, memory or the catalog write buffer. -/
  | storeDrain (core : Fin 5)
  /-- R127: A pending imprecise bus error from a drained store is taken as a trap at the next boundary in the issuing mode. -/
  | busErr (core : Fin 5)
  /-- R141: A write of 1 to CC_CNT_CLR or TCn_CNT_CLR zeroes TRAPS, SB_STALL and SB_FWD. -/
  | cntClr (core : Fin 5)
  /-- R136: An enabled event source fires for a context, sets EVPEND and EVSRC, and ends its WFE or makes a PARKED slot READY. -/
  | evpend (ctx : Fin 65) (source : Fin 6)
  /-- R154: A context that has waited in WFE for PARK FCLK cycles is preempted and becomes PARKED. -/
  | parked (core : Fin 4)
  /-- R155: CYCLE reaches BUDGET: the context is preempted, becomes SPENT and the free core is refilled. -/
  | ovrBudget (core : Fin 4)
  /-- R145: A write of INIT gives the slot the initial context at the tick. -/
  | init (slot : Fin 64)
  /-- R168: A write of 1 to FRAME_OVR_CLR zeroes every FRAME_SLOTn_OVR. -/
  | frameOvrClr
  /-- R164: A write of TEN_RESET with GO = 1 starts a tenant reset or is refused while one runs. -/
  | tenResetGo (tenant : Fin 64)
  /-- R166: At the first latch edge after step 5 the tenant becomes STOPPED and its slots get the initial context. -/
  | tenResetComplete
  /-- R159: A write to a mailbox DOORBELL sets the tenant's TEN_MBOX_PEND bit and interrupts the CC. -/
  | doorbell (tenant : Fin 64) (value : Word)
  /-- R160: A write of a tenant number raises event source 1 on every slot of the tenant that enables it. -/
  | tenEventPost (tenant : Fin 64)
  /-- R176: The snoop hub serves a core read miss, from a Modified copy or the bank. -/
  | readMiss (core : Fin 5) (addr : Word)
  /-- R176: The snoop hub invalidates other copies so that the requesting core holds the line Modified. -/
  | own (core : Fin 5) (addr : Word)
  /-- R176: The hub invalidates other copies and writes a write-through store to the bank. -/
  | writeThroughStore (core : Fin 5) (addr : Word) (data : List Byte)
  /-- R176: The hub serves a non-caching read, taking data from any Modified copy. -/
  | nonCachingRead (addr : Word)
  /-- R176: The hub writes back and invalidates cached copies and applies a non-caching write. -/
  | nonCachingWrite (addr : Word) (data : List Byte)
  /-- R177: The hub writes an evicted Modified line to the bank from the eviction buffer. -/
  | evictionNotice (core : Fin 5) (addr : Word)
  /-- R187: A catalog read waits for a pending write, checks poison and ECC, and returns data or completes as poisoned. -/
  | catalogRead (addr : Word) (err : BitVec 2)
  /-- R188: A catalog write is accepted into the write buffer, stalls at a full buffer, or is refused. -/
  | catalogWrite (addr : Word) (data : List Byte)
  /-- R190: A write-buffer entry's attempt programs and verifies its words, retrying up to four attempts. -/
  | writeAttempt (fail0 : Bool) (fail1 : Bool) (mergeErr : BitVec 2)
  /-- R195: The CAT controller sets or clears a poison-map bit in bank 15, entering the map-fail list if it fails. -/
  | mapUpdate (fails : Bool)
  /-- R196: Bank 15 is first released with FAB released after a loss of the summary and the rebuild starts. -/
  | summaryRebuildStart
  /-- R196: The 6.45 ms rebuild ends, summary bits are set and SUMMARY_VALID reads 1. -/
  | summaryRebuildDone (bad : List Nat)
  /-- R197: The scrubber reads one word and skips, rewrites or poisons it, ending a pass at the end of the range. -/
  | scrubRead (err : BitVec 2)
  /-- R202: A write of 1 to a DMA place GO makes a try request and copies the descriptor and segment set. -/
  | go (core : Fin 5) (place : Fin 5)
  /-- R203: At its first beat a transfer is checked and fails with a status or proceeds. -/
  | dmaTransferStart (place : Fin 5)
  /-- R204: One 64-bit beat of a transfer is read and written, or stops the transfer on poison or a bus error. -/
  | dmaBeat (place : Fin 5)
  /-- R204: A transfer ends, writes RES, frees its place and raises event source 3 or the DMA interrupt. -/
  | dmaEnd (place : Fin 5)
  /-- R205: A write of 1 to DMA_CNT_CLR zeroes DMA_CNT. -/
  | dmaCntClr
  /-- R208: CRYPT unwraps a key per RFC 3394 into a key slot if the integrity check passes. -/
  | unwrap (slot : Fin 64)
  /-- R208: CRYPT empties a key slot. -/
  | clearKey (slot : Fin 64)
  /-- R208: CRYPT computes the SHA-256 digest of the bytes in CRYPT_BUF. -/
  | sha256 (len : Fin 1024)
  /-- R208: CRYPT verifies a signature against the image key in ROM. -/
  | verifyImage
  /-- R208: CRYPT verifies a signature against the unlock key in fuses. -/
  | verifyUnlock
  /-- R208: CRYPT signs a digest with the attestation key. -/
  | signAttest
  /-- R208: CRYPT returns 32 random bytes. -/
  | random
  /-- R208: CRYPT returns the attestation public key. -/
  | attestPub
  /-- R208: A CRYPT operation ends, writes STATUS and tag to CRYPT_RES and raises the CRYPT interrupt. -/
  | cryptOperationEnd
  /-- R207: A write of CRYPT_KEK0 to 7 loads the key-encryption key. -/
  | kek (word : Fin 8) (value : Word)
  /-- R209: A write of 1 to CRYPT_CNT_CLR zeroes CRYPT_CNT. -/
  | cryptCntClr
  /-- R210: A write of 1 to MEMCTL_CNT_CLR zeroes the bank and hub counters. -/
  | memctlCntClr
  /-- R210: A write of 1 to CAT_CNT_CLR zeroes CAT_POISONS, CAT_ECC and CAT_REFUSED. -/
  | catCntClr
  /-- R210: A write of 1 to XRAM_CLR zeroes XRAM_COLL. -/
  | xramClr
  /-- R211: A requester raises a request for beats at an arbiter instance. -/
  | arbRequest (inst : Fin 36) (k : Fin 11) (beats : Fin 17) (prio : Fin 8) (ctx : Fin 66)
  /-- R214: The arbiter decides the next grant by the winner keys and updates wait counts. -/
  | arbDecision (inst : Fin 36)
  /-- R238: A write of 1 to ARB_CNT_CLR zeroes every ARB_INSTi_FORCED. -/
  | arbCntClr
  /-- R224: A STW to a cleat VALUE writes, takes or releases the cleat, granting the first waiter on release to 0. -/
  | cleatValueWrite (core : Fin 5) (cleat : Fin 256) (value : Word)
  /-- R224: An ACAS on a cleat VALUE compares and swaps, changing the holder as the values require. -/
  | cleatAcas (core : Fin 5) (cleat : Fin 256) (expected : Word) (value : Word)
  /-- R227: A read of a cleat WAIT word acquires at once or creates a wait record and stalls. -/
  | cleatWaitRead (core : Fin 5) (cleat : Fin 256) (rd : Fin 16)
  /-- R231: A STW to a cleat LEASE word by the holder reloads the lease. -/
  | cleatLeaseWrite (core : Fin 5) (cleat : Fin 256)
  /-- R230: A cleat wait not granted by the fourth tick completes with WAIT_TIMEOUT. -/
  | waitTimeout (ctx : Fin 65)
  /-- R231: A lease counter expires: the cleat becomes 0xFFFF_FFFF, waiters complete and a LATE record is raised. -/
  | leaseExpired (cleat : Fin 256)
  /-- R236: A wait cycle has held for CYC_HOLD cycles and LOCK releases the lowest-PRIO waiter. -/
  | waitBroken
  /-- R239: A write of 1 to LOCK_CNT_CLR zeroes LOCK_CNT and LOCK_VIOL. -/
  | lockCntClr
  /-- R252: Energy detect on an enabled port starts a probe excursion in Reef 2 or Reef 3. -/
  | energyDetect (port : Bool)
  /-- R10: A catalog bank powered for a probe is ready 2.0 µs after it begins powering. -/
  | catalogBankReady (bank : Fin 16)
  /-- R252: No SD is recognised by t0+4.0 µs and the excursion domains switch off. -/
  | excursionTimeout
  /-- R252: A reply, a query for another shelf or a data frame not for this node ends the excursion at once. -/
  | foreignFrame (sd : Byte) (b0 : Byte) (b1 : Byte)
  /-- R249: An accepted query is given a status by the decision order and its operation is carried out. -/
  | query (ports : BitVec 2) (a : BitVec 72) (b : BitVec 72) (late : Bool)
  /-- R253: PRB reads both buckets and the poison map and answers under the lookup rule, allocating a ticket on DEFERRED. -/
  | probe (tenant : Fin 64) (key : BitVec 48) (late : Bool)
  /-- R247: The spine STATUS operation answers HIT with the STATUS layout. -/
  | status
  /-- R256: PRB accepts WAKE_SHELF, sets WAKE_SEQ and raises SP_WAKE, or answers BUSY or ENERGY_LOW. -/
  | wakeShelf
  /-- R256: PRB accepts SLEEP_SHELF, sets SLEEP_SEQ and raises SP_SLEEP, or answers BUSY. -/
  | sleepShelf
  /-- R255: PRB answers a ticket fetch from the ticket table as BAD_OP, DEFERRED or its resolved result. -/
  | ticketFetch (tenant : Fin 64) (ticket : BitVec 16)
  /-- R248: The spine GAUGE operation answers with gauge values from one update. -/
  | gauge
  /-- R248: The spine TIME operation answers with the calendar as at E. -/
  | time
  /-- R257: PRB stores, repeats or refuses a command fragment and raises SP_CHUNK when a packet completes. -/
  | cmdChunk (ctl : BitVec 6) (data : BitVec 48)
  /-- R9: PRB starts the reply 3.0 µs after the query's E, answering BUSY if bucket data was late. -/
  | replyStart
  /-- R71: At the end of the slot PRB, SPTX, FIRC and the banks powered for the excursion switch off. -/
  | slotEnd
  /-- R262: In head mode the Ebzin transmits a beacon in slot 0 at each tick, stopping on a conflict. -/
  | headBeacon (conflict : Bool)
  /-- R258: A write of a buffer number queues that report for transmission in report slots. -/
  | probeRptPost (buf : Fin 8)
  /-- R258: In an owned report slot the next 22-byte fragment of the queued report is transmitted. -/
  | reportFragment (slot : Fin 32)
  /-- R259: Eight ticks pass without the next fragment leaving and the report is dropped with a LATE record. -/
  | undelivered
  /-- R260: The sender transmits a PAIR frame holding the oldest entry of its transmit ring. -/
  | pairTx
  /-- R260: The receiver takes a PAIR frame into its receive ring and answers with a PAIR_ACK. -/
  | pair (frame : Rx 72)
  /-- R260: The sender receives a PAIR_ACK and advances its ring on ACCEPTED. -/
  | pairAck (frame : Rx 88)
  /-- R261: A pair slot passes without a completed exchange and PAIR_MISS is set. -/
  | pairMiss
  /-- R264: Continuous drive for 40 µs cuts the port's driver until the next tick. -/
  | jabber (port : Bool)
  /-- R265: Energy detect active for 200 µs masks the port. -/
  | stuck (port : Bool)
  /-- R265: The 2.0 µs tick test of a masked port ends and the mask clears if the port was idle. -/
  | edMaskTestEnd (port : Bool) (idle : Bool)
  /-- R256: A write of PROBE_SEQ.SET_WAKE sets WAKE_SEQ. -/
  | setWake
  /-- R256: A write of PROBE_SEQ.SET_SLEEP sets SLEEP_SEQ. -/
  | setSleep
  /-- R257: A write of PROBE_CHUNK_REL frees the chunk assembly buffer. -/
  | probeChunkRel
  /-- R266: A write of SPINE_CNT_CLR zeroes the spine counters. -/
  | spineCntClr
  /-- R267: A write of PROBE_CNT_CLR zeroes the probe counters. -/
  | probeCntClr
  /-- R392: A UDP datagram to port 47120 passes the IPv4 checks and reaches Cyntoux as a command packet. -/
  | udpDatagram (port : Bool) (frame : List Byte)
  /-- R281: Cyntoux starts the waiting command with the highest priority. -/
  | commandStart
  /-- R282: A long-running command's hardware completes and its reply is sent. -/
  | commandComplete
  /-- R285: NOP does nothing and replies. -/
  | nop (c : CmdIn)
  /-- R285: IDENT returns SYS_IDENT, the serial number and the Cyntoux version. -/
  | ident (c : CmdIn)
  /-- R284: CFG_SET applies a field list to any block. -/
  | cfgSet (c : CmdIn)
  /-- R285: CFG_GET returns field values read with VIEW = 0. -/
  | cfgGet (c : CmdIn)
  /-- R285: REG_READ returns consecutive register words. -/
  | regRead (c : CmdIn)
  /-- R285: RPT_READ returns the global ring entries oldest first. -/
  | rptRead (c : CmdIn)
  /-- R285: RPT_CLEAR sets CLR of the global ring. -/
  | rptClear (c : CmdIn)
  /-- R282: WARM_RESET queues its reply and resets at the first tick after the reply has left. -/
  | warmReset (c : CmdIn)
  /-- R285: POWER_STAT returns the PMU status registers. -/
  | powerStat (c : CmdIn)
  /-- R62: REEF_REQ writes PMU_REEF_REQ.LEVEL and returns REFUSE. -/
  | reefReq (c : CmdIn)
  /-- R398: SHELF_WAKE asserts PSU_EN, waits for PSU_PG and starts the gangs, completing when all are ON. -/
  | shelfWake (c : CmdIn)
  /-- R282: SHELF_SLEEP runs the sleep sequence and completes when it ends. -/
  | shelfSleep (c : CmdIn)
  /-- R284: POWER_SET applies a field list to PMU, WAKE and CLK. -/
  | powerSet (c : CmdIn)
  /-- R294: BAY_STAT returns the state, trips, retries and monitor values of a range of bays. -/
  | bayStat (c : CmdIn)
  /-- R284: BAY_SET applies a field list to BAY and BAYU. -/
  | baySet (c : CmdIn)
  /-- R303: GANG_START starts the named gangs and completes when each is DONE. -/
  | gangStart (c : CmdIn)
  /-- R306: GANG_STOP stops the named gangs. -/
  | gangStop (c : CmdIn)
  /-- R295: BAY_RESTART restarts a LOCKED channel to OFF. -/
  | bayRestart (c : CmdIn)
  /-- R310: SER_SEND queues bytes to a bay serial port. -/
  | serSend (c : CmdIn)
  /-- R311: SER_RECV returns received bytes of a bay serial port. -/
  | serRecv (c : CmdIn)
  /-- R286: CAT_LOOKUP looks up a key under the lookup rule and returns the entry. -/
  | catLookup (c : CmdIn)
  /-- R286: CAT_PUT writes an entry into its bucket or outside both buckets with OVF. -/
  | catPut (c : CmdIn)
  /-- R286: CAT_DELETE writes STATE 4 into the entry holding a key. -/
  | catDelete (c : CmdIn)
  /-- R286: CAT_READ returns catalog bytes within the tenant's region. -/
  | catRead (c : CmdIn)
  /-- R286: CAT_WRITE posts catalog writes within the tenant's region. -/
  | catWrite (c : CmdIn)
  /-- R284: CAT_REGION applies a field list to the named tenant's CAT_TENt fields. -/
  | catRegion (c : CmdIn)
  /-- R285: TEN_STAT returns the tenant's TEN_STATt. -/
  | tenStat (c : CmdIn)
  /-- R287: TEN_SEG writes a segment descriptor of the tenant or is refused under the isolation rules. -/
  | tenSeg (c : CmdIn)
  /-- R162: TEN_ACTIVATE writes the tenant's ACTIVE and KEY_REQ. -/
  | tenActivate (c : CmdIn)
  /-- R287: TEN_RESET starts a tenant reset with cause 1 and replies with the report at completion. -/
  | tenReset (c : CmdIn)
  /-- R287: TEN_LOAD writes program bytes into the stopped tenant's s0 segment. -/
  | tenLoad (c : CmdIn)
  /-- R285: SLOT_STAT returns slot status and overrun counts. -/
  | slotStat (c : CmdIn)
  /-- R288: CLEAT_READ returns a cleat's VALUE, LEASE and INFO. -/
  | cleatRead (c : CmdIn)
  /-- R288: CLEAT_WRITE writes a cleat VALUE as the CC. -/
  | cleatWrite (c : CmdIn)
  /-- R288: CLEAT_ACQUIRE tries ACAS from each free value at its start and at the next 4 ticks. -/
  | cleatAcquire (c : CmdIn)
  /-- R288: At each of the next 4 ticks CLEAT_ACQUIRE tries again and ends with a status at success or the last try. -/
  | cleatAcquireRetry
  /-- R284: ARB_SET applies a field list to ARB and LOCK. -/
  | arbSet (c : CmdIn)
  /-- R54: GAUGE_READ returns gauge values from one update. -/
  | gaugeRead (c : CmdIn)
  /-- R284: HARV_SET applies a field list to HARV. -/
  | harvSet (c : CmdIn)
  /-- R104: TIME_GET returns the calendar from one capture. -/
  | timeGet (c : CmdIn)
  /-- R105: TIME_SET writes the staging registers and then LOAD. -/
  | timeSet (c : CmdIn)
  /-- R284: ALARM_SET applies a field list to the RTC alarm fields. -/
  | alarmSet (c : CmdIn)
  /-- R284: ADC_SET applies a field list to ADC. -/
  | adcSet (c : CmdIn)
  /-- R322: ADC_TABLE writes sequencer entries, word 1 then word 0. -/
  | adcTable (c : CmdIn)
  /-- R330: ADC_RING_READ returns ring words from TAIL and advances TAIL. -/
  | adcRingRead (c : CmdIn)
  /-- R347: SFU_TABLE_LOAD writes user table words into slots 8 to 15. -/
  | sfuTableLoad (c : CmdIn)
  /-- R347: SFU_TABLE_CRC returns the CRC-32C of a slot's image. -/
  | sfuTableCrc (c : CmdIn)
  /-- R335: SFU_RUN offers a job through Cyntoux's SFUQ and returns its status. -/
  | sfuRun (c : CmdIn)
  /-- R380: NOR_READ returns bytes from the NOR window. -/
  | norRead (c : CmdIn)
  /-- R378: NOR_ERASE erases a sector or block outside the locked ranges. -/
  | norErase (c : CmdIn)
  /-- R378: NOR_PROGRAM programs bytes within one page, with or without AND_PROGRAM. -/
  | norProgram (c : CmdIn)
  /-- R383: IMAGE_ACTIVATE checks a slot's image and writes a new boot record naming it. -/
  | imageActivate (c : CmdIn)
  /-- R289: KEY_LOAD unwraps a key into the tenant's key slot. -/
  | keyLoad (c : CmdIn)
  /-- R285: KEY_CLEAR empties the tenant's key slot. -/
  | keyClear (c : CmdIn)
  /-- R289: ATTEST returns signed evidence over identity, serial, frame, image digest and nonce. -/
  | attest (c : CmdIn)
  /-- R285: ATTEST_KEY returns the attestation public key. -/
  | attestKey (c : CmdIn)
  /-- R401: UNLOCK_CHALLENGE returns 16 random bytes, replacing the previous challenge. -/
  | unlockChallenge (c : CmdIn)
  /-- R401: UNLOCK_RESPONSE checks a signature over the challenge and unlocks or answers VERIFY_FAIL. -/
  | unlockResponse (c : CmdIn)
  /-- R360: ERR_READ returns error records from the oldest. -/
  | errRead (c : CmdIn)
  /-- R360: ERR_POP removes up to COUNT handled records. -/
  | errPop (c : CmdIn)
  /-- R365: The ERR_STAT command returns ERR_STAT and ERR_LOST. -/
  | errStat (c : CmdIn)
  /-- R303: A write of BAY_CHn_CMD.START queues a unit of one channel at the next latch edge. -/
  | channelStart (chan : Fin 128)
  /-- R306: A write of BAY_CHn_CMD.STOP dequeues the channel or turns it OFF at the next latch edge. -/
  | channelStop (chan : Fin 128)
  /-- R295: A write of BAY_CHn_CMD.RESTART moves a LOCKED channel to OFF and reloads RETRIES_LEFT. -/
  | restart (chan : Fin 128)
  /-- R303: A write of BAY_GANG_CMD.START queues a unit of the gang's eligible channels at the next latch edge. -/
  | gangCmdStart (gangs : BitVec 8)
  /-- R306: A write of BAY_GANG_CMD.STOP dequeues the gang and turns its channels OFF at the next latch edge. -/
  | gangCmdStop (gangs : BitVec 8)
  /-- R298: The ramp time elapses and the channel enters ON or trips with RAMP_FAIL. -/
  | rampEnd (chan : Fin 128) (srcOk : Bool)
  /-- R299: A sustained short-comparator crossing discharges the gate and trips the channel. -/
  | shortTrip (chan : Fin 128)
  /-- R300: At the BACKOFF-th latch edge after a trip the retry is queued as a unit of one. -/
  | backoffExpiry (chan : Fin 128)
  /-- R302: VBAY12 holds at or above 10.5 V for 100 µs and VB12_OK rises. -/
  | vb12OkRise (group : Fin 8)
  /-- R302: VB12_OK falls and the group's ramping and ON channels go OFF with UV set. -/
  | bayUv (group : Fin 8)
  /-- R308: A qualified change of a bay presence input sets PRS_CHG and may turn the channel OFF. -/
  | prsChg (chan : Fin 128) (level : Bool)
  /-- R308: A qualified change of a bay fault input to active acts as FLT_ACT selects. -/
  | flt (chan : Fin 128) (level : Bool)
  /-- R309: At the 64th tick after masking a chattering PRS or FLT input resumes. -/
  | inputUnmask (chan : Fin 128) (fault : Bool)
  /-- R310: A write to BAYU_CHn_TX pushes a character into the TX FIFO or counts TX_OVF. -/
  | bayuTx (chan : Fin 128) (data : Byte)
  /-- R311: A received character becomes a FIFO word with PE, FE and BRK, or is discarded. -/
  | characterReceived (chan : Fin 128) (data : Byte) (pe : Bool) (fe : Bool)
  /-- R311: A read of BAYU_CHn_RX pops the oldest received word. -/
  | bayuRx (chan : Fin 128)
  /-- R314: BAYU moves a received word as a halfword into its ring and advances HEAD. -/
  | bayuRingMove (chan : Fin 128)
  /-- R315: The receivers of a bay group are admitted 200 ms + 25 ms × g after the domain release. -/
  | receiverAdmission (group : Fin 8)
  /-- R319: A write of 1 to BAYU_CNT_CLR zeroes every BAYU_CHn_CNT and PREADMIT. -/
  | bayuCntClr
  /-- R324: A converter whose EN takes effect starts at entry 0 at the next ACLK or latch edge. -/
  | converterStart (conv : Fin 4)
  /-- R323: A 16-cycle conversion completes and, at the end of its group, gives a result into the FIFO. -/
  | conversionDone (conv : Fin 4) (microvolts : Int)
  /-- R328: The ADC moves a result word from its FIFO into its ring and advances HEAD. -/
  | adcRingMove
  /-- R326: REF_OK rises 400 µs after the reference domain is released. -/
  | refOk
  /-- R322: A write of sequencer word 0 commits it with the staged DELAY. -/
  | seqEntryWrite (conv : Fin 4) (entry : Fin 64) (value : Word)
  /-- R332: A write of 1 to ADC_CNT_CLR zeroes every LOST. -/
  | adcCntClr
  /-- R336: At its first beat a job is checked and fails with a status or proceeds. -/
  | sfuJobStart (place : Fin 6)
  /-- R337: A job writes its result record and raises event source 2 for its issuer. -/
  | sfuJobEnd (place : Fin 6)
  /-- R347: A write to table memory of slots 8 to 15 waits while a job uses the slot. -/
  | tableWrite (addr : Word) (value : Word)
  /-- R348: The SFU rebuilds standard slots 0 to 7 after domain 46 release and sets STD_READY. -/
  | stdReady
  /-- R352: A write of 1 to SFU_CNT_CLR zeroes SFU_CNT and SFU_SAT. -/
  | sfuCntClr
  /-- R357: An error record enters the queue, merges, or is dropped, and interrupts the CC if at the cursor. -/
  | errRecord (cls : Fin 4) (source : Byte) (tenant : Fin 64) (code : BitVec 16) (seq : BitVec 16) (address : Word) (offset : Word) (segment : Fin 8) (detail : List Byte)
  /-- R359: A write of ERR_DONE marks the cursor record HANDLED, moves the cursor and clears ERR_ACTIVE. -/
  | errDone
  /-- R360: A write of ERR_POP removes up to COUNT handled records from the oldest. -/
  | errPopWrite (count : BitVec 6)
  /-- R362: A DEVICE_FATAL record reaches its ERR_DONE or second latch edge and a warm reset begins. -/
  | fatalResetDue
  /-- R367: A low on RST_N qualifies and starts a warm reset. -/
  | rstN (low : Bool)
  /-- R367: A write of PMU_RESET_CTRL.WARM starts a warm reset with the written REASON. -/
  | warm (reason : Byte)
  /-- R368: A warm reset switches off every domain except those its retiring write entry needs. -/
  | warmResetStart
  /-- R368: The warm reset ends at the latest of its bounds and the domains are released. -/
  | warmResetEnd (boot : BitVec 2) (strap : BitVec 2)
  /-- R370: On a start with CAUSE 0 or 1 ROM powers the store, checks an image, applies configuration and accepts commands. -/
  | romBoot (shelfId : Option Byte)
  /-- R387: On a Reef 3 or FURL wake ROM restores the keeper snapshot or falls back to a full boot. -/
  | warmPath
  /-- R378: NORCTL_CMD OP ERASE_SECTOR starts a sector erase. -/
  | eraseSector
  /-- R378: NORCTL_CMD OP ERASE_BLOCK starts a block erase. -/
  | eraseBlock
  /-- R378: NORCTL_CMD OP PROGRAM starts a page program, checking erasure unless AND_PROGRAM is set. -/
  | program (andProgram : Bool)
  /-- R378: The blank check ends with NOT_ERASED or moves to PROGRAM. -/
  | norCheckDone
  /-- R378: A page program or erase finishes and moves to VERIFY. -/
  | norOperationDone (bad : Option (BitVec 23))
  /-- R379: VERIFY ends with OK or VERIFY_FAIL and the offset of the first mismatch. -/
  | norVerifyDone
  /-- R380: A read of the NOR window suspends an erase or waits for a program to leave PROGRAM and VERIFY. -/
  | norWindowRead (addr : Word)
  /-- R378: No window read has been pending for 2 µs and a suspended erase resumes. -/
  | eraseResume
  /-- R382: A write of NORCTL_LOCK_SET.REC locks the Recovery slot until domain 44 resets. -/
  | recLock
  /-- R391: A received Ethernet frame is kept or dropped and counted. -/
  | ethernetFrame (port : Bool) (frame : List Byte)
  /-- R392: An ARP request for the port's address is answered. -/
  | arpRequest (port : Bool) (frame : List Byte)
  /-- R392: An ICMP echo request to the port's address is answered with the same data. -/
  | icmpEcho (port : Bool) (frame : List Byte)
  /-- R390: Auto-negotiation completes and the link comes up, or SPEED_REJECT is set. -/
  | linkUp (port : Bool) (full1000 : Bool)
  /-- R393: The link goes down and unsent replies on that port are discarded. -/
  | linkDown (port : Bool)
  /-- R395: A byte received on a console port enters the 2 KiB buffer or is dropped, and raises CONS_RX. -/
  | consoleByte (port : Bool) (data : Byte)
  /-- R274: An END byte closes a SLIP frame, which is unescaped and judged as a packet or discarded. -/
  | consoleFrame (port : Bool)
  /-- R396: An enabled edge on a GPIO pin sets its GPIO_EVENT bit. -/
  | gpioEvent (pin : Fin 64) (level : Bool)
  /-- R397: PSU_PG is qualified after 8 stable XT1 cycles. -/
  | psuPg (level : Bool)
  /-- R397: PSU_ALERT_N is asserted and raises the PSU_ALERT halyard event. -/
  | psuAlert (asserted : Bool)
  /-- R398: PSU_PG is not qualified within SHELF_PG_TMO ticks and Cyntoux clears PSU_EN. -/
  | pgTimeout
  /-- R397: At the tick after a write of SHELF_LED the 64 bits shift out on LED_DAT and LED_CLK. -/
  | ledShift (value : Dword)
  /-- R400: The JTAG EXTEST instruction drives the boundary register onto the balls. -/
  | extest (cells : Nat) (sampled : Nat)
  /-- R400: The JTAG SAMPLE/PRELOAD instruction samples and preloads the boundary register. -/
  | samplePreload (cells : Nat) (sampled : Nat)
  /-- R400: The JTAG IDCODE instruction selects the IDCODE register. -/
  | idcode
  /-- R400: The JTAG CLAMP instruction holds outputs from the boundary register with BYPASS selected. -/
  | clamp
  /-- R400: The JTAG HIGHZ instruction places outputs in high impedance. -/
  | highz
  /-- R400: The JTAG DEBUG instruction reaches the debug logic when unlocked, and acts as BYPASS otherwise. -/
  | jtagDebug
  /-- R400: The JTAG BYPASS instruction, and every unlisted code, selects the bypass register. -/
  | bypass (code : BitVec 5)
  /-- R400: TRST_N resets the TAP and selects IDCODE. -/
  | trstN
  /-- R402: A trace packet enters the 64-word FIFO or is dropped and counted. -/
  | tracePacket (source : Fin 6) (kind : BitVec 5) (payload : List (BitVec 16))
  /-- R121: A core executes an instruction word whose major opcode is one of the 20 reserved codes and traps RSVD_OP with the word in TINST. -/
  | reservedMajorOpcode (core : Fin 5) (opcode : BitVec 6) (x : BitVec 26)
  /-- R241: A received spine frame whose SD matches no type, whose length is wrong or whose CRC fails is discarded without a reply and counted in SPINE_CNT0 or SPINE_CNT1. -/
  | spineFrameDiscarded (port : Bool) (sd : Byte) (nbits : Nat) (bytes : List Byte)
  /-- R310: A bay serial receiver samples 1 at the middle of a start bit, stores nothing, counts FALSE_START and waits for the next falling edge. -/
  | falseStart (chan : Fin 128)
  /-- R312: A bay serial transmitter finishes shifting out a character, takes the next from the TX FIFO, or lets RUNNING fall if EN was cleared. -/
  | characterShiftedOut (chan : Fin 128)
  /-- R397: A falling edge on a FAN_TACH input is counted into SHELF_TACHn for the frame. -/
  | fanTachEdge (fan : Fin 4)
  /-- R369: WDT_OUT_N returns high 1 ms after the start of a warm reset caused by DEVICE_FATAL. -/
  | wdtOutNRelease
  deriving DecidableEq, Repr

end Sys2Proof
end

