-- ==== Sys2Proof/Decode.lean ====
section
/-! DEFINITION. The decoder of table words. The block takes commands, not instruction words, and no row of its table gives bits:
no word spells a command (log entry 74). -/
namespace Sys2Proof

/-- The command that a word of the table's bits spells. -/
def decodeTableWord (_nbits _w : Nat) : Option Instr := none

end Sys2Proof
end

