-- ==== Sys2Proof/Machine/Bits.lean ====
section
/-! DEFINITION. Bit fields, saturation, byte order and lists of bytes (R2, R3). -/
namespace Sys2Proof.Machine

/-- Bits [lo+w-1 : lo] of a number (R3: bit 0 is the least significant bit). -/
def bits (n lo w : Nat) : Nat := (n / 2 ^ lo) % 2 ^ w

/-- One bit of a number. -/
def bit (n i : Nat) : Bool := decide ((n / 2 ^ i) % 2 = 1)

/-- A flag as a number. -/
def ofBool (b : Bool) : Nat := if b then 1 else 0

/-- A number with bits [lo+w-1 : lo] replaced. -/
def setBits (n lo w v : Nat) : Nat := n - bits n lo w * 2 ^ lo + (v % 2 ^ w) * 2 ^ lo

/-- A number with one bit replaced. -/
def setBit (n i : Nat) (b : Bool) : Nat := setBits n i 1 (ofBool b)

/-- Addition that saturates at the largest value of a field of `w` bits. -/
def satAdd (w a b : Nat) : Nat := min (a + b) (2 ^ w - 1)

/-- The bytes of a number, least significant first (R2). -/
def leBytes (n : Nat) : Nat → List Byte
  | 0 => []
  | k + 1 => BitVec.ofNat 8 n :: leBytes (n / 256) k

/-- The number whose little-endian bytes are given (R2). -/
def ofLe : List Byte → Nat
  | [] => 0
  | b :: t => b.toNat + 256 * ofLe t

/-- The bytes of a number, most significant first. -/
def beBytes (n k : Nat) : List Byte := (leBytes n k).reverse

/-- The number whose big-endian bytes are given. -/
def ofBe (l : List Byte) : Nat := ofLe l.reverse

/-- Byte `i` of a list, 0 beyond its length. -/
def byteAt (l : List Byte) (i : Nat) : Nat := (l.getD i 0#8).toNat

/-- A little-endian number of `k` bytes at position `i`. -/
def leAt (l : List Byte) (i k : Nat) : Nat := ofLe ((l.drop i).take k)

/-- Sign extension of the low `w` bits to a word. -/
def sext (w n : Nat) : Word := (BitVec.ofNat w n).signExtend 32

/-- The signed number in the low `w` bits. -/
def sval (w n : Nat) : Int := (BitVec.ofNat w n).toInt

/-- Replace element `i` of a list. -/
def putAt {α : Type} (l : List α) (i : Nat) (v : α) : List α := l.set i v

/-- The first element that passes a test, with its position. -/
def findIdx? {α : Type} (p : α → Bool) (l : List α) : Option Nat :=
  let i := l.findIdx p
  if i < l.length then some i else none

end Sys2Proof.Machine
end

