-- ==== Sys2Proof/Machine/Crypto.lean ====
section
/-! DEFINITION. The cryptographic functions CRYPT provides (R206): AES-256 and its XTS mode (IEEE 1619), AES key unwrap
(RFC 3394), SHA-256 (FIPS 180-4) and ECDSA verification over P-256. Bytes are numbers below 256 in lists. -/
namespace Sys2Proof.Machine

/-- Exclusive or of two byte lists. -/
def xorBytes (a b : List Nat) : List Nat := List.zipWith Nat.xor a b

/-- A number as `k` bytes, most significant first. -/
def beNat (n k : Nat) : List Nat := (beBytes n k).map (·.toNat)

/-- The number whose bytes, most significant first, are given. -/
def natBe (l : List Nat) : Nat := l.foldl (fun a b => a * 256 + b) 0

/-- FIPS 180-4: the round constants. -/
def shaK : List Nat :=
  [0x428a2f98, 0x71374491, 0xb5c0fbcf, 0xe9b5dba5, 0x3956c25b, 0x59f111f1, 0x923f82a4, 0xab1c5ed5] ++
  [0xd807aa98, 0x12835b01, 0x243185be, 0x550c7dc3, 0x72be5d74, 0x80deb1fe, 0x9bdc06a7, 0xc19bf174] ++
  [0xe49b69c1, 0xefbe4786, 0x0fc19dc6, 0x240ca1cc, 0x2de92c6f, 0x4a7484aa, 0x5cb0a9dc, 0x76f988da] ++
  [0x983e5152, 0xa831c66d, 0xb00327c8, 0xbf597fc7, 0xc6e00bf3, 0xd5a79147, 0x06ca6351, 0x14292967] ++
  [0x27b70a85, 0x2e1b2138, 0x4d2c6dfc, 0x53380d13, 0x650a7354, 0x766a0abb, 0x81c2c92e, 0x92722c85] ++
  [0xa2bfe8a1, 0xa81a664b, 0xc24b8b70, 0xc76c51a3, 0xd192e819, 0xd6990624, 0xf40e3585, 0x106aa070] ++
  [0x19a4c116, 0x1e376c08, 0x2748774c, 0x34b0bcb5, 0x391c0cb3, 0x4ed8aa4a, 0x5b9cca4f, 0x682e6ff3] ++
  [0x748f82ee, 0x78a5636f, 0x84c87814, 0x8cc70208, 0x90befffa, 0xa4506ceb, 0xbef9a3f7, 0xc67178f2]

/-- FIPS 180-4: the initial hash value. -/
def shaH0 : List Nat :=
  [0x6a09e667, 0xbb67ae85, 0x3c6ef372, 0xa54ff53a, 0x510e527f, 0x9b05688c, 0x1f83d9ab, 0x5be0cd19]

/-- Rotation of a 32-bit word to the right. -/
def rotr32 (x n : Nat) : Nat := x >>> n ||| (x <<< (32 - n)) % 4294967296

def shaSig (x a b c : Nat) (rot : Bool) : Nat :=
  Nat.xor (Nat.xor (rotr32 x a) (rotr32 x b)) (if rot then rotr32 x c else x >>> c)

/-- The message schedule, newest word first: `n` further words. -/
def shaSched : Nat → List Nat → List Nat
  | 0, w => w
  | n + 1, w =>
    shaSched n ((shaSig (w.getD 1 0) 17 19 10 false + w.getD 6 0 + shaSig (w.getD 14 0) 7 18 3 false + w.getD 15 0)
      % 4294967296 :: w)

/-- One round on the working variables a to h. -/
def shaRound (v : List Nat) (kw : Nat) : List Nat :=
  match v with
  | [a, b, c, d, e, f, g, h] =>
    let ch := Nat.xor (e &&& f) ((4294967295 - e) &&& g)
    let maj := Nat.xor (Nat.xor (a &&& b) (a &&& c)) (b &&& c)
    let t1 := (h + shaSig e 6 11 25 true + ch + kw) % 4294967296
    [(t1 + shaSig a 2 13 22 true + maj) % 4294967296, a, b, c, (d + t1) % 4294967296, e, f, g]
  | v => v

/-- One 64-byte block. -/
def shaBlock (h block : List Nat) : List Nat :=
  let w0 := (List.range 16).map (fun i => natBe ((block.drop (4 * i)).take 4))
  let w := (shaSched 48 w0.reverse).reverse
  List.zipWith (fun a b => (a + b) % 4294967296) h ((List.zipWith (· + ·) shaK w).foldl shaRound h)

/-- The blocks of a padded message, one for each unit of fuel. -/
def shaBlocks : Nat → List Nat → List Nat → List Nat
  | 0, h, _ => h
  | n + 1, h, m => shaBlocks n (shaBlock h (m.take 64)) (m.drop 64)

/-- SHA-256 of a byte list: 32 bytes, most significant first. -/
def sha256 (m : List Nat) : List Nat :=
  let z := (119 - m.length % 64) % 64
  let p := m ++ [0x80] ++ List.replicate z 0 ++ beNat (m.length * 8) 8
  (shaBlocks (p.length / 64) shaH0 p).flatMap (fun x => beNat x 4)

/-- FIPS 197: the S-box. -/
def aesSbox : List Nat :=
  [0x63, 0x7c, 0x77, 0x7b, 0xf2, 0x6b, 0x6f, 0xc5, 0x30, 0x01, 0x67, 0x2b, 0xfe, 0xd7, 0xab, 0x76] ++
  [0xca, 0x82, 0xc9, 0x7d, 0xfa, 0x59, 0x47, 0xf0, 0xad, 0xd4, 0xa2, 0xaf, 0x9c, 0xa4, 0x72, 0xc0] ++
  [0xb7, 0xfd, 0x93, 0x26, 0x36, 0x3f, 0xf7, 0xcc, 0x34, 0xa5, 0xe5, 0xf1, 0x71, 0xd8, 0x31, 0x15] ++
  [0x04, 0xc7, 0x23, 0xc3, 0x18, 0x96, 0x05, 0x9a, 0x07, 0x12, 0x80, 0xe2, 0xeb, 0x27, 0xb2, 0x75] ++
  [0x09, 0x83, 0x2c, 0x1a, 0x1b, 0x6e, 0x5a, 0xa0, 0x52, 0x3b, 0xd6, 0xb3, 0x29, 0xe3, 0x2f, 0x84] ++
  [0x53, 0xd1, 0x00, 0xed, 0x20, 0xfc, 0xb1, 0x5b, 0x6a, 0xcb, 0xbe, 0x39, 0x4a, 0x4c, 0x58, 0xcf] ++
  [0xd0, 0xef, 0xaa, 0xfb, 0x43, 0x4d, 0x33, 0x85, 0x45, 0xf9, 0x02, 0x7f, 0x50, 0x3c, 0x9f, 0xa8] ++
  [0x51, 0xa3, 0x40, 0x8f, 0x92, 0x9d, 0x38, 0xf5, 0xbc, 0xb6, 0xda, 0x21, 0x10, 0xff, 0xf3, 0xd2] ++
  [0xcd, 0x0c, 0x13, 0xec, 0x5f, 0x97, 0x44, 0x17, 0xc4, 0xa7, 0x7e, 0x3d, 0x64, 0x5d, 0x19, 0x73] ++
  [0x60, 0x81, 0x4f, 0xdc, 0x22, 0x2a, 0x90, 0x88, 0x46, 0xee, 0xb8, 0x14, 0xde, 0x5e, 0x0b, 0xdb] ++
  [0xe0, 0x32, 0x3a, 0x0a, 0x49, 0x06, 0x24, 0x5c, 0xc2, 0xd3, 0xac, 0x62, 0x91, 0x95, 0xe4, 0x79] ++
  [0xe7, 0xc8, 0x37, 0x6d, 0x8d, 0xd5, 0x4e, 0xa9, 0x6c, 0x56, 0xf4, 0xea, 0x65, 0x7a, 0xae, 0x08] ++
  [0xba, 0x78, 0x25, 0x2e, 0x1c, 0xa6, 0xb4, 0xc6, 0xe8, 0xdd, 0x74, 0x1f, 0x4b, 0xbd, 0x8b, 0x8a] ++
  [0x70, 0x3e, 0xb5, 0x66, 0x48, 0x03, 0xf6, 0x0e, 0x61, 0x35, 0x57, 0xb9, 0x86, 0xc1, 0x1d, 0x9e] ++
  [0xe1, 0xf8, 0x98, 0x11, 0x69, 0xd9, 0x8e, 0x94, 0x9b, 0x1e, 0x87, 0xe9, 0xce, 0x55, 0x28, 0xdf] ++
  [0x8c, 0xa1, 0x89, 0x0d, 0xbf, 0xe6, 0x42, 0x68, 0x41, 0x99, 0x2d, 0x0f, 0xb0, 0x54, 0xbb, 0x16]

def aesSub (b : Nat) : Nat := aesSbox.getD b 0
def aesInvSub (b : Nat) : Nat := aesSbox.findIdx (fun x => x == b)

/-- Multiplication by x in GF(2^8). -/
def xtime (b : Nat) : Nat := if b < 128 then 2 * b else Nat.xor (2 * b) 0x11B

/-- Multiplication in GF(2^8), `n` bits of the second factor. -/
def gmul : Nat → Nat → Nat → Nat
  | 0, _, _ => 0
  | n + 1, a, b => Nat.xor (if b % 2 = 1 then a else 0) (gmul n (xtime a) (b / 2))

/-- FIPS 197: key expansion, newest word first, four bytes a word. -/
def aesExpand : Nat → Nat → List (List Nat) → List (List Nat)
  | 0, _, w => w
  | n + 1, i, w =>
    let p := w.headD []
    let t := if i % 8 = 0 then
        xorBytes ((p.drop 1 ++ p.take 1).map aesSub) [[1, 2, 4, 8, 16, 32, 64].getD (i / 8 - 1) 0, 0, 0, 0]
      else if i % 8 = 4 then p.map aesSub else p
    aesExpand n (i + 1) (xorBytes (w.getD 7 []) t :: w)

/-- The 15 round keys of a 32-byte key. -/
def aesKeys (key : List Nat) : List (List Nat) :=
  let w := (aesExpand 52 8 ((List.range 8).map (fun i => (key.drop (4 * i)).take 4)).reverse).reverse
  (List.range 15).map (fun r => (List.range 4).flatMap (fun i => w.getD (4 * r + i) []))

/-- The state is 16 bytes in column order; row r of column c is byte r + 4c. -/
def aesShift (inv : Bool) (s : List Nat) : List Nat :=
  (List.range 16).map (fun i => s.getD (i % 4 + 4 * ((i / 4 + (if inv then 4 - i % 4 else i % 4)) % 4)) 0)

def aesMix (m : List Nat) (s : List Nat) : List Nat :=
  (List.range 16).map (fun i => (List.range 4).foldl
    (fun a j => Nat.xor a (gmul 8 (s.getD (i / 4 * 4 + (i % 4 + j) % 4) 0) (m.getD j 0))) 0)

/-- AES-256 encryption of a 16-byte block. -/
def aesEnc (key block : List Nat) : List Nat :=
  let k := aesKeys key
  let s := (List.range 13).foldl
    (fun s r => xorBytes (aesMix [2, 3, 1, 1] (aesShift false (s.map aesSub))) (k.getD (r + 1) []))
    (xorBytes block (k.getD 0 []))
  xorBytes (aesShift false (s.map aesSub)) (k.getD 14 [])

/-- AES-256 decryption of a 16-byte block. -/
def aesDec (key block : List Nat) : List Nat :=
  let k := aesKeys key
  let s := (List.range 13).foldl
    (fun s r => aesMix [14, 11, 13, 9] (xorBytes ((aesShift true s).map aesInvSub) (k.getD (13 - r) [])))
    (xorBytes block (k.getD 14 []))
  xorBytes ((aesShift true s).map aesInvSub) (k.getD 0 [])

/-- IEEE 1619: multiplication of a tweak by alpha, `n` times; the tweak is a little-endian 128-bit number. -/
def xtsAlpha : Nat → Nat → Nat
  | 0, t => t
  | n + 1, t => xtsAlpha n (if t < 2 ^ 127 then 2 * t else Nat.xor (2 * t - 2 ^ 128) 0x87)

def leNat (n k : Nat) : List Nat := (beNat n k).reverse
def natLe (l : List Nat) : Nat := natBe l.reverse

/-- R186, R204: one 16-byte block j of data unit `unit` under a 64-byte key: encryption or decryption. -/
def xtsBlock (enc : Bool) (key : List Nat) (unit j : Nat) (block : List Nat) : List Nat :=
  let t := leNat (xtsAlpha j (natLe (aesEnc (key.drop 32) (leNat unit 16)))) 16
  xorBytes ((if enc then aesEnc else aesDec) (key.take 32) (xorBytes block t)) t

/-- RFC 3394: one step of the unwrapping on A and the eight registers R1 to R8. -/
def unwrapStep (kek : List Nat) (v : List Nat × List (List Nat)) (t : Nat) : List Nat × List (List Nat) :=
  let i := (t - 1) % 8
  let b := aesDec kek (xorBytes v.1 (beNat t 8) ++ v.2.getD i [])
  (b.take 8, v.2.set i (b.drop 8))

/-- R208 UNWRAP: the 64 key bytes of 72 wrapped bytes, if the integrity check passes. -/
def aesUnwrap (kek w : List Nat) : Option (List Nat) :=
  let r := ((List.range 48).reverse.map (· + 1)).foldl (unwrapStep kek)
    (w.take 8, (List.range 8).map (fun i => (w.drop (8 + 8 * i)).take 8))
  if r.1 = List.replicate 8 0xA6 then some r.2.flatten else none

/-- FIPS 186-4, curve P-256. -/
def ecP : Nat := 2 ^ 256 - 2 ^ 224 + 2 ^ 192 + 2 ^ 96 - 1
def ecN : Nat := 0xFFFFFFFF00000000FFFFFFFFFFFFFFFFBCE6FAADA7179E84F3B9CAC2FC632551
def ecB : Nat := 0x5AC635D8AA3A93E7B3EBBD55769886BC651D06B0CC53B0F63BCE3C3E27D2604B
def ecGx : Nat := 0x6B17D1F2E12C4247F8BCE6E563A440F277037D812DEB33A0F4A13945D898C296
def ecGy : Nat := 0x4FE342E2FE1A7F9B8EE7EB4A7C0F9E162BCE33576B315ECECBB6406837BF51F5

/-- Modular power; `n` bits of the exponent. -/
def powMod : Nat → Nat → Nat → Nat → Nat
  | 0, _, _, m => 1 % m
  | n + 1, b, e, m => (if e % 2 = 1 then b else 1) * powMod n (b * b % m) (e / 2) m % m

/-- The inverse modulo a prime. -/
def invMod (a m : Nat) : Nat := powMod 256 (a % m) (m - 2) m

/-- Point addition; `none` is the point at infinity. -/
def ecAdd (p q : Option (Nat × Nat)) : Option (Nat × Nat) :=
  match p, q with
  | none, q => q
  | p, none => p
  | some (x1, y1), some (x2, y2) =>
    if x1 = x2 ∧ (y1 + y2) % ecP = 0 then none
    else
      let l := if x1 = x2 then 3 * (x1 * x1 + ecP - 1) * invMod (2 * y1) ecP % ecP
        else (y2 + ecP - y1) * invMod (x2 + ecP - x1) ecP % ecP
      let x3 := (l * l + 2 * ecP - x1 - x2) % ecP
      some (x3, (l * (x1 + ecP - x3) + ecP - y1) % ecP)

/-- Scalar multiplication; `n` bits of the scalar. -/
def ecMul : Nat → Nat → Option (Nat × Nat) → Option (Nat × Nat)
  | 0, _, _ => none
  | n + 1, k, p => ecAdd (if k % 2 = 1 then p else none) (ecMul n (k / 2) (ecAdd p p))

/-- ECDSA verification of r, s over a digest under a public key x, y. -/
def ecdsaVerify (digest x y r s : Nat) : Bool :=
  decide (0 < r ∧ r < ecN ∧ 0 < s ∧ s < ecN) &&
  (let w := invMod s ecN
   match ecAdd (ecMul 256 (digest * w % ecN) (some (ecGx, ecGy))) (ecMul 256 (r * w % ecN) (some (x, y))) with
   | none => false
   | some (px, _) => px % ecN == r)

/-- A scalar of the curve: 1 to n − 1. -/
def ecScalar (v : Nat) : Nat := v % (ecN - 1) + 1

/-- The public key of a private key. -/
def ecPublic (d : Nat) : Nat × Nat := (ecMul 256 d (some (ecGx, ecGy))).getD (0, 0)

/-- The ECDSA signature r, s of a digest under a private key with a nonce. -/
def ecdsaSign (d nonce digest : Nat) : Nat × Nat :=
  let r := (ecPublic nonce).1 % ecN
  (r, invMod nonce ecN * (digest + r * d) % ecN)

end Sys2Proof.Machine
end

