-- ==== Sys2Proof/Config.lean ====
section
/-! DEFINITION. What one part or one run fixes and the manual leaves open: fused values, ROM content, and free values.
Every constant is opaque: no proof can see its value, so a claim about it holds whatever it is. -/
namespace Sys2Proof

/-- A value the manual leaves open (undefined, indeterminate, "may have any value"). The step supplies a fresh index. -/
opaque Config.freeValue : Nat → Dword

/-- R7: the 64-bit serial number fused at manufacture. -/
opaque Config.serial : Dword

/-- Table 0-4: GRADE is 0x0 commercial or 0x1 extended; which one is the part's. -/
opaque Config.extendedGrade : Bool

/-- R110: a byte of the control core's ROM (Cyntoux 3), which the manual does not list. -/
opaque Config.romByte : Nat → Byte

/-- R401: whether the part's debug-lock fuse is blown. -/
opaque Config.debugFuseBlown : Bool

/-- R207: the attestation private key held in fuses. -/
opaque Config.attestKey : BitVec 256

/-- R207: the image public key x then y, held in ROM. -/
opaque Config.imagePub : BitVec 512

/-- R207, R401: the unlock public key x then y, held in fuses. -/
opaque Config.unlockPub : BitVec 512

/-- R206: the nonce of an ECDSA signature, which the part draws for each use. -/
opaque Config.attestNonce : Nat → BitVec 256

/-- R181: what a word with three or more bits in error reads as; it depends only on the bits stored: 0 detected as two-bit,
1 miscorrected, 2 passes unseen; and which bit a miscorrection inverts. -/
opaque Config.multiBitOutcome : Nat → Dword → Nat × Nat

end Sys2Proof
end

