-- ==== Sys2Proof/Machine/Regs.lean ====
section
/-! DEFINITION. The register tables of the manual as data: for a block and an offset, the fields in ascending bit order,
each with its field number, type (R4, Table 0-3), latch class (R18), reset value and legal range. -/
namespace Sys2Proof.Machine

/-- R4, Table 0-3: the register types (RWS occurs in no register table). -/
inductive RTy where
  | rw | ro | wo | w1c
  deriving DecidableEq, Repr

/-- R18: the latch classes; `none` for RO, W1C and action fields. -/
inductive Cls where
  | live | frame | stopped | none
  deriving DecidableEq, Repr

/-- R25: the legal range of a field. `dep` marks a bound computed from another field (R28); `clear` takes no value but 0, and reports
any other as clamped-low (R94). -/
inductive Rng where
  | any
  | rg (lo hi : Nat)
  | enumOf (vals : List Nat)
  | zeroOr (lo hi : Nat)
  | clear
  | dep
  deriving DecidableEq, Repr

/-- One field of a register, or one bit range of a grouped field (R425). -/
structure Fld where
  lo : Nat
  w : Nat
  no : Option Nat
  ty : RTy
  cls : Cls
  reset : Nat
  rng : Rng
  deriving DecidableEq, Repr

/-- A field's place in the register file: its address and its low bit. -/
abbrev Key := Nat

/-- The key of the field at an address whose low bit is `lo`. -/
def fk (addr lo : Nat) : Key := addr * 32 + lo

/-- The address a key belongs to. -/
def keyAddr (k : Key) : Nat := k / 32

/-- The low bit of the field a key names. -/
def keyLo (k : Key) : Nat := k % 32

def fL (lo w no reset : Nat) (r : Rng) : Fld := ⟨lo, w, some no, .rw, .live, reset, r⟩
def fF (lo w no reset : Nat) (r : Rng) : Fld := ⟨lo, w, some no, .rw, .frame, reset, r⟩
def fS (lo w no reset : Nat) (r : Rng) : Fld := ⟨lo, w, some no, .rw, .stopped, reset, r⟩
def fX (lo w reset : Nat) : Fld := ⟨lo, w, none, .rw, .live, reset, .any⟩
def fO (lo w no reset : Nat) : Fld := ⟨lo, w, some no, .ro, .none, reset, .any⟩
def fQ (lo w reset : Nat) : Fld := ⟨lo, w, none, .ro, .none, reset, .any⟩
def fC (lo w no reset : Nat) : Fld := ⟨lo, w, some no, .w1c, .none, reset, .any⟩
def fD (lo w : Nat) : Fld := ⟨lo, w, none, .w1c, .none, 0, .any⟩
def fW (lo w no : Nat) : Fld := ⟨lo, w, some no, .wo, .none, 0, .any⟩
def fV (lo w : Nat) : Fld := ⟨lo, w, none, .wo, .none, 0, .any⟩
/-- Single-bit RO members of a grouped field. -/
def fBits (no : Nat) (los : List Nat) : List Fld := los.map (fun b => fO b 1 no 0)
def fBitsC (no : Nat) (los : List Nat) : List Fld := los.map (fun b => fC b 1 no 0)

/-- The 0–1 range. -/
def r01 : Rng := .rg 0 1

/-- Table 1-4 (R17): block IDs with their register bases. -/
def blockBases : List (Nat × Nat) :=
  [(0x00, 0x40000000), (0x01, 0x40001000), (0x02, 0x40002000), (0x03, 0x40003000), (0x04, 0x40004000),
   (0x05, 0x40005000), (0x06, 0x40006000), (0x07, 0x40007000), (0x08, 0x40008000), (0x09, 0x40009000),
   (0x0A, 0x4000A000), (0x0B, 0x4000B000), (0x0C, 0x4000C000), (0x0D, 0x4000D000), (0x0E, 0x4000E000),
   (0x0F, 0x4000F000), (0x10, 0x40010000), (0x11, 0x40011000), (0x12, 0x40012000), (0x13, 0x40013000),
   (0x14, 0x40014000), (0x15, 0x40015000), (0x16, 0x40016000), (0x1B, 0x40017000), (0x1C, 0x40018000),
   (0x19, 0x40019000), (0x1A, 0x4001A000), (0x17, 0x40020000), (0x18, 0x40030000)]

/-- R17: the bytes of a block's register space. -/
def blockSize (b : Nat) : Nat := if b = 0x17 ∨ b = 0x18 then 0x9000 else 0x1000

/-- The base of a block. -/
def blockBase (b : Nat) : Nat := ((blockBases.find? (fun e => e.1 = b)).map (·.2)).getD 0

/-- R17: the block in whose register space an address lies. -/
def blockOf (addr : Nat) : Option Nat :=
  (blockBases.find? (fun e => decide (e.2 ≤ addr ∧ addr < e.2 + blockSize e.1))).map (·.1)

/-- Table 2-4 (R35): the common area of a block. -/
def commonBase (b : Nat) : Nat := blockBase b + (if b = 0x17 ∨ b = 0x18 then 0x8F80 else 0xF80)

/-- R34: the blocks whose writes cross into XT1. -/
def crossesXt1 (b : Nat) : Bool := b = 0x00 || b = 0x01 || b = 0x11 || b = 0x03

/-- PMU, Table 4-6 and Table 17-9; SYS_IDENT and the serial number (R6, R7). -/
def pmuRegs (o : Nat) : Option (List Fld) :=
  if 0x100 ≤ o ∧ o ≤ 0x1FC then some [fL 0 32 18 0 .any] else
  match o with
  | 0x000 => some [fL 0 1 0 0 r01, fL 1 1 1 0 r01]
  | 0x004 => some [fL 0 16 2 0x0003 .any]
  | 0x008 => some [fL 7 25 3 0x1FFFFFF .any]
  | 0x00C => some [fL 0 32 4 0x003FCFFF .any]
  | 0x010 => some [fL 0 4 5 0 (.enumOf [0, 1, 2, 3, 4])]
  | 0x014 => some [fL 0 4 6 0xE .any, fL 5 3 6 0 .any]
  | 0x020 => some [fF 7 25 7 0x1FFFFFF .any]
  | 0x024 => some [fF 0 32 8 0x003FCFFF .any]
  | 0x028 => some [fF 0 4 9 0xE .any, fF 5 3 9 0 .any]
  | 0x030 => some [fO 0 32 10 0]
  | 0x034 => some [fO 0 32 11 0]
  | 0x038 => some [fO 0 8 12 0]
  | 0x040 => some [fO 0 4 13 0, fO 4 2 13 0, fO 6 1 13 0, fO 8 2 13 0]
  | 0x044 => some [fO 0 15 14 0]
  | 0x048 => some [fC 0 15 15 0]
  | 0x04C => some [fL 0 15 16 0x7FFF .any]
  | 0x050 => some [fL 0 15 17 0x066F .any]
  | 0x060 => some [fO 0 2 19 0, fO 4 3 19 0, fO 8 2 19 0, fO 10 2 19 0, fO 16 8 19 0]
  | 0x064 => some [fW 0 8 20, fW 31 1 20]
  | 0x068 => some [fL 0 2 21 0 .any, fL 2 1 21 0 .any, fL 3 1 21 0 .any, fL 4 1 21 0 .any, fL 5 1 21 0 .any]
  | 0xFF0 => some [fQ 0 32 0]
  | 0xFF4 => some [fQ 0 32 0]
  | 0xFF8 => some [fQ 0 32 0]
  | _ => none

/-- HARV, Table 3-5 (R57). PER accepts 64, which a field list can bring and its 6 bits read as 0 (log entry 7). -/
def harvRegs (o : Nat) : Option (List Fld) :=
  match o with
  | 0x000 => some [fL 0 1 0 1 r01, fL 1 1 1 1 r01, fL 2 1 2 1 r01]
  | 0x004 => some [fF 0 4 3 8 (.rg 4 14), fF 8 6 4 16 (.rg 1 64)]
  | 0x008 => some [fF 0 4 5 12 (.rg 4 14), fF 8 6 6 16 (.rg 1 64)]
  | 0x00C => some [fL 0 8 7 50 (.rg 10 200)]
  | 0x010 => some [fF 0 16 8 1000 (.rg 500 20000)]
  | 0x014 => some [fL 0 10 9 220 .dep, fL 10 10 10 280 .dep, fL 20 10 11 500 .dep]
  | 0x018 => some [fF 0 24 12 10000 (.rg 0 1000000)]
  | 0x01C => some [fF 0 24 13 20000 .dep]
  | 0x020 => some [fF 0 24 14 50000 .dep]
  | 0x024 => some [fF 0 24 15 100000 .dep]
  | 0x028 => some [fF 0 24 16 500000 .dep]
  | 0x02C => some [fF 0 24 17 1000000 .dep]
  | 0x040 => some (fBits 18 [0, 1, 2, 3, 4, 5, 6, 7, 8])
  | 0x044 => some (fBitsC 19 [0, 1, 2, 3, 4, 5, 6])
  | 0x048 => some [fO 0 16 20 0]
  | 0x04C => some [fO 0 13 21 0]
  | 0x080 => some [fO 0 24 22 0]
  | 0x084 => some [fO 0 20 23 0]
  | 0x088 => some [fO 0 20 24 0]
  | 0x08C => some [fO 0 3 25 1]
  | 0x090 => some [fO 0 13 26 0]
  | 0x094 => some [fO 0 16 27 0]
  | _ => none

/-- CLK, Table 5-5 (R98). Each divider is checked against its own range alone; how a transfer ends while the ratios of R85 are broken the
manual leaves open, and in the model it completes with correct data (DESIGN CHOICE, log entry 140). -/
def clkRegs (o : Nat) : Option (List Fld) :=
  match o with
  | 0x000 => some [fF 0 2 0 0 .dep]
  | 0x004 => some [fF 0 8 1 1 (.rg 1 32), fF 8 8 2 1 (.rg 1 64), fF 16 8 3 2 (.rg 2 255), fF 24 8 4 2 (.rg 2 255)]
  | 0x008 => some [fF 0 8 5 7 (.rg 7 255)]
  | 0x00C => some [fS 0 7 6 32 .dep, fS 8 4 7 4 .dep]
  | 0x010 => some [fL 0 29 8 0 .any]
  | 0x014 => some [fL 0 4 9 0 (.rg 0 15), fL 16 16 10 0 (.rg 0 65535)]
  | 0x020 => some [fL 0 4 11 1 (.rg 0 15), fL 4 4 12 4 (.rg 0 15), fW 31 1 13]
  | 0x024 => some [fL 0 24 14 32768 (.rg 1 16777215)]
  | 0x028 => some [fO 0 32 15 0]
  | 0x02C => some (fBits 16 [0, 1, 2])
  | 0x040 => some (fBits 17 [0, 1, 2, 3, 4] ++ [fO 5 2 17 0, fO 7 1 17 0, fO 8 1 17 0])
  | 0x044 => some (fBitsC 18 [0, 1, 2, 3])
  | _ => none

/-- RTC, Table 6-2 (R109). -/
def rtcRegs (o : Nat) : Option (List Fld) :=
  match o with
  | 0x000 => some [fW 0 1 0, fW 1 1 1]
  | 0x004 => some [fL 0 6 2 0 (.rg 0 59), fL 8 6 3 0 (.rg 0 59), fL 16 5 4 0 (.rg 0 23)]
  | 0x008 => some [fL 0 8 5 0 (.rg 0 255), fL 8 4 6 1 (.rg 1 12), fL 16 5 7 1 .dep]
  | 0x010 => some [fO 0 15 8 0]
  | 0x014 => some [fO 0 6 9 0, fO 8 6 9 0, fO 16 5 9 0]
  | 0x018 => some [fO 0 8 10 0, fO 8 4 10 1, fO 16 5 10 1, fO 24 3 10 6]
  | 0x020 | 0x030 =>
    let n := (o - 0x20) / 0x10
    some [fL 0 6 (11 + 6 * n) 0 (.rg 0 59), fL 7 1 (12 + 6 * n) 0 r01, fL 8 6 (11 + 6 * n) 0 (.rg 0 59),
      fL 15 1 (12 + 6 * n) 0 r01, fL 16 5 (11 + 6 * n) 0 (.rg 0 23), fL 23 1 (12 + 6 * n) 0 r01]
  | 0x024 | 0x034 =>
    let n := (o - 0x24) / 0x10
    some [fL 0 5 (13 + 6 * n) 1 (.rg 1 31), fL 7 1 (16 + 6 * n) 0 r01, fL 8 4 (14 + 6 * n) 1 (.rg 1 12),
      fL 15 1 (16 + 6 * n) 0 r01, fL 16 3 (15 + 6 * n) 0 (.enumOf [0, 1, 2, 3, 4, 5, 6]), fL 19 1 (16 + 6 * n) 0 r01,
      fL 31 1 (16 + 6 * n) 0 r01]
  | 0x040 => some (fBits 23 [0, 1, 2])
  | 0x044 => some [fC 0 1 24 0, fC 1 1 24 0, fC 2 1 24 0, fC 3 1 24 0, fC 4 1 24 1]
  | _ => none

/-- FRAME, Table 5-6 (R99) and Table 8-9 (R168). -/
def frameRegs (o : Nat) : Option (List Fld) :=
  if 0x100 ≤ o ∧ o < 0x500 then
    let n := (o - 0x100) / 0x10
    match o % 0x10 with
    | 0x0 => some [fF 0 6 (16 + 8 * n) 0 (.rg 0 63), fF 8 4 (17 + 8 * n) 0xF .any, fF 12 3 (18 + 8 * n) 0 (.rg 0 7),
        fF 15 1 (19 + 8 * n) 0 r01, ⟨16, 1, some (20 + 8 * n), .wo, .frame, 0, .any⟩]
    | 0x4 => some [fF 0 21 (21 + 8 * n) 0 (.rg 0 1048576)]
    | 0x8 => some [fO 0 3 (22 + 8 * n) 0, fO 4 3 (22 + 8 * n) 0, fO 8 3 (22 + 8 * n) 0, fO 12 20 (22 + 8 * n) 0]
    | 0xC => some [fO 0 16 (23 + 8 * n) 0, fO 16 16 (23 + 8 * n) 0]
    | _ => none
  else match o with
  | 0x000 => some [fL 0 1 0 1 r01, fL 1 1 1 0 r01]
  | 0x004 => some [fF 0 10 2 32 .dep]
  | 0x010 => some [fO 0 32 3 0]
  | 0x014 => some [fO 0 10 4 0, fO 16 13 4 0]
  | 0x018 => some [fO 0 12 5 0]
  | 0x01C => some [fO 0 1 6 0, fO 1 1 6 0, fO 2 4 6 0]
  | 0x020 => some [fC 0 1 7 0, fC 1 1 7 0, fC 2 1 7 0, fC 3 1 7 1]
  | 0x024 => some [fO 0 16 8 0]
  | 0x028 => some [fO 0 16 9 0]
  | 0x500 => some [fL 0 12 600 256 (.rg 0 4095)]
  | 0x504 => some [fW 0 1 601]
  | 0x508 => some [fO 0 32 602 0xFFFFFFFF]
  | _ => none

/-- Table 10-1: the last requester number of an arbiter, and the BURST_MAX reset and range. -/
def arbLastReq (i : Nat) : Nat := if i < 16 then 10 else if i = 16 then 3 else if i = 17 then 5 else if i = 18 then 2 else 6
def arbBurstReset (i : Nat) : Nat := if i < 16 then 8 else if i = 16 then 1 else if i = 18 then 4 else 16
def arbBurstTop (i : Nat) : Nat := if i = 16 then 1 else 16

/-- R238: limits of requesters that do not exist read 0 and ignore writes, so only the existing ones are fields. -/
def arbLims (i base no : Nat) (ms : List Nat) : List Fld :=
  (ms.filter (fun m => decide (base + m ≤ arbLastReq i))).map (fun m => fL (8 * m) 8 (no + m) 32 (.rg 1 255))

/-- ARB, Table 10-6 (R238). -/
def arbRegs (o : Nat) : Option (List Fld) :=
  if o < 0x280 then
    let i := o / 0x20
    match o % 0x20 with
    | 0x00 => some [fL 0 1 (16 * i) 0 r01, fF 8 5 (16 * i + 1) (arbBurstReset i) (.rg 1 (arbBurstTop i))]
    | 0x04 => some (arbLims i 0 (16 * i + 2) [0, 1, 2, 3])
    | 0x08 => some (arbLims i 4 (16 * i + 6) [0, 1, 2, 3])
    | 0x0C => some (arbLims i 8 (16 * i + 10) [0, 1, 2])
    | 0x10 => some [fO 0 1 (16 * i + 13) 0, fO 1 1 (16 * i + 13) 1, fO 4 4 (16 * i + 13) 0xF, fO 16 11 (16 * i + 13) 0]
    | 0x14 => some [fO 0 16 (16 * i + 14) 0, fO 16 16 (16 * i + 14) 0]
    | _ => none
  else if o = 0x300 then some [fW 0 1 320] else none

/-- LOCK, Table 10-7 (R239). -/
def lockRegs (o : Nat) : Option (List Fld) :=
  if 0x100 ≤ o ∧ o < 0x200 then
    let g := (o - 0x100) / 0x10
    match o % 0x10 with
    | 0x0 => some [fL 0 32 (16 + 4 * g) 0 .any]
    | 0x4 => some [fL 0 32 (17 + 4 * g) 0 .any]
    | 0x8 => some [fF 0 16 (18 + 4 * g) 0 (.rg 0 65535)]
    | _ => none
  else match o with
  | 0x000 => some [fL 0 1 0 1 r01, fL 4 12 1 64 (.rg 16 4095)]
  | 0x010 => some [fO 0 7 2 0, fO 8 7 2 0, fO 16 1 2 0]
  | 0x014 => some [fO 0 16 3 0, fO 16 16 3 0]
  | 0x018 => some [fO 0 7 4 0, fO 8 7 4 0, fO 16 8 4 0, fO 24 3 4 0]
  | 0x01C => some [fO 0 16 5 0]
  | 0x020 => some [fW 0 1 6]
  | _ => none

/-- Table 9-7: the defined owner codes. -/
def ownCodes : Rng := .enumOf [0, 1, 2, 3, 4, 5, 6, 7, 8, 15]

/-- MEMCTL, Table 9-8 (R210). -/
def memctlRegs (o : Nat) : Option (List Fld) :=
  if 0x040 ≤ o ∧ o < 0x080 ∧ o % 4 = 0 then
    let n := (o - 0x40) / 4
    some [fO 0 16 (16 + n) 0, fO 16 16 (16 + n) 0]
  else match o with
  | 0x000 => some ((List.range 8).map (fun k => fF (4 * k) 4 k (bits 0x22211100 (4 * k) 4) ownCodes))
  | 0x004 => some ((List.range 8).map (fun k => fF (4 * k) 4 (8 + k) (bits 0x65444333 (4 * k) 4) ownCodes))
  | 0x080 => some [fO 0 16 32 0, fO 16 16 32 0]
  | 0x084 => some [fW 0 1 33]
  | _ => none

/-- CAT, Table 9-8 (R210). -/
def catRegs (o : Nat) : Option (List Fld) :=
  if 0x100 ≤ o ∧ o < 0x300 then
    let t := (o - 0x100) / 8
    match o % 8 with
    | 0 => some [fF 0 5 (16 + 4 * t) 0 .dep, fF 16 10 (17 + 4 * t) 0 .dep]
    | 4 => some [fF 0 10 (18 + 4 * t) 0 .dep, fF 16 10 (19 + 4 * t) 0 .dep]
    | _ => none
  else match o with
  | 0x000 => some [fL 0 1 0 1 r01]
  | 0x004 => some [fL 0 6 1 0 (.rg 0 63), fL 16 16 2 0 .any]
  | 0x008 => some [fL 3 23 3 0 .any]
  | 0x010 => some [fO 0 6 4 0, fO 6 1 4 0, fO 16 16 4 0]
  | 0x014 => some [fO 0 1 5 0, fO 1 1 5 0, fO 2 4 5 0]
  | 0x018 => some [fO 0 24 6 0]
  | 0x01C => some [fO 0 16 7 0, fO 16 16 7 0]
  | 0x020 => some [fO 0 26 8 0]
  | 0x024 => some [fO 0 16 9 0]
  | 0x028 => some [fW 0 1 10]
  | _ => none

/-- SCRUB, Table 9-8 (R210). -/
def scrubRegs (o : Nat) : Option (List Fld) :=
  match o with
  | 0x000 => some [fL 0 1 0 0 r01, fS 1 1 1 1 r01]
  | 0x004 => some [fS 0 10 2 0 (.rg 0 1023), fS 16 10 3 1024 .dep]
  | 0x008 => some [fF 0 13 4 256 (.rg 1 4096)]
  | 0x010 => some [fO 3 23 5 0]
  | 0x014 => some [fO 0 16 6 0, fO 16 16 6 0]
  | 0x018 => some [fO 0 24 7 0]
  | 0x01C => some [fO 0 16 8 0]
  | 0x020 => some [fC 0 1 9 0]
  | _ => none

/-- XRAM, Table 9-8 (R210). -/
def xramRegs (o : Nat) : Option (List Fld) :=
  match o with
  | 0x000 => some [fO 0 16 0 0]
  | 0x004 => some [fO 2 14 1 0]
  | 0x008 => some [fW 0 1 2]
  | _ => none

/-- NORCTL, Table 17-10 (R389). -/
def norRegs (o : Nat) : Option (List Fld) :=
  if 0x100 ≤ o ∧ o < 0x200 ∧ o % 4 = 0 then some [fS 0 32 4 0xFFFFFFFF .any] else
  match o with
  | 0x000 => some [fS 0 23 0 0 (.rg 0 0x7FFFFF)]
  | 0x004 => some [fS 0 9 1 256 (.rg 1 256)]
  | 0x008 => some [⟨0, 2, some 2, .wo, .stopped, 0, .enumOf [1, 2, 3]⟩, ⟨8, 1, some 3, .wo, .stopped, 0, .any⟩]
  | 0x010 => some [fQ 0 3 0, fQ 8 1 0, fQ 12 1 0]
  | 0x014 => some [fQ 0 3 0]
  | 0x018 => some [fQ 0 23 0]
  | 0x01C => some [fV 0 1]
  | 0x020 => some [fQ 0 16 0]
  | _ => none

/-- SPINE, Table 11-9 (R266). -/
def spineRegs (o : Nat) : Option (List Fld) :=
  match o with
  | 0x000 => some [fL 0 1 0 0 .dep, fS 1 1 1 0 r01, fS 2 2 2 3 (.rg 1 3), fS 4 2 3 3 (.rg 1 3), fS 6 1 4 0 r01,
      fL 8 1 5 0 r01, fL 9 1 6 0 r01]
  | 0x004 => some [fS 0 6 7 0 (.rg 0 62)]
  | 0x008 => some [fF 0 8 8 0 .any, fF 8 8 9 0 .any]
  | 0x00C => some [fF 1 31 10 0 .any]
  | 0x010 => some [fF 1 31 11 0 .any]
  | 0x014 => some [fF 0 6 12 1 (.rg 0 62)]
  | 0x040 => some (fBits 13 [0, 1, 2, 3, 4, 5, 6])
  | 0x044 => some (fBitsC 14 [0, 1, 2, 3, 4, 5, 6])
  | 0x050 => some [fO 0 32 15 0]
  | 0x054 => some [fO 0 32 16 0]
  | 0x058 => some [fO 0 32 17 0]
  | 0x05C => some [fO 0 32 18 0]
  | 0x060 => some [fO 0 32 19 0]
  | 0x070 => some [fO 0 16 20 0, fO 16 16 20 0]
  | 0x074 => some [fO 0 16 21 0, fO 16 16 21 0]
  | 0x078 => some [fW 0 1 22]
  | _ => none

/-- PROBE, Table 11-10 (R267). -/
def probeRegs (o : Nat) : Option (List Fld) :=
  match o with
  | 0x000 => some [fL 0 1 0 0 r01, fL 1 1 1 0 r01, fL 2 1 2 0 r01]
  | 0x004 => some [fC 0 1 3 0, fC 1 1 3 0, fW 8 1 3, fW 9 1 3]
  | 0x008 => some [fL 0 16 4 1024 (.rg 1 65535)]
  | 0x00C => some [fS 0 1 5 0 r01, fS 8 6 6 0 (.rg 0 62), fS 16 5 7 1 (.rg 1 31), fS 24 3 8 0 (.rg 0 4), fS 28 4 9 0 .dep]
  | 0x010 => some [fW 0 3 10]
  | 0x014 => some [fW 0 1 11]
  | 0x018 => some [fL 0 6 12 0 (.rg 0 63)]
  | 0x01C => some [fL 0 6 13 0 (.rg 0 63)]
  | 0x020 => some [fO 0 6 14 0, fO 8 6 14 0]
  | 0x040 => some [fO 0 4 15 0, fO 8 8 15 0xFF, fO 16 8 15 0]
  | 0x044 => some (fBitsC 16 [0, 1, 2, 3, 4])
  | 0x048 => some [fO 0 16 17 0, fO 16 8 17 0]
  | 0x050 => some [fO 0 16 18 0, fO 16 16 18 0]
  | 0x054 => some [fO 0 16 19 0, fO 16 16 19 0]
  | 0x058 => some [fW 0 1 20]
  | _ => none

/-- SGM0, SGM1, Table 18-4 (R403). -/
def sgmRegs (o : Nat) : Option (List Fld) :=
  match o with
  | 0x000 => some [fS 0 1 0 0 r01]
  | 0x004 => some [fS 0 32 1 0 .any]
  | 0x040 => some [fQ 0 1 0, fQ 1 1 0]
  | 0x044 => some [fQ 0 16 0]
  | _ => none

/-- CONS, Table 18-4 (R403). -/
def consRegs (o : Nat) : Option (List Fld) :=
  if o < 0x80 then
    let p := o / 0x40
    match o % 0x40 with
    | 0x00 => some [fL 0 1 (3 * p) 0 r01, fS 1 1 (3 * p + 1) 0 r01, fS 16 13 (3 * p + 2) 417 (.rg 16 5000)]
    | 0x10 => some [fQ 0 16 0, fQ 16 16 0]
    | _ => none
  else none

/-- GPIO and shelf control, Table 18-4 (R403). -/
def gpioRegs (o : Nat) : Option (List Fld) :=
  if o < 0x20 ∧ o % 4 = 0 then some [fL 0 32 (o / 4) 0 .any] else
  match o with
  | 0x100 => some [fL 0 1 16 0 r01, fL 1 4 17 0 .any, fL 5 1 18 0 r01]
  | 0x104 => some [fL 0 12 19 512 (.rg 1 4095)]
  | 0x108 => some [fQ 0 1 0, fQ 1 1 0]
  | _ => none

/-- DMA, Table 9-12 (R205); the page at 0x800 steers to the issuing core's place and holds nothing itself. -/
def dmaRegs (o : Nat) : Option (List Fld) :=
  if 0x100 ≤ o ∧ o < 0x240 then
    match (o - 0x100) % 0x40 with
    | 0x20 => some [fV 0 1]
    | 0x24 => some [fQ 0 32 0]
    | 0x28 => some [fQ 0 16 0, fQ 16 16 0]
    | 0x2C => some [fQ 0 21 0]
    | 0x30 => some [fQ 0 1 0, fQ 16 16 0]
    | w => if w < 0x20 ∧ w % 4 = 0 then some [fX 0 32 0] else none
  else match o with
  | 0x000 => some [fQ 0 5 0, fQ 8 1 0]
  | 0x004 => some [fQ 0 16 0, fQ 16 16 0]
  | 0x008 => some [fV 0 1]
  | _ => none

/-- SFU, Table 15-10 (R352). -/
def sfuRegs (o : Nat) : Option (List Fld) :=
  match o with
  | 0x000 => some [fQ 0 1 0, fQ 1 6 0, fQ 16 16 0]
  | 0x004 => some [fQ 0 16 0, fQ 16 16 0]
  | 0x008 => some [fQ 0 16 0]
  | 0x00C => some [fQ 0 16 0, fQ 16 16 0]
  | 0x010 => some [fV 0 1]
  | _ => none

/-- Table 14-1: input codes that are not reserved. -/
def adcInputs : List Nat := List.range 0x2B ++ (List.range 0x40).map (· + 0x40)

/-- ADC, Table 14-4 (R332). -/
def adcRegs (o : Nat) : Option (List Fld) :=
  if 0x400 ≤ o ∧ o < 0xC00 then
    let c := (o - 0x400) / 0x200
    let e := (o - 0x400) % 0x200 / 8
    match o % 8 with
    | 0 => some [fL 0 8 (512 + 2 * (64 * c + e)) 0x2A (.enumOf adcInputs), fX 8 8 0,
        fL 16 3 (513 + 2 * (64 * c + e)) 0 (.enumOf [0, 1, 2, 3, 4]), fX 20 2 c]
    | 4 => some [fX 0 12 0]
    | _ => none
  else if 0x020 ≤ o ∧ o < 0x060 then
    let c := (o - 0x20) / 0x10
    match o % 0x10 with
    | 0x0 => some [fL 0 1 (8 + 4 * c) 0 r01, fS 1 1 (9 + 4 * c) 0 r01, fF 8 7 (10 + 4 * c) 64 (.rg 1 64)]
    | 0x4 => some [fQ 0 6 0, fQ 16 1 0, fQ 17 1 0, fQ 20 4 0]
    | 0x8 => some [fQ 0 16 0]
    | _ => none
  else if 0x100 ≤ o ∧ o < 0x140 then
    let r := (o - 0x100) / 0x10
    match o % 0x10 with
    | 0x0 => some [fS 6 26 (32 + 4 * r) ((0x10740000 + 0x10000 * r) / 64) .dep]
    | 0x4 => some [fS 0 4 (33 + 4 * r) 14 .dep]
    | 0x8 => some [fL 0 16 (34 + 4 * r) 0 .any]
    | 0xC => some [fQ 0 16 0]
    | _ => none
  else match o with
  | 0x000 => some [fS 0 4 0 0 .any, fL 4 1 1 0 r01]
  | 0x010 => some [fQ 0 1 0]
  | 0x014 => some [fV 0 1]
  | _ => none

/-- WAKE, Table 4-7 (R78). -/
def wakeRegs (o : Nat) : Option (List Fld) :=
  if o < 0x40 ∧ o % 4 = 0 then
    let n := o / 4
    some [fL 0 1 (5 * n) 0 r01, fL 1 1 (5 * n + 1) 0 r01, fL 2 2 (5 * n + 2) 0 (.enumOf [0, 1, 2]),
      fL 4 4 (5 * n + 3) 4 (.rg 0 13), fL 8 2 (5 * n + 4) 0 (.enumOf [0, 1, 2])]
  else match o with
  | 0x080 => some [fC 0 16 80 0]
  | 0x084 => some [fC 0 16 81 0]
  | 0x088 => some [fO 0 16 82 0]
  | 0x08C => some [fO 0 16 83 0]
  | _ => none

/-- ERR, Table 16-5 (R365). -/
def errRegs (o : Nat) : Option (List Fld) :=
  if (0x040 ≤ o ∧ o < 0x060 ∨ 0x400 ≤ o ∧ o < 0x800 ∨ 0xE00 ≤ o ∧ o < 0xE20) ∧ o % 4 = 0 then some [fQ 0 32 0] else
  match o with
  | 0x000 => some [fL 0 1 0 1 r01, fL 1 1 1 0 r01]
  | 0x004 => some [fQ 0 6 0, fQ 8 5 0, fQ 16 5 0, fQ 24 1 0, fQ 25 1 0, fQ 26 1 0]
  | 0x008 => some [fQ 0 16 0]
  | 0x00C => some [fV 0 1]
  | 0x010 => some [⟨0, 6, none, .rw, .live, 0, .any⟩]
  | 0x014 => some [fQ 0 32 0]
  | 0xE20 => some [fQ 0 8 0, fD 8 1]
  | _ => none

/-- TEN, Table 8-10 (R169). -/
def tenRegs (o : Nat) : Option (List Fld) :=
  if 0x100 ≤ o ∧ o < 0x200 ∧ o % 4 = 0 then
    let t := (o - 0x100) / 4
    some [fF 0 1 (16 + 4 * t) 0 r01, fF 1 1 (17 + 4 * t) 0 r01, fL 2 1 (18 + 4 * t) 0 r01]
  else if 0x200 ≤ o ∧ o < 0x300 ∧ o % 4 = 0 then
    let t := (o - 0x200) / 4
    some [fO 0 2 (19 + 4 * t) 0, fO 2 1 (19 + 4 * t) 0, fO 8 8 (19 + 4 * t) 0]
  else if 0x400 ≤ o ∧ o < 0x510 ∧ o % 4 = 0 then some [fO 0 32 305 0]
  else match o with
  | 0x000 => some [fS 13 19 0 (0x10000000 / 8192) (.rg (0x10000000 / 8192) (0x107FE000 / 8192))]
  | 0x004 => some [fS 13 19 1 (0x10002000 / 8192) (.rg (0x10000000 / 8192) (0x107FE000 / 8192))]
  | 0x008 => some [fL 0 1 2 0 r01]
  | 0x300 => some [fW 0 6 300, fW 31 1 300]
  | 0x304 => some [fO 0 1 301 0, fO 8 6 301 0, fC 16 1 301 0]
  | 0x308 => some [fC 0 32 302 0]
  | 0x30C => some [fC 0 32 303 0]
  | 0x310 => some [fW 0 6 304]
  | _ => none

/-- CRYPT, Table 9-15 (R209). -/
def cryptRegs (o : Nat) : Option (List Fld) :=
  if 0x020 ≤ o ∧ o < 0x040 ∧ o % 4 = 0 then some [⟨0, 32, some 0, .wo, .live, 0, .any⟩]
  else if 0x400 ≤ o ∧ o < 0x600 ∧ o % 4 = 0 then some [fL 0 32 1 0 .any]
  else match o with
  | 0x000 => some [fQ 0 1 0, fQ 1 1 0]
  | 0x004 => some [fV 0 4, fV 8 6, fV 16 10]
  | 0x008 => some [fQ 0 32 0]
  | 0x00C => some [fQ 0 8 0, fQ 16 16 0]
  | 0x010 => some [fQ 0 32 0]
  | 0x014 => some [fQ 0 32 0]
  | 0x040 => some [fQ 0 16 0, fQ 16 16 0]
  | 0x044 => some [fV 0 1]
  | _ => none

/-- One core's registers, Table 7-10 (R141); `b` is 16n in block TC and 0 in block CC. -/
def coreRegs (cc : Bool) (b o : Nat) : Option (List Fld) :=
  match o with
  | 0x00 => some [fO 0 3 b (if cc then 2 else 0), fO 8 6 b 0, fO 16 1 b 0]
  | 0x04 => some [fF 2 22 (b + 1) 0x40 .any]
  | 0x08 => some [fO 0 16 (b + 2) 0]
  | 0x0C => some [fO 0 16 (b + 3) 0]
  | 0x10 => some [fO 0 16 (b + 4) 0]
  | 0x14 => some [fO 0 32 (b + 5) 0]
  | 0x18 => some [fO 0 32 (b + 6) 0]
  | 0x1C => some [fO 0 32 (b + 7) 0]
  | 0x20 => some [fW 0 1 (b + 8)]
  | 0x24 => if cc then some [fL 0 17 (b + 9) 0 .any] else none
  | 0x28 => if cc then some [fQ 0 17 0] else none
  | 0x2C => if cc then some [fV 0 17] else none
  | _ => none

/-- BAY, Table 13-3 (R318); field numbers are the 10-bit local numbers of R29. -/
def bayRegs (o : Nat) : Option (List Fld) :=
  if o < 0x8000 then
    let n := o / 0x100
    match o % 0x100 with
    | 0x00 => some [fL 0 1 (8 * n) 0 r01, fS 4 3 (8 * n + 1) (n / 16) (.rg 0 7), fS 8 8 (8 * n + 2) 16 (.rg 1 128),
        fS 16 4 (8 * n + 3) 7 (.rg 0 15)]
    | 0x04 => some [fL 0 3 (8 * n + 4) 3 (.rg 0 7), fL 8 8 (8 * n + 5) 64 (.rg 1 255), fL 16 2 (8 * n + 6) 1 (.enumOf [0, 1, 2])]
    | 0x08 => some [fV 0 1, fV 1 1, fV 2 1]
    | 0x10 => some [fQ 0 3 0, fQ 3 1 0, fQ 4 1 0, fQ 8 3 0, fQ 12 1 0, fQ 13 1 0, fQ 14 1 0, fQ 15 1 0, fQ 24 8 0]
    | 0x14 => some ((List.range 8).map (fun b => fD b 1))
    | 0x18 => some [fQ 0 2 0, fQ 16 16 0]
    | _ => none
  else if 0x8010 ≤ o ∧ o < 0x8030 ∧ o % 4 = 0 then
    let g := (o - 0x8010) / 4
    some [fL 0 1 (8 * (8 + g) + 7) 0 r01, fL 1 1 (8 * (16 + g) + 7) 0 r01, fL 2 3 (8 * (24 + g) + 7) 4 (.rg 0 7),
      fL 5 1 (8 * (32 + g) + 7) 0 r01]
  else if 0x8080 ≤ o ∧ o < 0x80A0 ∧ o % 4 = 0 then
    some [fL 0 14 (8 * (40 + (o - 0x8080) / 4) + 7) 100 (.rg 5 10000)]
  else if 0x8050 ≤ o ∧ o < 0x8060 ∧ o % 4 = 0 then some [fQ 0 32 0]
  else match o with
  | 0x8000 => some [fF 0 6 7 8 (.rg 1 32)]
  | 0x8040 => some [fV 0 8, fV 8 8]
  | 0x8044 => some [fQ 0 8 0, fQ 8 8 0, fQ 16 8 0xFF, fQ 24 6 0]
  | 0x804C => some [fQ 0 8 0]
  | 0x8060 => some [fD 0 1]
  | _ => none

/-- BAYU, Table 13-4 (R319). -/
def bayuRegs (o : Nat) : Option (List Fld) :=
  if o < 0x8000 then
    let n := o / 0x100
    match o % 0x100 with
    | 0x00 => some [fL 0 1 (8 * n) 0 r01, fS 1 1 (8 * n + 1) 0 r01, fS 4 3 (8 * n + 3) 0 (.enumOf [0, 1, 2, 3, 4, 5]),
        fS 16 13 (8 * n + 2) 417 (.rg 16 5000)]
    | 0x04 => some [fS 0 4 (8 * n + 5) 0 (.zeroOr 4 10),
        fS 6 26 (8 * n + 4) ((0x10700000 + 0x800 * n) / 64) (.rg (0x10000000 / 64) (0x107FFFC0 / 64))]
    | 0x08 => some [fL 0 16 (8 * n + 6) 0 .any]
    | 0x0C => some [fQ 0 16 0]
    | 0x10 => some [fQ 0 11 0, fQ 31 1 1]
    | 0x14 => some [fV 0 8]
    | 0x18 => some [fQ 0 5 0, fQ 8 5 0, fQ 16 1 0, fQ 17 1 0]
    | 0x1C => some [fQ 0 8 0, fQ 8 8 0, fQ 16 8 0, fQ 24 8 0]
    | _ => none
  else if 0x8010 ≤ o ∧ o < 0x8030 ∧ o % 4 = 0 then some [fQ 0 16 0]
  else match o with
  | 0x8000 => some [fQ 0 8 0]
  | 0x8040 => some [fV 0 1]
  | _ => none

/-- The fields of the register at an offset of a block; `none` where no register is defined (R5). The common area of
Table 2-3 and the global ring of Table 2-4 are held apart (R26). -/
def regDef (b o : Nat) : Option (List Fld) :=
  match b with
  | 0x00 => pmuRegs o
  | 0x01 => harvRegs o
  | 0x02 => clkRegs o
  | 0x03 => rtcRegs o
  | 0x04 => frameRegs o
  | 0x05 => arbRegs o
  | 0x06 => lockRegs o
  | 0x07 => memctlRegs o
  | 0x08 => catRegs o
  | 0x09 => norRegs o
  | 0x0A => spineRegs o
  | 0x0B => probeRegs o
  | 0x0C => sgmRegs o
  | 0x0D => sgmRegs o
  | 0x0E => dmaRegs o
  | 0x0F => sfuRegs o
  | 0x10 => adcRegs o
  | 0x11 => wakeRegs o
  | 0x12 => gpioRegs o
  | 0x13 => consRegs o
  | 0x14 => errRegs o
  | 0x15 => tenRegs o
  | 0x16 => cryptRegs o
  | 0x17 => bayRegs o
  | 0x18 => bayuRegs o
  | 0x19 => coreRegs true 0 o
  | 0x1A => if o < 0x400 then coreRegs false (16 * (o / 0x100)) (o % 0x100) else none
  | 0x1B => scrubRegs o
  | 0x1C => xramRegs o
  | _ => none

/-- The fields at a register address. -/
def fldsAt (addr : Nat) : List Fld :=
  match blockOf addr with
  | some b => (regDef b (addr - blockBase b)).getD []
  | none => []

/-- The field a key names. -/
def fldOf (k : Key) : Option Fld := (fldsAt (keyAddr k)).find? (fun f => f.lo = keyLo k)

/-- What a field holds after the reset of its domain: the manual's reset value. -/
def regReset (k : Key) : Nat := ((fldOf k).map (·.reset)).getD 0

/-- R29: the 16-bit ID of a field, if the register table numbers it. -/
def fieldId (b : Nat) (f : Fld) : Option Nat := f.no.map (fun n => b * 1024 + n)

end Sys2Proof.Machine
end

