-- ==== Sys2Proof/Machine/Tab.lean ====
section
/-! DEFINITION. A sparse table by key in one canonical form: keys strictly rising, no entry equal to what an unlisted key
reads as. Registers, memory, cores, slots, channels and cleats are held this way, so that equal machines are equal data. -/
namespace Sys2Proof.Machine

/-- A list of key and value pairs; what an unlisted key reads as is a default function given at each use. -/
abbrev Tab (α : Type) := List (Nat × α)

/-- The value at a key: the first entry with that key, else the default. -/
def Tab.get {α : Type} (d : Nat → α) : Tab α → Nat → α
  | [], k => d k
  | (k', v) :: t, k => if k' = k then v else Tab.get d t k

/-- Insert in key order, replacing the entry with the same key. -/
def Tab.insert {α : Type} : Tab α → Nat → α → Tab α
  | [], k, v => [(k, v)]
  | (k', v') :: t, k, v =>
    if k < k' then (k, v) :: (k', v') :: t
    else if k' = k then (k, v) :: t
    else (k', v') :: Tab.insert t k v

/-- Remove every entry with the key. -/
def Tab.erase {α : Type} : Tab α → Nat → Tab α
  | [], _ => []
  | (k', v) :: t, k => if k' = k then Tab.erase t k else (k', v) :: Tab.erase t k

/-- Write a value: the default value removes the entry, any other value takes its place in key order. -/
def Tab.set {α : Type} [DecidableEq α] (d : Nat → α) (t : Tab α) (k : Nat) (v : α) : Tab α :=
  if v = d k then Tab.erase t k else Tab.insert t k v

/-- Keep only the entries whose key passes the test: the others read as the default again. -/
def Tab.keep {α : Type} (p : Nat → Bool) (t : Tab α) : Tab α := t.filter (fun e => p e.1)

/-- The canonical form: keys strictly rising from `lo`, no entry at its default. -/
def Tab.wfFrom {α : Type} [DecidableEq α] (d : Nat → α) : Nat → Tab α → Bool
  | _, [] => true
  | lo, (k, v) :: t => decide (lo ≤ k) && !decide (v = d k) && Tab.wfFrom d (k + 1) t

/-- The canonical form of a whole table. -/
def Tab.wf {α : Type} [DecidableEq α] (d : Nat → α) (t : Tab α) : Bool := Tab.wfFrom d 0 t

end Sys2Proof.Machine
end

