-- ==== Sys2Proof/Machine/State.lean ====
section
/-! DEFINITION. The state of the Ebzin 64 as plain data: every register, buffer, counter, mode and pin the manual gives it,
the queue of waiting commands, and the state after reset. A field that a register table gives is in `regs` under its address
and low bit; what no register shows, or a register only views, is in the groups below. Default field values are the values
after reset. -/
namespace Sys2Proof.Machine

/-- Why the machine stops. No command of the manual stops the part: traps, bus errors and error records are effects on the
state (R123, R127, R353), so no meaning raises this. Safe: no run ends in it. -/
inductive Fault where
  /-- Raised by nobody; it keeps the type inhabited. Safe. -/
  | stuck
  deriving DecidableEq, Repr

/-- Why a command has no meaning. -/
inductive Refusal where
  /-- Raised by an arm of Dispatch.lean that has no meaning yet, with the row's mnemonic. Safe: the machine goes no further. -/
  | notModelled (mnemonic : String)
  deriving DecidableEq, Repr

/-- R58: what a switched domain is doing. `rising`: switched on from off, release due; `retained`: unpowered with its state
on VRET (Reef 2); `resuming`: switched on from retained, release due. -/
inductive DomSt where
  | off | rising | up | retained | resuming
  deriving DecidableEq, Repr

/-- R31: a clamp-report ring. -/
structure Ring where
  slots : Tab Nat := []
  valid : Nat := 0
  next : Nat := 0
  lost : Nat := 0
  deriving DecidableEq, Repr

/-- R34: a write still crossing into XT1: the register and the field values (or W1C ones) it brings. -/
structure Crossing where
  block : Nat
  addr : Nat
  writes : List (Key × Nat)
  deriving DecidableEq, Repr

/-- Table 3-1: the harvester states. -/
inductive HState where
  | empty | bare | harvest | standby
  deriving DecidableEq, Repr

/-- HARV and the keep cell (R37–R54). -/
structure Harv where
  st : HState := .harvest
  /-- The keep cell is not in EMPTY (R40). -/
  kept : Bool := true
  loaded : Bool := false
  /-- The load switch is closed and AON is held in power-on reset (Table 3-2). -/
  por : Bool := false
  /-- The start in hand was caused by VSTBY_OK (R40). -/
  porStby : Bool := false
  cutDecided : Bool := false
  hvaOn : Bool := false
  hvbOn : Bool := false
  /-- The input being sampled: false HVA, true HVB (R43). -/
  sampling : Option Bool := none
  /-- XT1 cycles since the start of the previous sample; none: the next update samples (R42). -/
  sinceA : Option Nat := none
  sinceB : Option Nat := none
  /-- Last 64 updates, newest first: energy in, energy drawn (pJ), XT1 cycles (R51). -/
  window : List (Nat × Nat × Nat) := []
  /-- Ticks since the STORE_LOW crossing, while STORE_LOW is active (R49). -/
  lowTicks : Option Nat := none
  deriving DecidableEq, Repr

/-- PMU state that no register holds (R61–R72). -/
structure Pmu where
  /-- An accepted request awaiting its tick: its target level. -/
  req : Option Nat := none
  /-- The request was for Reef 2 and was accepted at allowance 2: its entry goes to Reef 3 and sets FORCED (R65). -/
  reqLow : Bool := false
  /-- The entry in hand: target level. -/
  entry : Option Nat := none
  /-- A LEVEL = 1 request is standing (R61). -/
  req1 : Bool := false
  /-- Wake-enabled events that may start a full wake (R67, R68, R72). -/
  wakeEv : Nat := 0
  /-- Domains to switch off once the write buffer holds no entry for them (R16). -/
  offHold : List Nat := []
  deriving DecidableEq, Repr

/-- A WAKE pin detector (R73–R76). -/
structure Pin where
  armed : Bool := false
  /-- Last qualified level, after POL. -/
  qual : Option Bool := none
  edges : Nat := 0
  /-- Frame boundaries left of the chatter mask. -/
  masked : Option Nat := none
  deriving DecidableEq, Repr

/-- CLK and FRAME state that no register holds (R84–R97). -/
structure ClkSt where
  outSel : Nat := 0
  outDiv : Nat := 0
  /-- A tick is placed and awaits its latch edge (R92). -/
  tickDue : Bool := false
  /-- The XT1 cycle that the last tick opened is in progress: the pulse of CLKOUT code 15 (R89). -/
  tickHigh : Bool := false
  /-- Ticks placed while the fast path was off (R92). -/
  missed : Nat := 0
  /-- Whole-cycle move of the tick that ends the frame in progress (R96). -/
  move : Int := 0
  /-- The frame in progress is extended by an acquisition (R95). -/
  extended : Bool := false
  deriving DecidableEq, Repr

/-- The calendar (Table 6-1); WDAY is computed. -/
structure Rtc where
  sub : Nat := 0
  sec : Nat := 0
  min : Nat := 0
  hour : Nat := 0
  day : Nat := 1
  month : Nat := 1
  year : Nat := 0
  halted : Bool := false
  deriving DecidableEq, Repr

/-- Table 16-1: an error record. -/
structure ErrRec where
  cls : Nat := 0
  coal : Bool := false
  handled : Bool := false
  source : Nat := 0
  tenant : Nat := 0
  count : Nat := 0
  code : Nat := 0
  seq : Nat := 0
  address : Nat := 0
  frame : Nat := 0
  stamp : Nat := 0
  offset : Nat := 0
  segment : Nat := 0
  detail : List Nat := []
  deriving DecidableEq, Repr

/-- ERR (R353–R364). -/
structure Err where
  slots : Tab ErrRec := []
  head : Nat := 0
  count : Nat := 0
  /-- Handled records at the front of the queue; the cursor is the next one. -/
  handled : Nat := 0
  active : Bool := false
  lost : Nat := 0
  stamp : Nat := 0
  popped : Nat := 0
  /-- Records raised by each source since the last latch edge (R363). -/
  perSource : Tab Nat := []
  /-- CLK_EVENT bits set while FAB was off (R357). -/
  clkHeld : Nat := 0
  /-- The DEVICE_FATAL record awaiting its reset: its STAMP and the latch edges seen since (R362). -/
  fatal : Option (Nat × Nat) := none
  /-- ERR_KEEP, in AON. -/
  keep : Option ErrRec := none
  fatalResets : Nat := 0
  keepValid : Bool := false
  deriving DecidableEq, Repr

/-- Table 7-2: a segment descriptor in a register. -/
structure Seg where
  base : Nat := 0
  limit : Nat := 0
  typ : Nat := 0
  rights : Nat := 0
  tag : Nat := 0
  cache : Nat := 0
  deriving DecidableEq, Repr

/-- R130: a store-buffer entry; the segment number, offset and mode of its store serve R127. -/
structure SbEnt where
  addr : Nat
  size : Nat
  data : Nat
  segNo : Nat
  off : Nat
  typ : Nat
  cache : Nat
  tmode : Bool
  /-- The context that stored it (R133). -/
  ctx : Nat
  deriving DecidableEq, Repr

/-- A cache line: its address and 32 bytes; `dirty` is Modified, else Shared (R175). -/
structure Line where
  addr : Nat
  dirty : Bool
  data : List Byte
  deriving DecidableEq, Repr

/-- Table 7-10 STAT.STATE, with running split by MODE. -/
inductive CoreRun where
  | stopped | running | wfe | wft | lockWait | halted
  deriving DecidableEq, Repr

/-- A core (R110–R140). Cache lists are most recently used first; a set keeps at most two of its lines. -/
structure Core where
  run : CoreRun := .stopped
  g : List Word := List.replicate 16 0#32
  pc : Word := 0#32
  tmode : Bool := false
  pmode : Bool := false
  inTrap : Bool := false
  ie : Bool := false
  useT : Bool := false
  epc : Word := 0#32
  cause : Word := 0#32
  tval : Word := 0#32
  tinst : Word := 0#32
  vbase : Word := 0x100#32
  cycle : Word := 0#32
  evmask : Nat := 0
  evsrc : Nat := 0
  evpend : Bool := false
  scratch0 : Word := 0#32
  scratch1 : Word := 0#32
  mset : List Seg := List.replicate 8 {}
  tset : List Seg := List.replicate 8 {}
  sb : List SbEnt := []
  eb : List Line := []
  dc : List Line := []
  ic : List Line := []
  /-- The pending imprecise BUS_ERR: segment, offset, mode of the store (R127). -/
  imp : Option (Nat × Nat × Bool) := none
  /-- Destination register of the wait in hand. -/
  waitRd : Nat := 0
  /-- The run-table slot dispatched on the core. -/
  slot : Option Nat := none
  deriving DecidableEq, Repr

/-- A run-table slot's state beside its registers and its context record in memory (R149–R157). -/
structure Slot where
  state : Nat := 0
  /-- CYCLE at the last preemption. -/
  cycleLast : Nat := 0
  /-- The slot has been dispatched since the last tick, so its CYCLE goes on (R155). -/
  ranThisFrame : Bool := false
  /-- Order of the last dispatch; 0 never. -/
  lastDisp : Nat := 0
  cutOff : Bool := false
  /-- When its WFE wait began, in the order of waits (R234, R236). -/
  wfeOrder : Option Nat := none
  /-- Released from PARKED by wait-cycle breaking: the trap is taken at dispatch (R236). -/
  broken : Bool := false
  /-- The saved imprecise error's store was issued in T mode (R127, R129). -/
  impT : Bool := true
  deriving DecidableEq, Repr

/-- One write listed by a tenant reset (R167). -/
structure RptEnt where
  off : Nat
  seg : Nat
  src : Nat
  poisoned : Bool
  retries : Nat
  seq : Nat
  deriving DecidableEq, Repr

/-- A tenant reset in hand (R164–R167). -/
structure TenReset where
  tenant : Nat
  cause : Nat
  ticks : Nat := 0
  frameNum : Nat := 0
  contexts : Nat := 0
  cleats : Nat := 0
  waiters : Nat := 0
  engines : Nat := 0
  entries : List RptEnt := []
  /-- A latch edge has passed since step 5 ended (R166). -/
  edge : Bool := false
  deriving DecidableEq, Repr

/-- TEN (R142–R169). -/
structure Ten where
  /-- Tenant states of Table 8-6. -/
  state : Tab Nat := []
  reset : Option TenReset := none
  /-- FATAL_ACT resets that wait for the running one (R163). -/
  waiting : List Nat := []
  /-- TEN_RPT bytes. -/
  rpt : List Byte := []
  /-- Dispatches made, for the order of R151. -/
  dispatches : Nat := 0
  /-- TEN_CTRL.DISP_EN as sampled at the last tick (R169). -/
  dispOn : Bool := false
  deriving DecidableEq, Repr

/-- R188, R189: a catalog write-buffer entry. `off` is the catalog offset of its word, or of its 16-byte block in a record
area; `mask` has a bit for each byte written. -/
structure WbEnt where
  off : Nat
  record : Bool
  slotKey : Nat := 0
  data : List Byte
  mask : Nat
  tenant : Nat
  seg : Nat
  toff : Nat
  src : Nat
  seq : Nat
  origin : Nat
  /-- The first attempt has started (R191). -/
  started : Bool := false
  attempts : Nat := 0
  /-- Words still to verify, a bit for each. -/
  left : Nat := 1
  /-- What the attempts program, once the merge read or cipher step is done. -/
  merged : List Byte := []
  deriving DecidableEq, Repr

/-- R192, R193, R195: a poison-map update that is due: the words (catalog offsets), set or clear, the record to raise at its
end, and whether the write-buffer entry at the front retires with it. -/
structure MapDue where
  offs : List Nat
  poison : Bool
  report : Option ErrRec
  retires : Bool
  deriving DecidableEq, Repr

/-- The CAT controller, the scrubber and XRAM beside their registers (R181–R200). -/
structure CatSt where
  wb : List WbEnt := []
  /-- Bits in error of a word, by catalog offset / 8. -/
  ecc : Tab Nat := []
  /-- Bank 15 is powered by the CAT controller itself, to be let go at a gauge update (R195). -/
  hold15 : Bool := false
  /-- The summary has been lost and no rebuild has started since (R196). -/
  rebuildDue : Bool := true
  mapDue : List MapDue := []
  /-- Words the scrubber has read in this frame (R197). -/
  scrubbed : Nat := 0
  deriving DecidableEq, Repr

/-- A DMA place (R201–R204). -/
structure Place where
  busy : Bool := false
  started : Bool := false
  /-- The requester of instance 19 the transfer stands for: the core that wrote GO (R202). -/
  req : Nat := 0
  /-- One beat of a 16-byte block has been granted and not used (R204). -/
  half : Bool := false
  tag : Nat := 0
  count : Nat := 0
  desc : List Byte := []
  segs : List Seg := []
  tenant : Nat := 0
  ctx : Nat := 64
  tmode : Bool := false
  prio : Nat := 7
  moved : Nat := 0
  /-- The status the transfer ends with, once its last beat or the failing check has been reached. -/
  status : Option Nat := none
  /-- DIGEST: the chaining value so far, and the bytes of the block in hand. -/
  hash : List Nat := []
  acc : List Nat := []
  deriving DecidableEq, Repr

/-- A CRYPT operation in hand (R208): its tag and what its end brings: STATUS, the buffer, and a key slot's new content. -/
structure CryptOp where
  tag : Nat
  status : Nat
  buf : Option (List Byte)
  slot : Option (Nat × Option Nat)
  deriving DecidableEq, Repr

/-- CRYPT (R206–R208). -/
structure Crypt where
  keys : Tab (Option Nat) := []
  kek : Tab Nat := []
  kekWritten : Nat := 0
  buf : List Byte := List.replicate 512 0#8
  op : Option CryptOp := none
  count : Nat := 0
  signs : Nat := 0
  deriving DecidableEq, Repr

/-- One standing request: requester, beats remaining, priority at submission, tenant, and the context whose effective priority
governs it instead (R212). -/
structure ArbReq where
  k : Nat
  beats : Nat
  prio : Nat
  tenant : Option Nat
  ctx : Option Nat := none
  deriving DecidableEq, Repr

/-- An arbiter instance (R211–R219). -/
structure Arb where
  standing : List ArbReq := []
  waits : Tab Nat := []
  last : Nat := 0
  /-- At a spar bank: the last processor of rank 2, and the last requester of rank 3, that was granted (R171). -/
  turn : Nat := 0
  turn3 : Nat := 0
  /-- The burst in hand: winner and beats. -/
  burst : Option (Nat × Nat) := none
  deriving DecidableEq, Repr

/-- A cleat (R221–R231). -/
structure Cleat where
  value : Nat := 0
  holder : Option Nat := none
  lease : Nat := 0
  /-- L taken at acquisition (R231). -/
  load : Nat := 0
  deriving DecidableEq, Repr

/-- A wait record (R227–R230); `result` is set when it has completed while its context is away. -/
structure WaitRec where
  ctx : Nat
  cleat : Nat
  order : Nat
  ticks : Nat := 0
  result : Option Nat := none
  deriving DecidableEq, Repr

/-- LOCK (R221–R237). -/
structure LockSt where
  cleats : Tab Cleat := []
  waits : List WaitRec := []
  order : Nat := 0
  /-- The wait-cycle condition was found holding (R235). -/
  cycle : Bool := false
  deriving DecidableEq, Repr

/-- A reply formed and not yet sent (R247): STATUS, the 68 payload bits, and whether the bucket data came too late (R12). -/
structure SpReply where
  status : Nat
  payload : Nat
  late : Bool := false
  deriving DecidableEq, Repr

/-- A queued report (R258): its buffer, the fragments that have left, and the ticks since it was posted or since the last one
left (R259). -/
structure Rpt where
  buf : Nat
  sent : Nat := 0
  ticks : Nat := 0
  deriving DecidableEq, Repr

/-- SPINE and PROBE beside their registers (R240–R267). -/
structure Spine where
  /-- A probe excursion is in hand (R71, R252). -/
  exc : Bool := false
  /-- A start delimiter has been recognised in it. -/
  sdSeen : Bool := false
  /-- Catalog bank domains that PRB has powered and lets go at the end of the slot. -/
  banks : List Nat := []
  reply : Option SpReply := none
  reports : List Rpt := []
  /-- The ticket entry last allocated (R254). -/
  lastTicket : Nat := 255
  /-- Fragments stored, SEQ of the last one, and the length of a packet that is complete (R257). -/
  chunkN : Nat := 0
  chunkSeq : Nat := 0
  chunkDone : Option Nat := none
  /-- This frame's pair slot: the frame was sent, the exchange is complete; and the SEQ last accepted (R260, R261). -/
  pairSent : Bool := false
  pairDone : Bool := false
  pairSeq : Option Nat := none
  /-- HEAD_CONFLICT has stopped beaconing until HEAD is written (R262), and REPORT_BASE of the next beacon. -/
  headStop : Bool := false
  headBase : Nat := 0
  /-- A tick has passed in head mode, so the next one moves REPORT_BASE. -/
  headRun : Bool := false
  /-- The SPINE_UNDELIVERED record PRB holds while FAB is off (R259). -/
  undel : Option ErrRec := none
  /-- The last frame sent, from its SD on. -/
  tx : List Byte := []
  deriving DecidableEq, Repr

/-- A command packet that has passed the acceptance order (R276, R281): byte 4 as `tenant`, PRIO after its clamp, the entries its
acceptance made, and its place in the order of arrival. -/
structure Cmd where
  src : CmdSrc
  op : Nat
  tenant : Nat
  prio : Nat
  seq : Nat
  pcrc : Nat
  params : List Byte
  entries : List Nat := []
  order : Nat := 0
  deriving DecidableEq, Repr

/-- What an executing command waits for (R282): the shelf sequence, and its end with a status; gangs; a tenant's reset; the tries
of CLEAT_ACQUIRE that are due, with the tries made and LOCK_CNT.CYCLES at the start; an SFU job; a NOR operation (a program or
an erase); the steps of IMAGE_ACTIVATE; room in the catalog write buffer for the words left; table writes of a slot; the status
of its SFU job, which has ended; what it needs is busy, so that it tries again. -/
inductive CmdWait where
  | shelf (wake : Bool)
  | ended (status : Nat)
  | gangs (mask : Nat)
  | tenReset (t : Nat)
  | cleat (c tries cycles due : Nat)
  | sfu (tag : Nat)
  | nor (program : Bool)
  | image (copy stage : Nat) (record : List Byte)
  | catalog (rest : List (Nat × List Byte))
  | table (k : Nat)
  | jobStatus (word : Nat)
  | retry
  deriving DecidableEq, Repr

/-- R277: what is kept for a source: SEQ and PCRC of its last queued packet, that packet's reply, and whether it has ended. -/
structure Kept where
  src : CmdSrc
  seq : Nat
  pcrc : Nat
  reply : Option (List Byte) := none
  done : Bool := false
  deriving DecidableEq, Repr

/-- Cyntoux's command handling (R268–R291) and its private state. -/
structure Cyn where
  /-- Commands waiting to execute, at most 16 (R281), and the number of the next arrival. -/
  queue : List Cmd := []
  order : Nat := 0
  kept : List Kept := []
  /-- The UDP sources, most recently active first, at most 8 (R272). -/
  udp : List CmdSrc := []
  /-- Executing commands that wait. -/
  longs : List (Cmd × CmdWait) := []
  /-- The shelf sequence in hand: wake or sleep, and its stage (R15). -/
  seq : Option (Bool × Nat) := none
  /-- CMD_DROP (R276). -/
  drop : Nat := 0
  /-- Entries placed outside both their buckets (R185, R286): tenant, key, the 128-bit entry. -/
  overflow : List (Nat × Nat × Nat) := []
  /-- Spine replies that wait for a report buffer: TAG and packet. -/
  outbox : List (Nat × List Byte) := []
  /-- A WARM_RESET that waits for its reply to leave: REASON and the reply's TAG on the spine (R282). -/
  warm : Option (Nat × Option Nat) := none
  /-- Mailboxes whose packet has been taken since their last doorbell. -/
  taken : Nat := 0
  /-- STAMPs of the error records that have been delivered as LATE_ERROR events (R280, R358). -/
  lateSent : List Nat := []
  /-- The latest ADC codes held, by 2 × channel, + 1 for the source (R294). -/
  adcHeld : Tab Nat := []
  deriving DecidableEq, Repr

/-- What survives a warm reset and Reef 3 or FURL (R278, R283, R386): the overflow placement. -/
def Cyn.lose (c : Cyn) : Cyn := { overflow := c.overflow, drop := c.drop }
/-- A presence or fault input of a bay (R307–R309): the pin level last qualified, the changes of this frame, the ticks left of
a chatter mask, and the level qualified under the mask. -/
structure BayIn where
  level : Option Bool := none
  changes : Nat := 0
  masked : Option Nat := none
  raw : Option Bool := none
  deriving DecidableEq, Repr

/-- A bay channel (R295–R309). -/
structure BayCh where
  /-- Table 13-1 code. -/
  st : Nat := 0
  retriesLeft : Nat := 0
  trips : Nat := 0
  startReq : Bool := false
  stopReq : Bool := false
  /-- Latch edges left until the retry falls due (R300). -/
  backoff : Option Nat := none
  prs : BayIn := {}
  flt : BayIn := {}
  deriving DecidableEq, Repr

/-- A bay serial port (R310–R314). -/
structure BayuCh where
  rx : List Nat := []
  tx : List Nat := []
  /-- The character being shifted out. -/
  shifting : Option Nat := none
  head : Nat := 0
  deriving DecidableEq, Repr

/-- BAY and BAYU beside their registers. -/
structure Bay where
  ch : Tab BayCh := []
  port : Tab BayuCh := []
  /-- Queued start units, first to be admitted first (R303). -/
  units : List (List Nat) := []
  gangStart : Nat := 0
  gangStop : Nat := 0
  /-- The channel last named by a write to a BAY, and to a BAYU, channel register (R297). -/
  lastBay : Nat := 0
  lastBayu : Nat := 0
  deriving DecidableEq, Repr

/-- A converter (R322–R326): the entry in hand with its latched words, results made in it, conversions summed, and flags. -/
structure Conv where
  running : Bool := false
  /-- EN (or a locked member's EN) was cleared: the conversion in hand is the last (R324). -/
  stopping : Bool := false
  /-- Locked: the entry is finished and another member's is not (R325). -/
  waiting : Bool := false
  entry : Nat := 0
  w0 : Nat := 0
  w1 : Nat := 0
  results : Nat := 0
  sum : Nat := 0
  taken : Nat := 0
  unsettled : Bool := false
  /-- REF_OK when the conversion in hand began. -/
  beganOk : Bool := false
  /-- A conversion of the result in hand was made with the reference on: without one its CODE is 0 (R326). -/
  refOn : Bool := false
  lostBefore : Bool := false
  deriving DecidableEq, Repr

/-- ADC beside its registers. -/
structure Adc where
  conv : Tab Conv := []
  /-- Result words waiting, in the order they entered: converter, ring, word (R328). -/
  fifo : List (Nat × Nat × Nat) := []
  /-- DELAY staged for an entry (R322), by 64 × converter + entry. -/
  staged : Tab Nat := []
  refOk : Bool := false
  /-- The converter last named by a register write; 4 for a block-wide register (R324). -/
  last : Nat := 4
  deriving DecidableEq, Repr

/-- An SFU place (R335–R337): the job it holds, with the copied segments. -/
structure Job where
  busy : Bool := false
  started : Bool := false
  tag : Nat := 0
  count : Nat := 0
  desc : List Byte := []
  segs : List Seg := []
  tenant : Nat := 0
  ctx : Nat := 64
  tmode : Bool := false
  prio : Nat := 7
  ticks : Nat := 0
  deriving DecidableEq, Repr

/-- A NOR operation in hand (R378–R381): Table 17-6 state, OP, start offset, bytes to program, AND_PROGRAM. -/
structure NorOp where
  state : Nat := 0
  op : Nat := 0
  addr : Nat := 0
  data : List Byte := []
  and : Bool := false
  deriving DecidableEq, Repr

/-- Start-up (R366–R389). -/
structure Boot where
  /-- A warm reset is due: WARM_SRC and REASON. -/
  warmDue : Option (Nat × Nat) := none
  /-- A warm reset is in progress. -/
  inReset : Bool := false
  rstLow : Bool := false
  /-- BOOT1:BOOT0 and STRAP1:STRAP0 balls. -/
  bootBalls : Nat := 0
  strapBalls : Nat := 0
  /-- RSTOUT_N and WDT_OUT_N read low. -/
  rstOutLow : Bool := true
  wdtLow : Bool := false
  /-- ROM's configuration data: tenant and block pairs of s7 grants. -/
  grants : List (Nat × Nat) := []
  /-- VERSION of the image that runs. -/
  version : Nat := 0
  recLocked : Bool := false
  nor : NorOp := {}
  /-- A start with CAUSE 0 or 1, or one on the warm path, is in hand; Cyntoux accepts commands (R366, R370, R13). -/
  starting : Bool := true
  accepting : Bool := false
  /-- ROM has left the warm path for a full boot (R387). -/
  full : Bool := false
  /-- The digest of the image that runs (R289), and the configuration image's CRC (R384). -/
  digest : List Byte := List.replicate 32 0#8
  configCrc : Nat := 0
  /-- Cyntoux's copy of the key-encryption key of the configuration image (R207, R377). -/
  kek : Option (List Byte) := none
  deriving DecidableEq, Repr

/-- R8, R400: the JTAG IDCODE: revision A1 in [31:28], PART in [27:12], Hokudra's manufacturer identity in [11:1], and 1. -/
def idcode : Nat := 0x1 * 2 ^ 28 + 0xEB64 * 2 ^ 12 + 0x4D7 * 2 + 1

/-- The JTAG TAP (R400): the instruction in force, what the data register it selects has captured, the boundary cells preloaded, those
last sampled, and whether the balls are driven from the cells or in high impedance. IDCODE is selected after reset. -/
structure Tap where
  ir : Nat := 2
  dr : Nat := idcode
  cells : Nat := 0
  sampled : Nat := 0
  drive : Bool := false
  hiz : Bool := false
  deriving DecidableEq, Repr

/-- R406: which I/O rings are supplied: VIO33, VIO18, and VBAYIO of each bay group. No command changes a supply (log entry 156). -/
structure IoRings where
  vio33 : Bool := true
  vio18 : Bool := true
  vbayio : Nat := 255
  deriving DecidableEq, Repr

/-- R396: what the pads of domain 05 last drove: GPIO_DIR, _OUT and _PULL, a bit for each pin, FAN_EN and SHELF_INT_N. -/
structure PadHold where
  dir : Nat
  out : Nat
  pull : Nat
  fan : Nat
  int : Bool
  deriving DecidableEq, Repr

/-- The service ports (R390–R402). -/
structure Serv where
  io : IoRings := {}
  /-- While domain 05 is off with its registers lost: what its pads hold (R396). -/
  held : Option PadHold := none
  /-- PSU_PG, qualified (R397); PSU_ALERT_N asserted; the level of the ball PSU_EN. -/
  pg : Bool := false
  alert : Bool := false
  psuBall : Bool := false
  /-- Ticks since Cyntoux set PSU_EN, while it waits for PSU_PG (R398). -/
  pgWait : Option Nat := none
  /-- GPIO input levels and GPIO_EVENT, a bit for each pin (R396). -/
  gpioIn : Nat := 0
  gpioEvent : Nat := 0
  /-- FAN_TACH falling edges of the frame in progress, and SHELF_TACH0–3 (R397). -/
  tachNow : Tab Nat := []
  tach : Tab Nat := []
  /-- SHELF_LED0–1 and the 64 bits last shifted out (R397). -/
  led : Nat := 0
  ledOut : Option Nat := none
  /-- Console receive buffers, oldest byte first; 256 marks where bytes have been lost (R395). -/
  cons : Tab (List Nat) := []
  /-- The receivers that run, a bit for each port (R274). -/
  consRx : Nat := 0
  /-- The last SLIP frame sent by each console port, and the last Ethernet frame by each SGMII port (R274, R393). -/
  consOut : Tab (List Byte) := []
  ethOut : Tab (List Byte) := []
  /-- Datagrams that an SGMII port holds for Cyntoux, oldest first: the port and its frame (R125, R392). -/
  dgrams : List (Nat × List Byte) := []
  tap : Tap := {}
  /-- Debug unlock (R401). -/
  unlocked : Bool := false
  challenge : Option (List Byte) := none
  unlockFails : Nat := 0
  /-- Trace FIFO words with TRC_CTL as bit 16, and the packets dropped (R402). -/
  trace : List Nat := []
  traceDropped : Nat := 0
  deriving DecidableEq, Repr

/-- The machine. -/
structure State where
  /-- Commands waiting, first in, first out. -/
  pending : List Instr
  /-- The model's own: the index of the next free value. -/
  fresh : Nat
  regs : Tab Nat
  /-- Pending FRAME values (R20). -/
  shadow : Tab (Option Nat)
  crossing : List Crossing
  rings : Tab Ring
  gring : Ring
  dom : Tab DomSt
  mem : Tab Byte
  harv : Harv
  pmu : Pmu
  pins : Tab Pin
  clk : ClkSt
  rtc : Rtc
  err : Err
  cores : Tab Core
  /-- CC edge interrupts pending (R125). -/
  irqEdge : Nat
  slots : Tab Slot
  ten : Ten
  cat : CatSt
  dma : Tab Place
  crypt : Crypt
  arbs : Tab Arb
  lock : LockSt
  spine : Spine
  cyn : Cyn
  bay : Bay
  adc : Adc
  sfu : Tab Job
  /-- Writes to table memory that wait for a job to end (R347): address and word. -/
  tabWait : List (Nat × Nat)
  boot : Boot
  serv : Serv
  deriving DecidableEq, Repr

/-- R366, R58: the domains that a power-on switches on: the always-on ones and the reset wake set. -/
def startDomains : List Nat :=
  [0, 1, 2, 3, 4, 5, 6, 68] ++ (List.range 25).map (· + 7) ++ (List.range 12).map (· + 32) ++
    [46, 47, 48, 49, 50, 51, 52, 53] ++ [65, 66, 67]

/-- R40, R366, R58: the machine right after the release of AON power-on reset of a new part started from EMPTY: every register
at its reset value (HARV_EVENT shows START_EMPTY, CLK_STAT shows the tick source SIRC), the domains of the reset PMU_DOM_ON
and the always-on ones switched on and not yet released, memory with nothing listed. -/
def State.reset : State where
    pending := []
    fresh := 0
    regs := Tab.set regReset (Tab.set regReset [] (fk 0x40001044 0) 1) (fk 0x40002040 4) 1
    shadow := []
    crossing := []
    rings := []
    gring := {}
    dom := startDomains.foldl (fun t d => Tab.set (fun _ => .off) t d .rising) []
    mem := []
    harv := {}
    pmu := {}
    pins := []
    clk := {}
    rtc := {}
    err := {}
    cores := []
    irqEdge := 0
    slots := []
    ten := {}
    cat := {}
    dma := []
    crypt := {}
    arbs := []
    lock := {}
    spine := {}
    cyn := {}
    bay := {}
    adc := {}
    sfu := []
    tabWait := []
    boot := {}
    serv := {}

end Sys2Proof.Machine
end

