-- ==== Sys2Proof/Machine/Ops.lean ====
section
/-! DEFINITION. The named operations every meaning is built from: registers, free values, memory, clamp reports, domains,
halyard events, interrupts and error records. A block has no exception entry of its own; the cores' trap entry (R123) and its
return (R126) stand in Cores.lean. -/
namespace Sys2Proof.Machine

/-- What every meaning of this model answers: a next state. -/
abbrev Out := Host.Outcome State Fault Refusal

/-! ### Registers -/

/-- A field's value in effect. -/
def State.reg (s : State) (k : Key) : Nat := Tab.get regReset s.regs k

/-- Set a field's value in effect. -/
def State.setReg (s : State) (k : Key) (v : Nat) : State := { s with regs := Tab.set regReset s.regs k v }

/-- A one-bit field. -/
def State.flag (s : State) (k : Key) : Bool := s.reg k == 1

/-- Set a one-bit field. -/
def State.setFlag (s : State) (k : Key) (b : Bool) : State := s.setReg k (ofBool b)

/-- A counter of `w` bits that saturates. -/
def State.count (s : State) (k : Key) (w n : Nat) : State := s.setReg k (satAdd w (s.reg k) n)

/-- The value of a pending FRAME write. -/
def State.pendingVal (s : State) (k : Key) : Option Nat := Tab.get (fun _ => none) s.shadow k

/-- The last value that a crossing write brings to a field. -/
def State.crossingVal (s : State) (k : Key) : Option Nat :=
  s.crossing.foldl (fun a c => (c.writes.find? (fun w => w.1 == k)).elim a (fun w => some w.2)) none

/-- R28: the value last written: one still crossing into XT1, which is younger than any shadow of its field, else the pending
one, otherwise the value in effect. -/
def State.last (s : State) (k : Key) : Nat :=
  ((s.crossingVal k).orElse (fun _ => s.pendingVal k)).getD (s.reg k)

/-- R20: a FRAME write goes into the field's shadow. -/
def State.setShadow (s : State) (k : Key) (v : Option Nat) : State :=
  { s with shadow := Tab.set (fun _ => none) s.shadow k v }

/-! ### Free values -/

/-- A fresh free value of `w` bits: the step supplies it, nothing constrains it. -/
def State.freeBits (s : State) (w : Nat) : Nat × State :=
  ((Config.freeValue s.fresh).toNat % 2 ^ w, { s with fresh := s.fresh + 1 })

/-- `n` fresh free bytes. -/
def State.freeBytes (s : State) : Nat → List Byte × State
  | 0 => ([], s)
  | n + 1 => (BitVec.ofNat 8 (s.freeBits 8).1 :: ((s.freeBits 8).2.freeBytes n).1, ((s.freeBits 8).2.freeBytes n).2)

/-! ### Memory -/

/-- R170, R118: what a physical address selects. -/
inductive Region where
  | rom | nor | spar (n : Nat) | xram | pcache | cat (b : Nat) | regs | cleat (c : Nat) | table | unmapped
  deriving DecidableEq, Repr

/-- Table 9-1, Table 15-6, R221, R374, R118: the region of an address. -/
def regionOf (a : Nat) : Region :=
  if a < 0x20000 then .rom
  else if 0x01000000 ≤ a ∧ a < 0x01800000 then .nor
  else if 0x10000000 ≤ a ∧ a < 0x10800000 then .spar ((a - 0x10000000) / 0x80000)
  else if 0x11000000 ≤ a ∧ a < 0x11010000 then .xram
  else if 0x12000000 ≤ a ∧ a < 0x12010000 then .pcache
  else if 0x20000000 ≤ a ∧ a < 0x24000000 then .cat ((a - 0x20000000) / 0x400000)
  else if 0x40000000 ≤ a ∧ a < 0x50000000 then (if (blockOf a).isSome then .regs else .unmapped)
  else if 0x50000000 ≤ a ∧ a < 0x50001000 then .cleat ((a - 0x50000000) / 16)
  else if 0x60000000 ≤ a ∧ a < 0x60010000 then .table
  else .unmapped

/-- What an unlisted byte reads as: ROM its fixed content, NOR erased (0xFF), everything else 0. -/
def memDefault (a : Nat) : Byte :=
  match regionOf a with
  | .rom => Config.romByte a
  | .nor => 0xFF#8
  | _ => 0#8

/-- One byte of memory. -/
def State.rd (s : State) (a : Nat) : Byte := Tab.get memDefault s.mem a

/-- Write one byte of memory. -/
def State.wr (s : State) (a : Nat) (b : Byte) : State := { s with mem := Tab.set memDefault s.mem a b }

/-- `n` bytes of memory from an address. -/
def State.rdBytes (s : State) (a n : Nat) : List Byte := (List.range n).map (fun i => s.rd (a + i))

/-- Write bytes to memory from an address. -/
def State.wrBytes (s : State) (a : Nat) : List Byte → State
  | [] => s
  | b :: t => (s.wr a b).wrBytes (a + 1) t

/-- R2: a little-endian number of `n` bytes. -/
def State.rdLe (s : State) (a n : Nat) : Nat := ofLe (s.rdBytes a n)

/-- R2: write a little-endian number of `n` bytes. -/
def State.wrLe (s : State) (a n v : Nat) : State := s.wrBytes a (leBytes v n)

/-! ### Domains -/

/-- A domain's state. -/
def State.domSt (s : State) (d : Nat) : DomSt := Tab.get (fun _ => .off) s.dom d

/-- Set a domain's state. -/
def State.setDom (s : State) (d : Nat) (x : DomSt) : State := { s with dom := Tab.set (fun _ => .off) s.dom d x }

/-- A domain is released. -/
def State.isUp (s : State) (d : Nat) : Bool := s.domSt d == .up

/-- AON is powered: the load switch is closed and AON is out of power-on reset. -/
def State.aon (s : State) : Bool := (s.harv.st == .harvest || s.harv.st == .standby) && !s.harv.por

/-- Table 1-4: the domains of a block; an empty list for AON and BKP. -/
def blockDoms (b : Nat) : List Nat :=
  match b with
  | 0x04 => [4]
  | 0x05 | 0x07 | 0x08 | 0x12 | 0x14 | 0x15 => [5]
  | 0x06 => [48]
  | 0x09 => [44]
  | 0x0A => [0, 3]
  | 0x0B => [1, 2]
  | 0x0C => [63]
  | 0x0D => [64]
  | 0x0E => [47]
  | 0x0F => [46]
  | 0x10 => [50, 51, 52, 53, 54]
  | 0x13 => [69]
  | 0x16 => [49]
  | 0x1B => [45]
  | 0x1C => [27]
  | 0x19 => [6]
  | 0x1A => [7, 8, 9, 10]
  | 0x17 | 0x18 => [55, 56, 57, 58, 59, 60, 61, 62]
  | _ => []

/-- R17: a block answers while one of its domains is released (AON and BKP blocks while AON is powered). -/
def State.blockOn (s : State) (b : Nat) : Bool :=
  s.aon && (blockDoms b == [] || (blockDoms b).any s.isUp)

/-- R17, R118: an access to a register address is a bus error only where its block's domains are all off: a register of one
converter, core or bay group answers while any domain of its block is released (log entry 19). -/
def State.addrOn (s : State) (a : Nat) : Bool := (blockOf a).elim false s.blockOn

/-- A register is powered: its block answers, and the converter, core or bay group that holds it is released. An access to one
that is not, in a block that answers, is no bus error: it reads its reset value and a write to it holds nothing (log entry 19). -/
def State.regOn (s : State) (a : Nat) : Bool :=
  match blockOf a with
  | none => false
  | some b =>
    let o := a - blockBase b
    s.blockOn b &&
      (if b = 0x10 && decide (0x020 ≤ o ∧ o < 0x060) then s.isUp (50 + (o - 0x20) / 0x10)
       else if b = 0x10 && decide (0x400 ≤ o ∧ o < 0xC00) then s.isUp (50 + (o - 0x400) / 0x200)
       else if b = 0x1A && decide (o < 0x400) then s.isUp (7 + o / 0x100)
       else if (b = 0x17 || b = 0x18) && decide (o < 0x8000) then s.isUp (55 + o / 0x1000)
       else true)

/-- R170: the memory region of an address is powered. -/
def State.regionOn (s : State) (r : Region) : Bool :=
  match r with
  | .rom => true
  | .nor => s.isUp 44
  | .spar n => s.isUp (11 + n)
  | .xram => s.isUp 27
  | .pcache => s.isUp 2
  | .cat b => s.isUp (28 + b)
  | .regs => true
  | .cleat _ => s.isUp 48
  | .table => s.isUp 46
  | .unmapped => false

/-! ### The clamp report (R29–R31) -/

/-- Add an entry to a ring of `size` slots whose LOST saturates at `w` bits. -/
def Ring.push (size w : Nat) (r : Ring) (e : Nat) : Ring where
  slots := Tab.set (fun _ => 0) r.slots r.next e
  valid := min (r.valid + 1) size
  next := (r.next + 1) % size
  lost := if r.valid = size then satAdd w r.lost 1 else r.lost

/-- A block's ring. -/
def State.ring (s : State) (b : Nat) : Ring := Tab.get (fun _ => {}) s.rings b

/-- Set a block's ring. -/
def State.setRing (s : State) (b : Nat) (r : Ring) : State := { s with rings := Tab.set (fun _ => {}) s.rings b r }

/-- R31: an entry goes into the owning block's ring and into the global ring. -/
def State.report (s : State) (b e : Nat) : State :=
  { s.setRing b (Ring.push 8 8 (s.ring b) e) with gring := Ring.push 64 14 s.gring e }

/-- Table 2-2: an entry. -/
def rptEntry (field action value : Nat) : Nat := field % 65536 * 65536 + action * 4096 + value % 4096

/-! ### Named fields that several families use -/

/-- HARV_STAT bit `i` (Table 3-5). -/
def kHarvStat (i : Nat) : Key := fk 0x40001040 i
/-- HARV_EVENT bit `i`. -/
def kHarvEvent (i : Nat) : Key := fk 0x40001044 i
def kAllow : Key := fk 0x4000108C 0
def kVstore : Key := fk 0x40001090 0
def kStamp : Key := fk 0x40001094 0
def kEnergy : Key := fk 0x40001080 0
def kCut : Key := fk 0x40001014 0
def kRearm : Key := fk 0x40001014 10
def kFull : Key := fk 0x40001014 20
/-- PMU_REEF_STAT fields (Table 4-6). -/
def kLevel : Key := fk 0x40000040 0
def kPhase : Key := fk 0x40000040 4
def kForced : Key := fk 0x40000040 6
def kRefuse : Key := fk 0x40000040 8
def kReefReq : Key := fk 0x40000010 0
def kHalStat : Key := fk 0x40000048 0
def kHalEn : Key := fk 0x4000004C 0
def kHalWake : Key := fk 0x40000050 0
def kWakeCause : Key := fk 0x40000044 0
/-- CLK_STAT bit `i` (Table 5-5). -/
def kClkStat (i : Nat) : Key := fk 0x40002040 i
def kClkEvent (i : Nat) : Key := fk 0x40002044 i
def kFrameNum : Key := fk 0x40004010 0
def kFrameStat (i : Nat) : Key := fk 0x4000401C i
def kFrameEvent (i : Nat) : Key := fk 0x40004020 i
def kAge : Key := fk 0x4000401C 2
def kRtcStat (i : Nat) : Key := fk 0x40003040 i
def kRtcEvent (i : Nat) : Key := fk 0x40003044 i

/-- GAUGE_ALLOW in force (R53). -/
def State.allow (s : State) : Nat := s.reg kAllow
/-- VSTBY_OK. -/
def State.vstbyOk (s : State) : Bool := s.flag (kHarvStat 0)
/-- STORE_LOW is active (R48). -/
def State.storeLow (s : State) : Bool := s.flag (kHarvStat 3)
/-- FRAME_NUM. -/
def State.frameNum (s : State) : Nat := s.reg kFrameNum

/-! ### Interrupts of the control core (R125) -/

/-- R61: the clocks resume and the level returns to SAIL. -/
def State.reef1Leave (s : State) : State := if s.reg kLevel = 1 then s.setReg kLevel 0 else s

/-- An edge source of Table 7-11 becomes pending; one that is enabled at the CC leaves Reef 1 (R61). -/
def State.irq (s : State) (n : Nat) : State :=
  let s1 : State := { s with irqEdge := setBit s.irqEdge n true }
  if bit (s1.reg (fk 0x40019024 0)) n then s1.reef1Leave else s1

/-! ### Halyard events (R67) -/

/-- Table 4-4: the events that can wake from a level (2 Reef 2, 3 Reef 3, 4 FURL), one bit each. -/
def canWake (level : Nat) : Nat :=
  match level with
  | 2 | 3 => 0x1FEF
  | 4 => 0x0607
  | _ => 0

/-- The level an event is judged against: the one being entered, else the one in force (R72). -/
def State.wakeLevel (s : State) : Nat := s.pmu.entry.getD (s.reg kLevel)

/-- R67: an event sets its PMU_HAL_STAT bit; one enabled in PMU_HAL_EN leaves Reef 1 (R61); one enabled in PMU_HAL_WAKE that can
wake from the level is kept for the wake, but for one that comes during a full wake (R72). -/
def State.halyard (s : State) (i : Nat) : State :=
  if !s.aon then s else
  let s1 := s.setReg kHalStat (setBit (s.reg kHalStat) i true)
  let s2 : State := if bit (s.reg kHalEn) i then s1.reef1Leave else s1
  if bit (s.reg kHalWake) i && bit (canWake s.wakeLevel) i && s.reg kPhase != 2
  then { s2 with pmu := { s2.pmu with wakeEv := setBit s2.pmu.wakeEv i true } } else s2

/-- R401: the Ebzin is debug-locked, which the ball DBG_LOCK shows. -/
def State.debugLocked (s : State) : Bool := Config.debugFuseBlown && !s.serv.unlocked

/-! ### Error records (R353–R364) -/

/-- The slot of the i-th record of the queue, oldest first. -/
def Err.slotAt (e : Err) (i : Nat) : Nat := (e.head + i) % 32
/-- The record in a slot. -/
def Err.recIn (e : Err) (sl : Nat) : ErrRec := Tab.get (fun _ => {}) e.slots sl
/-- The i-th record of the queue, oldest first. -/
def Err.recAt (e : Err) (i : Nat) : ErrRec := e.recIn (e.slotAt i)
/-- Replace the i-th record. -/
def Err.setAt (e : Err) (i : Nat) (r : ErrRec) : Err := { e with slots := Tab.set (fun _ => {}) e.slots (e.slotAt i) r }

/-- R359: with IRQ_EN = 1 and ERR_ACTIVE = 0, a record at the cursor interrupts the CC and sets ERR_ACTIVE. -/
def State.errKick (s : State) : State :=
  if s.flag (fk 0x40014000 0) && !s.err.active && decide (s.err.handled < s.err.count)
  then { s with err := { s.err with active := true } } else s

/-- R363, R364: a record enters, merges or is dropped. `n` is its number among its source's records of the frame. -/
def Err.enter (e : Err) (r : ErrRec) (n : Nat) : Err :=
  let merge := (List.range e.count).find? (fun i =>
    let q := e.recAt i
    q.coal && q.frame == r.frame && q.source == r.source && q.cls == r.cls && q.code == r.code && q.tenant == r.tenant)
  let late := decide (r.cls ≤ 1) && decide (8 < n)
  match late, merge with
  | true, some i => e.setAt i { e.recAt i with count := satAdd 8 (e.recAt i).count 1 }
  | _, _ =>
    if e.count < 32 then { e.setAt e.count { r with coal := late } with count := e.count + 1 }
    else { e with lost := satAdd 16 e.lost 1 }

/-- R362: a DEVICE_FATAL record is copied into ERR_KEEP and leads to a warm reset, at once or at its ERR_DONE or second latch
edge. -/
def State.errFatal (s : State) (r : ErrRec) : State :=
  let now := s.err.active || r.source == 0x19 || s.err.fatal.isSome
  let e := if s.err.fatal.isSome then s.err
    else { s.err with keep := some r, fatalResets := satAdd 8 s.err.fatalResets 1, keepValid := true, fatal := some (r.stamp, 0) }
  if now then { s with err := e, boot := { s.boot with warmDue := some (s.boot.warmDue.getD (3, 0)) } } else { s with err := e }

/-- R357: a record is raised. While FAB is off only a CLK record has a way in later. -/
def State.raise (s : State) (r : ErrRec) : State :=
  if !s.isUp 5 then
    if r.source = 2 then { s with err := { s.err with clkHeld := setBit s.err.clkHeld (r.detail.headD 0) true } } else s
  else
    let n := Tab.get (fun _ => 0) s.err.perSource r.source + 1
    let r' := { r with frame := s.frameNum, stamp := s.err.stamp, count := 1 }
    let e := { s.err with stamp := (s.err.stamp + 1) % 4294967296, perSource := Tab.set (fun _ => 0) s.err.perSource r.source n }
    let s1 := { s with err := e }
    let s2 := if r.cls = 3 then s1.errFatal r' else s1
    ({ s2 with err := s2.err.enter r' n } : State).errKick

/-- R360: removes up to `n` handled records from the oldest. -/
def Err.pop (e : Err) (n : Nat) : Err :=
  let k := min n e.handled
  { e with head := (e.head + k) % 32, count := e.count - k, handled := e.handled - k, popped := k }

/-! ### Cores, slots and tenants -/

/-- Core 0 is the CC, cores 1 to 4 are TC0 to TC3. -/
def State.core (s : State) (c : Nat) : Core := Tab.get (fun _ => {}) s.cores c
def State.setCore (s : State) (c : Nat) (x : Core) : State := { s with cores := Tab.set (fun _ => {}) s.cores c x }
def State.slot (s : State) (n : Nat) : Slot := Tab.get (fun _ => {}) s.slots n
def State.setSlot (s : State) (n : Nat) (x : Slot) : State := { s with slots := Tab.set (fun _ => {}) s.slots n x }
/-- The FRAME_SLOTn_CFG fields in effect (Table 8-9). -/
def State.slotTenant (s : State) (n : Nat) : Nat := s.reg (fk (0x40004100 + 0x10 * n) 0)
def State.slotCores (s : State) (n : Nat) : Nat := s.reg (fk (0x40004100 + 0x10 * n) 8)
def State.slotPrio (s : State) (n : Nat) : Nat := s.reg (fk (0x40004100 + 0x10 * n) 12)
def State.slotEn (s : State) (n : Nat) : Bool := s.flag (fk (0x40004100 + 0x10 * n) 15)
def State.slotBudget (s : State) (n : Nat) : Nat := s.reg (fk (0x40004104 + 0x10 * n) 0)
/-- A tenant's state of Table 8-6. -/
def State.tenState (s : State) (t : Nat) : Nat := Tab.get (fun _ => 0) s.ten.state t
def State.setTenState (s : State) (t v : Nat) : State := { s with ten := { s.ten with state := Tab.set (fun _ => 0) s.ten.state t v } }
/-- R161: a tenant's CRYPT key slot is loaded. -/
def State.keyLoaded (s : State) (t : Nat) : Bool := s.isUp 49 && (Tab.get (fun _ => none) s.crypt.keys t).isSome
/-- The tenant being reset (R165). -/
def State.resetting (s : State) (t : Nat) : Bool := s.tenState t == 3
/-- R223: the tenant of a context: its slot's, or 0 for the CC (64). -/
def State.ctxTenant (s : State) (ctx : Nat) : Nat := if ctx = 64 then 0 else s.slotTenant ctx
/-- R189, R223: the tenant's tag that a request of a context carries; the control core's carry none, so a tenant's reset fences
none of them (log entry 146). -/
def State.tagOf (s : State) (ctx : Nat) : Option Nat := if ctx = 64 then none else some (s.slotTenant ctx)
/-- R165: requests of a context are refused by the fence of its tenant's reset. -/
def State.fenced (s : State) (ctx : Nat) : Bool := (s.tagOf ctx).elim false s.resetting
/-- R223: the context on a core. -/
def State.ctxOf (s : State) (c : Nat) : Nat := if c = 0 then 64 else (s.core c).slot.getD 64

/-! ### Cleats and effective priorities (R157, R221, R232) -/

def State.cleat (s : State) (c : Nat) : Cleat := Tab.get (fun _ => {}) s.lock.cleats c
def State.setCleat (s : State) (c : Nat) (x : Cleat) : State :=
  { s with lock := { s.lock with cleats := Tab.set (fun _ => {}) s.lock.cleats c x } }

/-- R157, R232: a context's effective priority; `fuel` bounds the length of a chain of waits. The CC carries 7 (R212) and
inherits nothing. -/
def State.effPrioN (s : State) : Nat → Nat → Nat
  | 0, ctx => if ctx = 64 then 7 else s.slotPrio ctx
  | n + 1, ctx =>
    if ctx = 64 then 7 else
    (s.lock.waits.filter (fun w => w.result.isNone && (s.cleat w.cleat).holder == some ctx)).foldl
      (fun p w => max p (s.effPrioN n w.ctx)) (s.slotPrio ctx)

def State.effPrio (s : State) (ctx : Nat) : Nat := s.effPrioN 65 ctx

end Sys2Proof.Machine
end

