-- ==== Sys2Proof/Machine/Arb.lean ====
section
/-! DEFINITION. The shared arbiter (R211–R220, R426) and the spar banks' arbiters (R171–R173). Instances 0 to 19 are those of
Table 10-1; instance 20 + n is the arbiter of spar bank n, whose requesters are numbered by owner code, with 9 the snoop hub
and 10 FRAME (log entry 20). An access that a command makes to a catalog bank, to SPTX, to CRYPT's cipher or by a ring move is
asked for and granted within that command by `State.useArb`; it does not come about while its instance grants it nothing (log
entry 141). -/
namespace Sys2Proof.Machine

def State.arb (s : State) (i : Nat) : Arb := Tab.get (fun _ => {}) s.arbs i
def State.setArb (s : State) (i : Nat) (a : Arb) : State := { s with arbs := Tab.set (fun _ => {}) s.arbs i a }

/-- Table 10-1: the class of a requester. -/
def arbClass (i k : Nat) : Nat :=
  if i < 16 then (if k = 0 then 0 else if k ≤ 2 then 1 else if k = 10 then 3 else 2)
  else if i = 16 then (if k ≤ 1 then 0 else 2)
  else if i = 17 then 2
  else if i = 18 then (if k = 0 then 1 else 2)
  else (if k ≤ 1 then 1 else 2)

/-- R214 key 1: the requester is PRB. -/
def arbIsPrb (i k : Nat) : Bool := if i < 16 then k = 0 else i = 16 && k = 1

/-- R215: the domains of a requester. -/
def arbReqDoms (i k : Nat) : List Nat :=
  if i < 16 then [[1], [5], [5], [6], [7], [8], [9], [10], [47], [49], [45]].getD k []
  else if i = 16 then [[0], [1], [2], [2]].getD k []
  else if i = 17 then [[6], [7], [8], [9], [10], [47]].getD k []
  else if i = 18 then [[5], [6], [47]].getD k []
  else if i = 19 then [[50, 51, 52, 53], [55, 56, 57, 58, 59, 60, 61, 62], [6], [7], [8], [9], [10]].getD k []
  else [[6], [7], [8], [9], [10], [47], [46], [1], [49], [5], [4]].getD k []

/-- R426: an ARB field as the decision logic uses it: at its reset value while FAB is off. -/
def State.arbReg (s : State) (k : Key) : Nat := if s.isUp 5 then s.reg k else regReset k
def kArb (i o lo : Nat) : Key := fk (0x40005000 + 0x20 * i + o) lo
/-- The LIMIT of requester k. -/
def State.arbLimit (s : State) (i k : Nat) : Nat := s.arbReg (kArb i (4 + 4 * (k / 4)) (8 * (k % 4)))
def State.burstMax (s : State) (i : Nat) : Nat := s.arbReg (kArb i 0 8)
/-- R219: FREEZE, or an entry sequence. -/
def State.arbFreeze (s : State) (i : Nat) : Bool := decide (i < 20) && s.arbReg (kArb i 0 0) == 1
def State.arbFrozen (s : State) (i : Nat) : Bool := s.arbFreeze i || s.reg kPhase == 1

/-- R212: the priority of a standing class-2 request: its context's effective priority, or the submitter's at submission. -/
def State.arbPrio (s : State) (r : ArbReq) : Nat := r.ctx.elim r.prio s.effPrio

/-- R219: the standing requests that may be granted now. -/
def State.eligible (s : State) (i : Nat) : List ArbReq :=
  let a := (s.arb i).standing
  if s.arbFreeze i then [] else if s.reg kPhase = 1 && i < 20 then a.filter (fun r => decide (arbClass i r.k ≤ 1)) else a

def Arb.wait (a : Arb) (k : Nat) : Nat := Tab.get (fun _ => 0) a.waits k

/-- R214: the sort key of a request, smaller wins: PRB; forced with the higher count; class; priority; wait count; round
robin. -/
def State.arbKey (s : State) (i : Nat) (r : ArbReq) : List Nat :=
  let a := s.arb i
  let w := a.wait r.k
  let n := arbLastReq i + 1
  let rr := (r.k + 2 * n - a.last - 1) % n
  if arbIsPrb i r.k then [0]
  else if s.arbLimit i r.k ≤ w then [1, 255 - w, r.k]
  else
    let c := arbClass i r.k
    [2, c, (if c = 2 then 7 - s.arbPrio r else 0), 255 - w, rr]

/-- R171: the owner code of spar bank n in effect. -/
def State.sparOwner (s : State) (n : Nat) : Nat := s.reg (fk (0x40007000 + 4 * (n / 8)) (4 * (n % 8)))

/-- R171: a requester's rank at a spar bank: the owner; the snoop hub and the other processors; DMA and FRAME. -/
def State.sparRank (s : State) (i k : Nat) : Nat :=
  if k = s.sparOwner (i - 20) then 1 else if k = 5 || k = 10 then 3 else 2

/-- R171: the sort key at a spar bank: the rank, the snoop hub before the processors, then round robin from the last one of
that rank. -/
def State.sparKey (s : State) (i : Nat) (r : ArbReq) : List Nat :=
  let a := s.arb i
  let rk := s.sparRank i r.k
  let rr := fun l => (r.k + 22 - l - 1) % 11
  if rk = 1 then [1] else if rk = 3 then [3, rr a.turn3] else if r.k = 9 then [2, 0] else [2, 1, rr a.turn]

def State.reqKey (s : State) (i : Nat) (r : ArbReq) : List Nat := if i < 20 then s.arbKey i r else s.sparKey i r

/-- Lexicographic order of keys. -/
def keyLess : List Nat → List Nat → Bool
  | [], [] => false
  | [], _ :: _ => true
  | _ :: _, [] => false
  | a :: x, b :: y => decide (a < b) || (a == b && keyLess x y)

/-- The winner among requests. -/
def State.arbWinner (s : State) (i : Nat) (l : List ArbReq) : Option ArbReq :=
  l.foldl (fun best r => match best with
    | none => some r
    | some b => if keyLess (s.reqKey i r) (s.reqKey i b) then some r else some b) none

/-- R213–R216: the decision for the next grant; the burst in hand ends where the new one starts. -/
def State.arbDecide (s : State) (i : Nat) : State :=
  let a := s.arb i
  let l := s.eligible i
  match s.arbWinner i l with
  | none => s.setArb i { a with burst := none }
  | some w =>
    let b := if i < 20 then min w.beats (s.burstMax i) else w.beats
    let left := (a.standing.filter (fun r => r.k != w.k)) ++ (if b < w.beats then [{ w with beats := w.beats - b }] else [])
    let losers := l.filter (fun r => r.k != w.k)
    let waits := losers.foldl (fun t r =>
      Tab.set (fun _ => 0) t r.k (if i < 20 then satAdd 8 (Tab.get (fun _ => 0) t r.k) 1 else Tab.get (fun _ => 0) t r.k + b)) a.waits
    let rk := s.sparRank i w.k
    let s1 : State := s.setArb i { standing := left, waits := Tab.set (fun _ => 0) waits w.k 0, last := w.k, burst := some (w.k, b),
                                   turn := if 20 ≤ i && rk = 2 && w.k != 9 then w.k else a.turn,
                                   turn3 := if 20 ≤ i && rk = 3 then w.k else a.turn3 }
    if i < 20 then
      (if !arbIsPrb i w.k && decide (s.arbLimit i w.k ≤ a.wait w.k) && s.isUp 5 then s1.count (kArb i 0x14 0) 16 1 else s1)
    else
      let k := fk (0x40007040 + 4 * (i - 20)) 0
      let s2 : State := if rk = 3 then s1.setReg k (min 65535 (max (s1.reg k) (a.wait w.k))) else s1
      if 2 ≤ l.length then s2.count (fk (0x40007040 + 4 * (i - 20)) 16) 16 1 else s2

/-- R426: an instance's decision logic is powered. -/
def State.arbOn (s : State) (i : Nat) : Bool :=
  if i < 16 then s.isUp (28 + i) else if i = 16 then s.isUp 0 else s.isUp 5

/-- R216: the burst in hand of a DMA transfer has beats left, so the edge of the next decision has not come. -/
def State.burstHeld (s : State) (i : Nat) : Bool :=
  i == 19 && ((s.arb i).burst.elim false (fun b => decide (2 ≤ b.1 ∧ 0 < b.2) &&
    s.dma.any (fun e => e.2.busy && e.2.req == b.1 && e.2.status.isNone)))

/-- R213, R216: the next decision. Without its decision logic powered, the burst in hand still runs to its end. -/
def execArbDecision (inst : Fin 36) (s : State) : Out :=
  .next (if s.burstHeld inst then s
    else if s.arbOn inst then s.arbDecide inst
    else s.setArb inst { s.arb inst with burst := none })

/-- R211: the requester stands. -/
def State.stands (s : State) (i k : Nat) : Bool := (s.arb i).standing.any (fun r => r.k == k)

/-- R217: an accepted operation stands for its beats. -/
def State.stand (s : State) (i : Nat) (r : ArbReq) : State :=
  s.setArb i { s.arb i with standing := (s.arb i).standing ++ [r] }

/-- R213–R216: decisions go on until the requester has had all its beats; `none` where the instance grants it nothing. -/
def State.serve (s : State) (i k : Nat) : Nat → Option State
  | 0 => none
  | n + 1 =>
    if s.burstHeld i then none
    else if !s.stands i k then
      some (s.setArb i { s.arb i with burst := none })
    else if (s.eligible i).any (fun r => r.k == k) then (s.arbDecide i).serve i k n
    else none

/-- R211, R217: an access of a command raises its request, or takes up the one its requester has standing, and is granted its
beats. -/
def State.useArb (s : State) (i : Nat) (r : ArbReq) : Option State :=
  if !s.arbOn i then none else
  let s1 : State := if s.stands i r.k then s else s.stand i r
  s1.serve i r.k (((s1.arb i).standing.map (·.beats)).foldl (· + ·) 2)

/-- R211, R212: the request of a core's load or fetch of a catalog word. -/
def State.coreReq (s : State) (c : Nat) : ArbReq :=
  { k := 3 + c, beats := 1, prio := 7, tenant := s.tagOf (s.ctxOf c), ctx := some (s.ctxOf c) }

/-- R211: a request without a priority: of class 0, 1 or 3. -/
def plainReq (k beats : Nat) : ArbReq := { k := k, beats := beats, prio := 0, tenant := none }

/-! ### Try requests (R217, R218) -/

/-- FCLK cycles of a beat. -/
def beatTime (i : Nat) : Nat := if i = 18 then 12 else 1

/-- R218: the turn hint for the request standing in place `k`. The cycles left of the burst in hand are not timed here: a free
value within the burst (log entry 31). -/
def State.turnHint (s : State) (i k : Nat) : (Nat × Nat) × State :=
  if s.arbFrozen i then ((0xFFFF, 15), s) else
  let a := s.arb i
  let ahead := match a.standing.find? (fun r => r.k == k) with
    | none => []
    | some r => a.standing.filter (fun x => keyLess (s.reqKey i x) (s.reqKey i r))
  let left := a.burst.elim 0 (fun b => b.2 * beatTime i)
  let f := s.freeBits 16
  let h := f.1 % (left + 1) + (ahead.map (fun r => min r.beats (s.burstMax i) * beatTime i)).foldl (· + ·) 0
  ((min h 0xFFFF, min ahead.length 15), f.2)

/-- R217, R138: a refused try request: the outcome word with its hint; REFUSALS counts. -/
def State.tryRefuse (s : State) (i k : Nat) : Nat × State :=
  let r := s.turnHint i k
  (r.1.1 + r.1.2 * 65536, r.2.count (kArb i 0x14 16) 16 1)

/-- R220: what stands of a requester is withdrawn; a burst already granted runs to its end (R216). -/
def State.withdrawReq (s : State) (i k : Nat) : State :=
  s.setArb i { s.arb i with standing := (s.arb i).standing.filter (fun r => r.k != k) }

/-- An operation has ended: nothing of it stands and its burst is over. -/
def State.unstand (s : State) (i k : Nat) : State :=
  let a := s.arb i
  s.setArb i { a with standing := a.standing.filter (fun r => r.k != k),
                      burst := if a.burst.elim false (fun b => b.1 == k) then none else a.burst }

/-- The requester holds the burst in hand. -/
def State.granted (s : State) (i k : Nat) : Bool := (s.arb i).burst.elim false (fun b => b.1 == k)

/-! ### Requests of the requesters (R211, R212) -/

/-- Table 10-1: the instances and requesters whose requests are try requests (R217). -/
def arbTry (i k : Nat) : Bool := i == 17 || (i == 18 && k == 1) || (i == 19 && decide (2 ≤ k))

/-- R217: the place of a try requester is free: nothing of it stands and no accepted operation holds it. -/
def State.placeFree (s : State) (i k : Nat) : Bool :=
  !s.stands i k && !(s.arb i).burst.elim false (fun b => b.1 == k) &&
  (if i = 17 then !(Tab.get (fun _ => ({} : Job)) s.sfu k).busy
   else if i = 18 then s.crypt.op.isNone
   else !s.dma.any (fun e => e.2.busy && e.2.req == k))

/-- R211: the beats of a request: PRB asks a catalog bank for the 8 words of a bucket, a core for the word of its access and
SCRUB for one word; SPTX's beat is one transmission. -/
def arbBeats (i k beats : Nat) : Nat :=
  if i < 16 then (if k = 0 then 8 else if (3 ≤ k && k ≤ 7) || k = 10 then 1 else beats) else if i = 16 then 1 else beats

/-- R212: who issues a request of requester k at an instance: the context whose effective priority (and tenant) it carries. Of
DMA at the catalog banks and at CRYPT it is the submitter of a transfer in hand. -/
def State.arbIssuer (s : State) (i k ctx : Nat) : Option Nat :=
  let core := fun c => if c = 0 then some 64 else (s.core c).slot
  let dma := (s.dma.find? (fun e => e.2.busy && e.2.ctx == ctx)).map (·.2.ctx)
  if i < 16 then (if 3 ≤ k ∧ k ≤ 7 then core (k - 3) else if k = 8 then dma else if k = 9 then some 64 else none)
  else if i = 16 then (if 2 ≤ k then some 64 else none)
  else if i = 17 then (if k ≤ 4 then core k else dma)
  else if i = 18 then (if k = 1 then some 64 else if k = 2 then dma else none)
  else if i = 19 then (if 2 ≤ k then core (k - 2) else none)
  else (if k ≤ 4 then core k else if k = 5 then dma else none)

/-- R212: a request of class 2 carries its issuer's effective priority; one of the other classes none. The priority of DMA, CRYPT,
the report queue and the pair engine is their submitter's at submission. -/
def State.arbMake (s : State) (i k beats ctx : Nat) : Option ArbReq :=
  let r : ArbReq := plainReq k (arbBeats i k beats)
  if (i < 20 && arbClass i k != 2) || (20 ≤ i && 6 ≤ k) then some r
  else (s.arbIssuer i k ctx).map (fun x =>
    let sub := (i < 16 && 8 ≤ k) || i == 16 || i == 18
    let p := (s.dma.find? (fun e => e.2.busy && e.2.ctx == x)).elim 7 (·.2.prio)
    { r with prio := if sub then (if x = 64 then 7 else p) else s.effPrio x, tenant := s.tagOf x,
             ctx := if sub then none else some x })

/-- R211: a requester raises a request for beats; `ctx` names the submitter where a transfer in hand asks. A stalling request
stands until it is granted; a second one does not arise meanwhile. A try request is accepted at once when its place is free and
the instance is not frozen, else refused (R217); so is one with the tag of a tenant being reset (R220). -/
def execArbRequest (inst : Fin 36) (k : Fin 11) (beats : Fin 17) (_prio : Fin 8) (ctx : Fin 66) (s : State) : Out :=
  if !(s.arbOn inst && (arbReqDoms inst k).any s.isUp && beats.val != 0) then .next s else
  match s.arbMake inst k beats ctx with
  | none => .next s
  | some r =>
    let fenced := r.tenant.elim false s.resetting
    if arbTry inst k then
      .next (if fenced || s.arbFrozen inst || !s.placeFree inst k then (s.tryRefuse inst k).2 else s.stand inst r)
    else if fenced || s.stands inst k then .next s
    else
      let a := s.arb inst
      let f := s.freeBits 16
      if 20 ≤ inst.val && s.sparRank inst k == 3 && a.burst.isSome then
        .next ((f.2.setArb inst { a with waits := Tab.set (fun _ => 0) a.waits k (f.1 % (a.burst.elim 0 (·.2) + 1)) }).stand inst r)
      else .next (s.stand inst r)

/-- R215, R216, R426: a domain has switched off: its requesters' requests and wait counts go, and with FAB the logic of instances
17 to 19 and of the spar banks; a burst in hand stays. -/
def State.loseArb (s : State) (d : Nat) : State :=
  let gone := fun i k => (arbReqDoms i k).contains d && (arbReqDoms i k).all (fun x => !s.isUp x || x == d)
  let arbs := s.arbs.map (fun e => (e.1, { e.2 with
    standing := e.2.standing.filter (fun r => !gone e.1 r.k), waits := Tab.keep (fun k => !gone e.1 k) e.2.waits }))
  let arbs1 := if d = 5 then arbs.map (fun e => if 17 ≤ e.1 then (e.1, { ({} : Arb) with burst := e.2.burst }) else e) else arbs
  let kept := arbs1.filter (fun e => !decide (e.2 = ({} : Arb)))
  { s with arbs := kept }

end Sys2Proof.Machine
end

