-- ==== Sys2Proof/Machine/Hub.lean ====
section
/-! DEFINITION. The data caches and the snoop hub (R135, R174–R178). A set of the data cache is the lines with the same
address bits [11:5]; a core's list keeps the most recently used line first, so the least recently used line of a set is its
last. Every access to a spar bank by a master without a cache passes here. -/
namespace Sys2Proof.Machine

/-- The 32-byte line of an address. -/
def lineOf (a : Nat) : Nat := a / 32 * 32

/-- R135: the set of a data-cache line. -/
def dcSet (la : Nat) : Nat := la / 32 % 128

/-- A core's data-cache line. -/
def Core.line (c : Core) (la : Nat) : Option Line := c.dc.find? (fun l => l.addr == la)

/-- Put a line at the front of the data cache, in place of any copy. -/
def Core.putLine (c : Core) (l : Line) : Core := { c with dc := l :: c.dc.filter (fun x => x.addr != l.addr) }

/-- Drop a line. -/
def Core.dropLine (c : Core) (la : Nat) : Core := { c with dc := c.dc.filter (fun x => x.addr != la) }

/-- Replace `n` bytes of a line's data. -/
def Line.patch (l : Line) (a : Nat) (bs : List Byte) : Line :=
  { l with data := l.data.take (a - l.addr) ++ bs ++ l.data.drop (a - l.addr + bs.length) }

/-- Write a line back to its bank. -/
def State.writeBack (s : State) (l : Line) : State := s.wrBytes l.addr l.data

/-- R177: the oldest eviction-buffer entry of a core for a line goes to the bank, once. -/
def State.notice (s : State) (c la : Nat) : State :=
  match (s.core c).eb.find? (fun l => l.addr == la) with
  | none => s
  | some l => (s.writeBack l).setCore c { s.core c with eb := (s.core c).eb.filter (fun x => x.addr != la) }

/-- R177: a snoop that meets the line in an eviction buffer is answered GONE_WB and counted; the bank is written once. -/
def State.snoopEb (s : State) (c la : Nat) : State :=
  if (s.core c).eb.any (fun l => l.addr == la) then (s.notice c la).count (fk 0x40007080 0) 16 1 else s

/-- R176: a core's copy meets a request of another master: a Modified copy is written back, then kept Shared or invalidated. -/
def State.snoop (s : State) (inval : Bool) (la c : Nat) : State :=
  match (s.core c).line la with
  | none => s
  | some l =>
    let s1 := if l.dirty then s.writeBack l else s
    s1.setCore c (if inval then (s.core c).dropLine la
      else { s.core c with dc := (s.core c).dc.map (fun x => if x.addr = la then { x with dirty := false } else x) })

/-- The cores other than one. -/
def otherCores (c : Nat) : List Nat := (List.range 5).filter (fun k => k != c)

/-- R176, R177: every copy of a line outside a core is written back if Modified, then kept Shared or invalidated. -/
def State.snoopAll (s : State) (inval : Bool) (c la : Nat) : State :=
  (otherCores c).foldl (fun s k => (s.snoopEb k la).snoop inval la k) s

/-- R176: some other cache holds the line Modified. -/
def State.modifiedElsewhere (s : State) (c la : Nat) : Bool :=
  (otherCores c).any (fun k => ((s.core k).line la).elim false (·.dirty))

/-- R176: a Modified copy supplies the line, cache to cache. -/
def State.countC2C (s : State) (c la : Nat) : State :=
  if s.modifiedElsewhere c la then s.count (fk 0x40007080 16) 16 1 else s

/-- R178: room in a core's eviction buffer: with both entries occupied, the older one's writeback completes first. -/
def State.ebRoom (s : State) (c : Nat) : State :=
  match (s.core c).eb with
  | l :: _ :: _ => s.notice c l.addr
  | _ => s

/-- R135, R177: a line enters the data cache; a full set evicts its least recently used line, a Modified one through the
eviction buffer. -/
def State.install (s : State) (c : Nat) (l : Line) : State :=
  let same := (s.core c).dc.filter (fun x => dcSet x.addr == dcSet l.addr && x.addr != l.addr)
  match same.getLast? with
  | some v =>
    if same.length < 2 then s.setCore c ((s.core c).putLine l)
    else
      let s1 := if v.dirty then s.ebRoom c else s
      let x := s1.core c
      let x1 := if v.dirty then { x with eb := x.eb ++ [v] } else x
      s1.setCore c ((x1.dropLine v.addr).putLine l)
  | none => s.setCore c ((s.core c).putLine l)

/-- Table 9-2, Read miss: the requester ends Shared with the latest data. A line of ROM or the NOR window is read alone. -/
def State.readMiss (s : State) (c la : Nat) : State :=
  match regionOf la with
  | .spar _ =>
    let s1 := ((s.countC2C c la).snoopAll false c la).notice c la
    s1.install c { addr := la, dirty := false, data := s1.rdBytes la 32 }
  | _ => s.install c { addr := la, dirty := false, data := s.rdBytes la 32 }

/-- R176: the data of a Modified copy outside a core. -/
def State.suppliedBy (s : State) (c la : Nat) : Option (List Byte) :=
  ((otherCores c).filterMap (fun k => (s.core k).line la)).find? (·.dirty) |>.map (·.data)

/-- Table 9-2, Own: eviction buffers give their data through the bank (R177), every other copy is invalidated without a writeback,
and the requester ends Modified with its own Shared data, the data of a Modified copy, or the bank's. -/
def State.own (s : State) (c la : Nat) : State :=
  let s1 := ((otherCores c).foldl (fun s k => s.snoopEb k la) (s.countC2C c la)).notice c la
  let given := s1.suppliedBy c la
  let s2 := (otherCores c).foldl (fun s k => s.setCore k ((s.core k).dropLine la)) s1
  match (s2.core c).line la with
  | some l => s2.setCore c ((s2.core c).putLine { l with dirty := true })
  | none => s2.install c { addr := la, dirty := true, data := given.getD (s2.rdBytes la 32) }

/-- Table 9-2, Write-through store: other copies go, a present line is updated, the bank is written. -/
def State.writeThrough (s : State) (c a : Nat) (bs : List Byte) : State :=
  let s1 := (s.snoopAll true c (lineOf a)).notice c (lineOf a)
  let s2 := match (s1.core c).line (lineOf a) with
    | some l => s1.setCore c ((s1.core c).putLine (l.patch a bs))
    | none => s1
  s2.wrBytes a bs

/-- No core: a master without a data cache. -/
def noCore : Nat := 5

/-- Table 9-2, Non-caching read: a Modified copy is written back and becomes Shared; the data is then in the bank. -/
def State.ncRead (s : State) (a n : Nat) : List Byte × State :=
  match regionOf a with
  | .spar _ => let s1 := s.snoopAll false noCore (lineOf a); (s1.rdBytes a n, s1)
  | _ => (s.rdBytes a n, s)

/-- Table 9-2, Non-caching write: a Modified copy is written back, every copy is invalidated, then the write is applied. -/
def State.ncWrite (s : State) (a : Nat) (bs : List Byte) : State :=
  match regionOf a with
  | .spar _ => (s.snoopAll true noCore (lineOf a)).wrBytes a bs
  | _ => s.wrBytes a bs

/-- A little-endian word by a non-caching read. -/
def State.ncWord (s : State) (a : Nat) : Nat × State := (ofLe (s.ncRead a 4).1, (s.ncRead a 4).2)

/-- R63, R135: every Modified line and every eviction-buffer entry of a core goes to memory, and its caches are emptied. -/
def State.cleanCore (s : State) (c : Nat) : State :=
  let x := s.core c
  let s1 := (x.eb ++ x.dc.filter (·.dirty)).foldl State.writeBack s
  s1.setCore c { x with eb := [], dc := [], ic := [] }

/-- R178: the line of an address that a core's own eviction buffer holds. -/
def Core.evicted (c : Core) (la : Nat) : Option Line := c.eb.find? (fun l => l.addr == la)

/-- A core may use a line of an address: its domain is released and the line lies in a powered spar bank. -/
def State.hubOk (s : State) (c a : Nat) : Bool :=
  s.isUp (6 + c) && (match regionOf a with | .spar n => s.isUp (11 + n) | _ => false)

def execReadMiss (core : Fin 5) (addr : Word) (s : State) : Out :=
  .next (if s.hubOk core addr.toNat then s.readMiss core (lineOf addr.toNat) else s)

def execOwn (core : Fin 5) (addr : Word) (s : State) : Out :=
  .next (if s.hubOk core addr.toNat then s.own core (lineOf addr.toNat) else s)

/-- R176: the bytes of a write-through store lie in one line. -/
def execWriteThroughStore (core : Fin 5) (addr : Word) (data : List Byte) (s : State) : Out :=
  .next (if s.hubOk core addr.toNat && decide (addr.toNat % 32 + data.length ≤ 32)
    then s.writeThrough core addr.toNat data else s)

/-- A spar bank that is powered. -/
def State.sparOk (s : State) (a : Nat) : Bool :=
  match regionOf a with | .spar n => s.isUp (11 + n) | _ => false

def execNonCachingRead (addr : Word) (s : State) : Out :=
  .next (if s.sparOk addr.toNat then (s.ncRead addr.toNat 8).2 else s)

def execNonCachingWrite (addr : Word) (data : List Byte) (s : State) : Out :=
  .next (if s.sparOk addr.toNat && decide (addr.toNat % 32 + data.length ≤ 32) then s.ncWrite addr.toNat data else s)

def execEvictionNotice (core : Fin 5) (addr : Word) (s : State) : Out :=
  .next (if s.hubOk core addr.toNat then s.notice core (lineOf addr.toNat) else s)

end Sys2Proof.Machine
end

