-- ==== Sys2Proof/Machine/Cat.lean ====
section
/-! DEFINITION. The catalog store (R181–R200): reads with their poison and ECC checks, the posted write buffer, attempts,
poisoning, the poison map with its summary and map-fail list, and the scrubber. Offsets are catalog offsets. -/
namespace Sys2Proof.Machine

/-- The start of the reserved area (R182). -/
def catTop : Nat := 0x03F00000
/-- The keeper snapshot's offset in the reserved area (R194). -/
def snapOff : Nat := 0x03FFC000
/-- A catalog offset's physical address. -/
def catAddr (off : Nat) : Nat := 0x20000000 + off
/-- The bank's domain. -/
def catDom (off : Nat) : Nat := 28 + off / 0x400000
def kCatPoisons : Key := fk 0x40008018 0
def kCatCorr : Key := fk 0x4000801C 0
def kCatUncorr : Key := fk 0x4000801C 16
def kCatRefused : Key := fk 0x40008024 0
def kSummaryValid : Key := fk 0x40008014 0
def kRebuilding : Key := fk 0x40008014 1

/-! ### The poison map, its summary and the map-fail list -/

/-- R194: a map word's index is its catalog offset / 512. -/
def mapIdx (off : Nat) : Nat := off / 512
/-- R194: the byte of the map that holds a word's bit. -/
def mapByte (off : Nat) : Nat := 0x23F00000 + off / 64
/-- Table 9-3: an entry of the map-fail list. -/
def mapFailAddr (i : Nat) : Nat := 0x12003F00 + 8 * i
/-- R195: entry i of the map-fail list, if valid. -/
def State.mapFail (s : State) (i : Nat) : Option Nat :=
  let e := s.rdLe (mapFailAddr i) 4
  if bit e 31 then some (bits e 0 23) else none
/-- R195: a map word is in the map-fail list. -/
def State.mapListed (s : State) (idx : Nat) : Bool := (List.range 8).any (fun i => s.mapFail i == some idx)
/-- The map's bit for a word. -/
def State.mapBit (s : State) (off : Nat) : Bool := bit (s.rd (mapByte off)).toNat (off / 8 % 8)
/-- R194: the summary bit of a map word. -/
def State.summaryBit (s : State) (idx : Nat) : Bool := bit (s.rd (0x12000000 + idx / 8)).toNat (idx % 8)
def State.setSummary (s : State) (idx : Nat) (b : Bool) : State :=
  s.wr (0x12000000 + idx / 8) (BitVec.ofNat 8 (setBit (s.rd (0x12000000 + idx / 8)).toNat (idx % 8) b))
/-- Bits in error of a word. -/
def State.eccOf (s : State) (off : Nat) : Nat := Tab.get (fun _ => 0) s.cat.ecc (off / 8)
def State.setEcc (s : State) (off n : Nat) : State :=
  { s with cat := { s.cat with ecc := Tab.set (fun _ => 0) s.cat.ecc (off / 8) n } }
/-- The bank arbiter of a catalog offset (Table 10-1). -/
def catInst (off : Nat) : Nat := off / 0x400000

/-- R187, R194–R196: a word below the reserved area is poisoned; with a valid summary the map is read only where its summary
bit is set. -/
def State.poisoned (s : State) (off : Nat) : Bool :=
  decide (off < catTop) && (!s.flag kSummaryValid || s.summaryBit (mapIdx off)) &&
    (s.mapBit off || s.mapListed (mapIdx off))

/-- Table 16-3, Table 16-4: a CAT data record. -/
def catRec (code tenant seq off toff seg attempts origin : Nat) : ErrRec :=
  { cls := if code = 3 then 0 else 1, source := 8, tenant := tenant, code := code, seq := seq, address := catAddr off,
    offset := toff, segment := seg, detail := [attempts, origin] }

/-- R195: a map word fails: it enters the map-fail list with a LATE record; a ninth failure is DEVICE_FATAL. -/
def State.mapWordFails (s : State) (idx attempts : Nat) : State :=
  if s.mapListed idx then s else
  let r : ErrRec := { cls := 1, source := 8, code := 4, address := 0x23F00000 + 8 * idx, detail := [attempts, 8] }
  match (List.range 8).find? (fun i => (s.mapFail i).isNone) with
  | some i =>
    ((s.wrLe (mapFailAddr i) 8 (idx % 2 ^ 23 + 2 ^ 31)).setSummary idx true).raise { r with detail := [attempts, i] }
  | none => (s.setSummary idx true).raise { r with cls := 3, code := 5 }

/-- R195: bank 15 is powered for an update whatever its PMU_DOM_ON bit says, and is let go later if that bit is 0. -/
def State.power15 (s : State) : State :=
  if s.isUp 43 then s else { s.setDom 43 .up with cat := { s.cat with hold15 := true } }

/-- R198: scrubber rewrites of a word whose program has not started are dropped. -/
def dropRewritesAt (off : Nat) (wb : List WbEnt) : List WbEnt :=
  wb.filter (fun x => !(x.origin == 2 && !x.started && (x.off == off || (x.record && x.off == off / 16 * 16))))
def State.dropAt (s : State) (off : Nat) : State := { s with cat := { s.cat with wb := dropRewritesAt off s.cat.wb } }

/-- R192, R193, R195: the map bits of the words change in their map word, which is programmed whole and verified; the last set bit
of an unlisted map word clears its summary bit too. -/
def State.mapApply (s : State) (offs : List Nat) (b : Bool) : State :=
  let s1 := offs.foldl (fun s o =>
    (s.wr (mapByte o) (BitVec.ofNat 8 (setBit (s.rd (mapByte o)).toNat (o / 8 % 8) b)))) s
  match offs with
  | [] => s1
  | o :: _ =>
    let idx := mapIdx o
    let s2 := (s1.setEcc (catTop + 8 * idx) 0).dropAt (catTop + 8 * idx)
    if b then s2.setSummary idx true
    else if s2.rdLe (0x23F00000 + 8 * idx) 8 = 0 && !s2.mapListed idx then s2.setSummary idx false else s2

/-! ### Reads -/

/-- How a catalog access ends: data, a poisoned read, a bus error, or a wait that goes on. -/
inductive CatRes where
  | data (bs : List Byte) | poisoned | busErr | wait
  deriving DecidableEq, Repr

/-- The tenant whose record area holds an offset (R182). -/
def State.recOwner (s : State) (off : Nat) : Option Nat :=
  (List.range 64).find? (fun t =>
    let base := s.reg (fk (0x40008104 + 8 * t) 0) * 65536
    decide (base ≤ off ∧ off < base + s.reg (fk (0x40008104 + 8 * t) 16) * 65536))

/-- The tenant whose bucket array or record area holds an offset; 0 outside every region (R197). -/
def State.regionOwner (s : State) (off : Nat) : Nat :=
  ((s.recOwner off).orElse (fun _ => (List.range 64).find? (fun t =>
    let n := s.reg (fk (0x40008100 + 8 * t) 0)
    let base := s.reg (fk (0x40008100 + 8 * t) 16) * 65536
    decide (n ≠ 0 ∧ base ≤ off ∧ off < base + 64 * 2 ^ n)))).getD 0

/-- A tenant's XTS key as 64 bytes. -/
def State.keyBytes (s : State) (t : Nat) : List Nat := beNat ((Tab.get (fun _ => none) s.crypt.keys t).getD 0) 64

def toNats (l : List Byte) : List Nat := l.map (·.toNat)
def toBytes (l : List Nat) : List Byte := l.map (BitVec.ofNat 8)

/-- R186: the plaintext of the 16 bytes read from the block of a catalog offset, under a tenant's key. -/
def State.plainBlock (s : State) (t off : Nat) (bs : List Byte) : List Byte :=
  let b := off / 16 * 16
  toBytes (xtsBlock false (s.keyBytes t) (b / 512) (b % 512 / 16) (toNats bs))

/-- R192, R181: a word fails for good: its summary bit is set, its content is indeterminate, and its map update is due. -/
def State.poisonWords (s : State) (offs : List Nat) (r : ErrRec) (retires keepData : Bool) : State :=
  let s1 := if keepData then s else offs.foldl (fun s o => (s.freeBytes 8).2.wrBytes (catAddr o) (s.freeBytes 8).1) s
  let s2 := offs.foldl (fun s o => s.setSummary (mapIdx o) true) s1
  { s2 with cat := { s2.cat with
      mapDue := s2.cat.mapDue ++ [{ offs := offs, poison := true, report := some r, retires := retires }] } }

/-- R181: one bit in error is corrected, counted, and reported with its ORIGIN (Table 16-4) while CORR_REPORT is 1. -/
def State.corrected (s : State) (off origin : Nat) : State :=
  let s1 := s.count kCatCorr 16 1
  if s1.flag (fk 0x40008000 0) then s1.raise (catRec 3 0 0 off 0 0 0 origin) else s1

/-- R181: what a word's bits in error come to: 0 none, 1 corrected, 2 uncorrectable; for three or more, what the stored bits
decide (with the data bit a miscorrection inverts). -/
def State.eccKind (s : State) (off : Nat) : Nat × Option Nat :=
  match s.eccOf off with
  | 0 => (0, none)
  | 1 => (1, none)
  | 2 => (2, none)
  | _ =>
    let o := Config.multiBitOutcome off (BitVec.ofNat 64 (s.rdLe (catAddr off) 8))
    match o.1 % 3 with
    | 0 => (2, none)
    | 1 => (1, some (o.2 % 64))
    | _ => (0, none)

/-- The stored word as an array read returns it (R181). -/
def State.arrayWord (s : State) (off : Nat) (flip : Option Nat) : List Byte :=
  match flip with
  | none => s.rdBytes (catAddr off) 8
  | some i => leBytes (setBit (s.rdLe (catAddr off) 8) i (!bit (s.rdLe (catAddr off) 8) i)) 8

/-- R181: the map word of a word as a read of the array returns it. -/
def State.mapBitRead (s : State) (off : Nat) : Bool :=
  bit (leAt (s.arrayWord (catTop + 8 * mapIdx off) (s.eccKind (catTop + 8 * mapIdx off)).2) 0 8) (off / 8 % 64)

/-- R187: the poison check of a word, which reads its map word at bank 15's arbiter where the summary says so; a map word with a
two-bit error is handled as a map-word failure. `none` while the arbiter grants the read nothing. -/
def State.poisonCheck (s : State) (off : Nat) : Option (Bool × State) :=
  if catTop ≤ off then some (false, s)
  else if s.flag kSummaryValid && !s.summaryBit (mapIdx off) then some (false, s)
  else
    (s.power15.useArb 15 (plainReq 1 1)).map (fun s1 =>
      let m := catTop + 8 * mapIdx off
      let kd := (s1.eccKind m).1
      let s2 := if kd = 2 then s1.mapWordFails (mapIdx off) 0 else if kd = 1 then s1.corrected m 3 else s1
      (kd == 2 || s2.mapListed (mapIdx off) || s2.mapBitRead off, s2))

/-- R181, R187, R192: the words of a read: any one of them with a two-bit error is a final write failure of the read's words; a
single-bit error is corrected. `none` where a read fails. -/
def State.readWords (s : State) (offs : List Nat) (origin : Nat) : Option (List Byte) × State :=
  let bad := offs.filter (fun o => (s.eccKind o).1 == 2)
  let s1 := offs.foldl (fun s o => match (s.eccKind o).1 with
    | 1 => s.corrected o origin
    | 2 => s.count kCatUncorr 16 1
    | _ => s) s
  match bad with
  | [] => (some (offs.flatMap (fun o => s1.arrayWord o (s1.eccKind o).2)), s1)
  | o :: _ =>
    if catTop ≤ o then (none, s1) else (none, s1.poisonWords offs (catRec 2 0 0 o 0 0 0 origin) false true)

/-- R187: a read of the 64-bit word at an offset by a requester of its bank: the words it reads (both of the block in a record
area, R186) are asked of the bank, checked against the poison map, and, in a record area, deciphered at CRYPT by the CAT
controller. -/
def State.catRead (s : State) (r : ArbReq) (off : Nat) : CatRes × State :=
  let owner := if off < catTop then s.recOwner off else none
  let offs := if owner.isSome then [off / 16 * 16, off / 16 * 16 + 8] else [off]
  if !s.isUp (catDom off) then (.busErr, s)
  else if s.cat.wb.any (fun e => e.off ≤ off && decide (off < e.off + (if e.record then 16 else 8))) ||
      s.cat.mapDue.any (fun d => d.offs.contains off) then (.wait, s)
  else if owner.elim false (fun t => !s.keyLoaded t) then (.busErr, s)
  else
    match ((s.useArb (catInst off) { r with beats := offs.length }).bind
      (fun s1 => if owner.isSome then s1.useArb 18 (plainReq 0 1) else some s1)).bind (fun s1 => s1.poisonCheck off) with
    | none => (.wait, s)
    | some (p, s1) =>
      if p then (.poisoned, s1) else
      match s1.readWords offs 3, owner with
      | (none, s2), _ => (.poisoned, s2)
      | (some bs, s2), some t => (.data ((s2.plainBlock t off bs).drop (off % 16) |>.take 8), s2)
      | (some bs, s2), none => (.data bs, s2)

/-- A read by the CC; its `err` bits in error are found in the word (in addition to what it already holds). -/
def execCatalogRead (addr : Word) (err : BitVec 2) (s : State) : Out :=
  match regionOf addr.toNat with
  | .cat _ =>
    if !s.isUp 5 then .next s else
    let off := (addr.toNat - 0x20000000) / 8 * 8
    let s1 := if s.eccOf off < err.toNat then s.setEcc off err.toNat else s
    .next (s1.catRead (s1.coreReq 0) off).2
  | _ => .next s

/-! ### Posted writes -/

/-- How a catalog write is received. -/
inductive WbRes where
  | accepted | busErr | refused | full
  deriving DecidableEq, Repr

/-- Who writes: the CC, DMA for the CC, the scrubber, or another master with its tenant. -/
inductive Writer where
  | cc | ccDma | scrub | tenant (t : Nat)
  deriving DecidableEq, Repr

/-- Table 9-5: the first refusal that applies, with the code of its LATE record if it has one. -/
def State.wbRefusal (s : State) (w : Writer) (off : Nat) : Option (WbRes × Option Nat) :=
  let reserved := decide (catTop ≤ off)
  if !s.isUp (catDom off) then some (.busErr, none)
  else if reserved && w != .scrub && (w != .cc || decide (off < snapOff)) then some (.busErr, none)
  else if !reserved && (decide (s.allow < 4) || s.storeLow) then some (.refused, some 0x500)
  else if !reserved && (s.recOwner off).elim false (fun t => !s.keyLoaded t) then some (.refused, some 6)
  else match w with
    | .tenant t => if s.resetting t then some (.refused, none) else none
    | _ => none

/-- R198: a scrubber rewrite whose program has not started is dropped when another entry for its word is accepted. -/
def dropRewrites (e : WbEnt) (wb : List WbEnt) : List WbEnt :=
  wb.filter (fun x => !(x.origin == 2 && !x.started && x.off / 16 == e.off / 16 && (x.off == e.off || e.record || x.record)))

/-- R188, R189: a write arrives at the write buffer; `e` is its entry but for the word or block it lies in. -/
def State.wbAccept (s : State) (w : Writer) (off : Nat) (bs : List Byte) (e : WbEnt) : WbRes × State :=
  match s.wbRefusal w off with
  | some (r, code) =>
    let s1 := s.count kCatRefused 16 1
    (r, code.elim s1 (fun c => s1.raise (catRec c e.tenant e.seq off e.toff e.seg 0 e.origin)))
  | none =>
    if 32 ≤ s.cat.wb.length then (.full, s) else
    let t := if off < catTop then s.recOwner off else none
    let unit := if t.isSome then 16 else 8
    let pos := off % unit
    let ent := { e with
      off := off / unit * unit, record := t.isSome, slotKey := t.getD 0,
      data := List.replicate pos 0#8 ++ bs ++ List.replicate (unit - pos - bs.length) 0#8,
      mask := (2 ^ bs.length - 1) * 2 ^ pos, left := if t.isSome then 3 else 1 }
    (.accepted, { s with cat := { s.cat with wb := dropRewrites ent s.cat.wb ++ [ent] } })

/-- An entry with a tag and nothing else. -/
def tagEnt (tenant seg toff src seq origin : Nat) : WbEnt :=
  { off := 0, record := false, data := [], mask := 0, tenant := tenant, seg := seg, toff := toff, src := src, seq := seq,
    origin := origin }

/-- R189: the tag of a CC write: tenant and sequence of CAT_CMD_TAG, segment 3, offset from CAT_CMD_WBASE. -/
def State.ccTag (s : State) (off : Nat) : WbEnt :=
  tagEnt (s.reg (fk 0x40008004 0)) 3 ((off + 2 ^ 26 - s.reg (fk 0x40008008 3) * 8) % 2 ^ 24) 1 (s.reg (fk 0x40008004 16)) 1

/-- A write by the CC: the bytes lie in one 64-bit word. -/
def execCatalogWrite (addr : Word) (data : List Byte) (s : State) : Out :=
  match regionOf addr.toNat with
  | .cat _ =>
    let off := addr.toNat - 0x20000000
    if s.isUp 5 && decide (1 ≤ data.length ∧ off % 8 + data.length ≤ 8) then .next (s.wbAccept .cc off data (s.ccTag off)).2
    else .next s
  | _ => .next s

/-- Bytes of `new` where the mask has a bit, else of `old`. -/
def mergeBytes (old new : List Byte) (mask : Nat) : List Byte :=
  (List.range new.length).map (fun i => if bit mask i then new.getD i 0#8 else old.getD i 0#8)

/-- The words of an entry: one, or the two of a record-area block. -/
def WbEnt.words (e : WbEnt) : List Nat := if e.record then [e.off, e.off + 8] else [e.off]

/-- R190: the reads before an entry's first attempt: each word's ECC is handled; a poisoned word, or one with a two-bit error, is
reported where R190 says and makes the old content zero bytes. -/
def State.mergeRead (s : State) (e : WbEnt) : List Byte × State :=
  let zero := e.words.any (fun o => s.poisoned o || (s.eccKind o).1 == 2)
  let s1 := e.words.foldl (fun s o => if s.poisoned o then s else match (s.eccKind o).1 with
    | 1 => s.corrected o e.origin
    | 2 => (s.count kCatUncorr 16 1).raise (catRec 2 e.tenant e.seq o e.toff e.seg 0 e.origin)
    | _ => s) s
  if zero then (List.replicate e.data.length 0#8, s1)
  else
    let bs := e.words.flatMap (fun o => s1.arrayWord o (s1.eccKind o).2)
    (if e.record then s1.plainBlock e.slotKey e.off bs else bs, s1)

/-- R190: what precedes an entry's first attempt: the merge read of a partial word, or the block's read, decryption and
encryption, with the requests they make; `none` while one of them is granted nothing. -/
def State.prepare (s : State) (e : WbEnt) (err : Nat) : Option (WbEnt × State) :=
  if !e.record && e.mask == 255 then some ({ e with started := true, merged := e.data }, s) else
  let s0 := if s.eccOf e.off < err then s.setEcc e.off err else s
  ((s0.useArb (catInst e.off) (plainReq 2 e.words.length)).bind
    (fun s1 => if e.record then s1.useArb 18 (plainReq 0 2) else some s1)).map (fun s1 =>
      let r := s1.mergeRead e
      let m := mergeBytes r.1 e.data e.mask
      ({ e with started := true,
                merged := if e.record then
                  toBytes (xtsBlock true (r.2.keyBytes e.slotKey) (e.off / 512) (e.off % 512 / 16) (toNats m)) else m }, r.2))

/-- R16, R59: a bank whose switch-off waited for its buffered writes goes when the last of them has completed. -/
def State.releaseHeld (s : State) : State :=
  let ready := s.pmu.offHold.filter (fun d => !s.cat.wb.any (fun e => catDom e.off == d))
  ready.foldl (fun s d => s.setDom d .off)
    ({ s with pmu := { s.pmu with offHold := s.pmu.offHold.filter (fun d => !ready.contains d) } } : State)

/-- The entry at the front retires; a write of the tenant being reset is listed in the report (R167). -/
def State.retire (s : State) (poison : Bool) : State :=
  match s.cat.wb with
  | [] => s
  | e :: rest =>
    let s1 : State := { s with cat := { s.cat with wb := rest } }
    let s2 : State := match s1.ten.reset with
      | some r =>
        if r.tenant = e.tenant && e.origin != 2 && r.entries.length < 32 then
          { s1 with ten := { s1.ten with reset := some { r with entries := r.entries ++
            [{ off := e.toff, seg := e.seg, src := e.src, poisoned := poison, retries := e.attempts - 1, seq := e.seq }] } } }
        else s1
      | none => s1
    s2.releaseHeld

/-- R190, R192, R193: after the attempt's verify: done, failed for good, or to be programmed again at once. -/
def State.attemptEnd (s : State) (e : WbEnt) (rest : List WbEnt) : State :=
  let s1 : State := { s with cat := { s.cat with wb := e :: rest } }
  if e.left = 0 then
    let was := e.words.filter s1.poisoned
    if was.isEmpty then s1.retire false
    else { s1 with cat := { s1.cat with
      mapDue := s1.cat.mapDue ++ [{ offs := was, poison := false, report := none, retires := true }] } }
  else if e.attempts < 4 then s1
  else if catTop ≤ e.off then
    (((s1.freeBytes 8).2.wrBytes (catAddr e.off) (s1.freeBytes 8).1).raise
      { catRec 1 0 e.seq e.off e.toff e.seg 4 e.origin with tenant := 0 }).retire true
  else s1.poisonWords e.words (catRec 1 e.tenant e.seq e.off e.toff e.seg 4 e.origin) true false

/-- R190: one attempt on the entry at the front: a request of the write buffer for a beat a word still to verify; `fail0` and
`fail1` say which of its words fail their verify. -/
def State.attempt (s : State) (e : WbEnt) (rest : List WbEnt) (fail0 fail1 : Bool) : Option State :=
  (s.useArb (catInst e.off) (plainReq 2 (ofBool (bit e.left 0) + ofBool (bit e.left 1)))).map (fun s1 =>
    let ok0 := bit e.left 0 && !fail0
    let ok1 := bit e.left 1 && !fail1
    let s2 := if ok0 then (s1.wrBytes (catAddr e.off) (e.merged.take 8)).setEcc e.off 0 else s1
    let s3 := if ok1 then (s2.wrBytes (catAddr (e.off + 8)) (e.merged.drop 8)).setEcc (e.off + 8) 0 else s2
    let left := setBit (setBit e.left 0 (bit e.left 0 && fail0)) 1 (bit e.left 1 && fail1)
    s3.attemptEnd { e with left := left, attempts := e.attempts + 1 } rest)

/-- R190: the entry at the front is prepared if it has not started, then attempted; `mergeErr` gives the bits in error that the
read before its first attempt finds. No entry starts its first attempt once the cut is decided or a warm reset is due (R39,
R368), nor before the map update in hand is complete. -/
def execWriteAttempt (fail0 : Bool) (fail1 : Bool) (mergeErr : BitVec 2) (s : State) : Out :=
  match s.cat.wb with
  | [] => .next s
  | e :: rest =>
    if s.cat.mapDue.any (·.retires) || (!e.started && (s.harv.cutDecided || s.boot.inReset)) || !s.isUp (catDom e.off) then .next s
    else
      .next (((if e.started then some (e, s) else s.prepare e mergeErr.toNat).bind
        (fun p => p.2.attempt p.1 rest fail0 fail1)).getD s)

/-- R192, R195: the map update at the front is done, or its map word fails (four attempts, or a two-bit error in its read: log entry
142); then the record is raised and the write entry retires. It is asked of bank 15's arbiter by the CAT controller. -/
def State.mapUpdate (s : State) (fails : Bool) : State :=
  match s.cat.mapDue with
  | [] => s
  | d :: rest =>
    let m := catTop + 8 * mapIdx (d.offs.headD 0)
    match (({ s with cat := { s.cat with mapDue := rest } } : State).power15).useArb 15 (plainReq 1 2) with
    | none => s
    | some s0 =>
      let kd := s0.eccKind m
      let s1 := if kd.1 = 1 then (s0.corrected m 3).wrBytes (catAddr m) (s0.arrayWord m kd.2) else s0
      let s2 := if fails then s1.mapWordFails (mapIdx (d.offs.headD 0)) 4
        else if kd.1 = 2 then s1.mapWordFails (mapIdx (d.offs.headD 0)) 0 else s1.mapApply d.offs d.poison
      let s3 := match d.report with
        | some r => ((s2.count kCatPoisons 24 d.offs.length).setReg (fk 0x40008020 0) (d.offs.getLastD 0)).raise r
        | none => s2
      if d.retires then s3.retire d.poison else s3

def execMapUpdate (fails : Bool) (s : State) : Out := .next (s.mapUpdate fails)

/-! ### The summary -/

/-- R196: bank 15 is released with FAB released after a loss of the summary. -/
def execSummaryRebuildStart (s : State) : Out :=
  .next (if s.cat.rebuildDue && s.isUp 43 && s.isUp 5 && s.isUp 2 then
    { s.setFlag kRebuilding true with cat := { s.cat with rebuildDue := false, hold15 := true } } else s)

/-- R196: map words that are non-zero, that read with a two-bit error (those known and those the rebuild finds, `bad`), or that are
listed set their summary bits. -/
def execSummaryRebuildDone (bad : List Nat) (s : State) : Out :=
  if !s.flag kRebuilding then .next s else
  let live := (s.mem.filter (fun c => decide (0x23F00000 ≤ c.1 ∧ c.1 < 0x23FFC000) && c.2 != 0#8)).map
    (fun c => (c.1 - 0x23F00000) / 8)
  let s1 := live.foldl (fun s i => s.setSummary i true) s
  let known := ((s.cat.ecc.map (·.1)).filter (fun w => decide (catTop / 8 ≤ w ∧ w < snapOff / 8) && (s.eccKind (8 * w)).1 == 2)).map
    (fun w => w - catTop / 8)
  let s2 := (known ++ bad.filter (fun i => decide (i < 129024))).foldl (fun s i => s.mapWordFails i 0) s1
  let s3 := ((List.range 8).filterMap s2.mapFail).foldl (fun s i => s.setSummary i true) s2
  .next ((s3.setFlag kRebuilding false).setFlag kSummaryValid true)

/-! ### The scrubber -/

/-- Where the scrubber reads next: SCRUB_POS while it lies in the range, else START (R197). -/
def State.scrubPos (s : State) : Nat :=
  let lo := s.reg (fk 0x40017004 0) * 65536
  let hi := s.reg (fk 0x40017004 16) * 65536
  let p := s.reg (fk 0x40017010 3) * 8
  if lo ≤ p ∧ p < hi then p else lo

/-- R197: past the word; at the end of the range the pass ends. -/
def State.scrubAdvance (s : State) (p : Nat) : State :=
  let hi := s.reg (fk 0x40017004 16) * 65536
  let s1 : State := { s with cat := { s.cat with scrubbed := s.cat.scrubbed + 1 } }
  if p + 8 < hi then s1.setReg (fk 0x40017010 3) ((p + 8) / 8)
  else
    let s2 := ((s1.setReg (fk 0x40017010 3) (s.reg (fk 0x40017004 0) * 8192)).count (fk 0x4001701C 0) 16 1).setFlag
      (fk 0x40017020 0) true
    if s2.flag (fk 0x40017000 1) then s2 else s2.setFlag (fk 0x40017000 0) false

/-- R197: the word is passed over without a read. -/
def State.scrubSkips (s : State) (off : Nat) : Bool :=
  !s.isUp (catDom off) || s.poisoned off ||
    s.cat.wb.any (fun e => e.off ≤ off && decide (off < e.off + (if e.record then 16 else 8))) ||
    s.cat.mapDue.any (fun d => d.offs.contains off)

/-- R197, R198, R200: a word the scrubber has read. A rewrite that the write buffer refuses (R188) is counted there and as a skip;
one that meets a full buffer waits with the word (`none`). -/
def State.scrubFound (s : State) (off : Nat) : Option State :=
  match s.eccKind off with
  | (0, _) => some s
  | (1, flip) =>
    let s1 := s.corrected off 2
    let t := if off < catTop then s.regionOwner off else 0
    let ent : WbEnt := { tagEnt t 7 off 0 0xFFFF 2 with off := off, data := s1.arrayWord off flip, mask := 255 }
    match s1.wbRefusal .scrub off with
    | some _ => some ((s1.count kCatRefused 16 1).count (fk 0x40017018 0) 24 1)
    | none =>
      if 32 ≤ s1.cat.wb.length then none
      else some (({ s1 with cat := { s1.cat with wb := s1.cat.wb ++ [ent] } }).count (fk 0x40017014 0) 16 1)
  | _ =>
    let s1 := s.count kCatUncorr 16 1
    if off < catTop then
      let offs := if (s.recOwner off).isSome then [off / 16 * 16, off / 16 * 16 + 8] else [off]
      some ((s1.poisonWords offs (catRec 2 (s.regionOwner off) 0xFFFF off off 7 0 2) false true).count (fk 0x40017014 16) 16 1)
    else if off < snapOff then some ((s1.mapWordFails ((off - catTop) / 8) 0).count (fk 0x40017014 16) 16 1)
    else some ((s1.raise (catRec 2 0 0xFFFF off off 7 0 2)).count (fk 0x40017018 0) 24 1)

/-- R197: one word of the scrubber's frame, in which `err` bits in error are found; it is asked of the bank as its lowest-ranked
requester. -/
def State.scrubStep (s : State) (err : Nat) : State :=
  let off := s.scrubPos
  if s.scrubSkips off then (s.count (fk 0x40017018 0) 24 1).scrubAdvance off
  else
    (((s.useArb (catInst off) (plainReq 10 1)).bind
      (fun s1 => (if s1.eccOf off < err then s1.setEcc off err else s1).scrubFound off)).map (·.scrubAdvance off)).getD s

/-- R197: the scrubber reads its next word. -/
def execScrubRead (err : BitVec 2) (s : State) : Out :=
  .next (if s.isUp 45 && s.isUp 5 && s.flag (fk 0x40017000 0) && decide (s.cat.scrubbed < s.reg (fk 0x40017008 0)) &&
      s.reg kPhase != 1 then s.scrubStep err.toNat else s)

end Sys2Proof.Machine
end

