-- ==== Sys2Proof/Machine/Slots.lean ====
section
/-! DEFINITION. Run-table contexts away from a core: context records (R144, R145), events (R136, R160) and wait order. -/
namespace Sys2Proof.Machine

/-- R144: a slot's context record. -/
def State.ctxAddr (s : State) (n : Nat) : Nat := s.reg (fk 0x40015004 13) * 8192 + 0x80 * n

/-- A core's STATUS word (Table 7-1). -/
def Core.status (c : Core) : Nat :=
  ofBool c.tmode + 2 * ofBool c.pmode + 4 * ofBool c.inTrap + 8 * ofBool c.ie + 16 * ofBool c.evpend + 32 * ofBool c.useT

/-- Table 8-2: the 27 words of a context record at offsets 0 to 0x68. -/
def Core.recWords (c : Core) : List Nat :=
  (c.g.drop 1).map (·.toNat) ++ [c.pc.toNat, c.status, c.epc.toNat, c.cause.toNat, c.tval.toNat, c.tinst.toNat,
    c.scratch0.toNat, c.scratch1.toNat,
    c.evmask + c.evsrc * 256 + ofBool c.evpend * 65536 + ofBool (c.run == .wfe) * 131072, c.cycle.toNat,
    (match c.imp with | some (sg, _, _) => 1 + sg * 256 | none => 0),
    (match c.imp with | some (_, o, _) => o | none => 0)]

/-- R153: FRAME writes a context record through the bank's port. -/
def State.saveRec (s : State) (n : Nat) (c : Core) : State :=
  let a := s.ctxAddr n
  if !s.sparOk a then s else
  let bs := c.recWords.flatMap (fun w => leBytes w 4) ++ List.replicate 20 0#8
  (List.range 16).foldl (fun s i => s.ncWrite (a + 8 * i) ((bs.drop (8 * i)).take 8)) s

/-- R145: the initial context: all zeros but STATUS.MODE = 1. -/
def State.initRec (s : State) (n : Nat) : State := s.saveRec n { ({} : Core) with tmode := true, vbase := 0#32 }

/-- Word `i` (0 to 31) of a slot's record. -/
def State.recWord (s : State) (n i : Nat) : Nat := (s.ncWord (s.ctxAddr n + 4 * i)).1

/-- R144, R153: FRAME reads a slot's record into a core's context registers. -/
def State.loadRec (s : State) (n : Nat) (c : Core) : Core :=
  let w := fun i => BitVec.ofNat 32 (s.recWord n i)
  let st := s.recWord n 16
  let ev := s.recWord n 23
  { c with
    g := 0#32 :: (List.range 15).map w
    pc := w 15
    tmode := bit st 0, pmode := bit st 1, inTrap := bit st 2, ie := false, useT := bit st 5
    epc := w 17, cause := w 18, tval := w 19, tinst := w 20, scratch0 := w 21, scratch1 := w 22
    evmask := bits ev 0 6, evsrc := bits ev 8 6, evpend := bit ev 16
    imp := if bit (s.recWord n 25) 0 then some (bits (s.recWord n 25) 8 3, s.recWord n 26, (s.slot n).impT) else none }

/-- The core a slot is dispatched on. -/
def State.coreOf (s : State) (n : Nat) : Option Nat := (List.range 5).find? (fun c => (s.core c).slot == some n)

/-- Set a general register; writes to g0 are discarded (R113). -/
def Core.setG (c : Core) (r : Nat) (v : Word) : Core := if r = 0 then c else { c with g := c.g.set r v }

/-- Read a general register; g0 reads 0 (R113). -/
def Core.getG (c : Core) (r : Nat) : Word := if r = 0 then 0#32 else c.g.getD r 0#32

/-- A wait ends: its register takes the value and the core goes on behind the instruction (R136, R137). -/
def Core.endWait (c : Core) (v : Word) : Core :=
  { c.setG c.waitRd v with run := .running, pc := c.pc + 4#32 }

/-- R136, R137: an enabled event fires for the context on a core: EVPEND and EVSRC are set; a WFE takes them and ends; a WFT
ends with reason 1. -/
def Core.event (c : Core) (i : Nat) : Core :=
  if !bit c.evmask i then c else
  let c1 := { c with evpend := true, evsrc := setBit c.evsrc i true }
  match c.run with
  | .wfe => { c1.endWait (BitVec.ofNat 32 c1.evsrc) with evpend := false, evsrc := 0 }
  | .wft => c1.endWait 1#32
  | _ => c1

/-- R136, R150: an event for a slot that is not dispatched is held in its saved EVPEND; it makes a PARKED slot READY. -/
def State.eventSaved (s : State) (n i : Nat) : State :=
  let a := s.ctxAddr n + 0x5C
  let w := s.recWord n 23
  if !s.sparOk a || !bit w i then s else
  let s1 := s.ncWrite a (leBytes (setBit (setBit w (8 + i) true) 16 true) 4)
  if (s1.slot n).state = 3 then s1.setSlot n { s1.slot n with state := 1, wfeOrder := none } else s1

/-- An event of source `i` for a context: 64 is the CC, 0 to 63 a run-table slot. -/
def State.event (s : State) (ctx i : Nat) : State :=
  if ctx = 64 then s.setCore 0 ((s.core 0).event i)
  else match s.coreOf ctx with
    | some c =>
      let s1 := s.setCore c ((s.core c).event i)
      if (s.core c).run == .wfe && (s1.core c).run != .wfe then s1.setSlot ctx { s1.slot ctx with wfeOrder := none } else s1
    | none => s.eventSaved ctx i

/-- The slots of a tenant. -/
def State.slotsOf (s : State) (t : Nat) : List Nat := (List.range 64).filter (fun n => s.slotTenant n == t)

/-- R136: an enabled event source fires for a context. -/
def execEvpend (ctx : Fin 65) (source : Fin 6) (s : State) : Out := .next (s.event ctx source)

/-- R160: event source 1 on every slot of a tenant that enables it. -/
def State.postEvent (s : State) (t : Nat) : State := (s.slotsOf t).foldl (fun s n => s.event n 1) s

end Sys2Proof.Machine
end

