-- ==== Sys2Proof/Machine/Lock.lean ====
section
/-! DEFINITION. LOCK: cleats, waits, leases, priority inheritance and wait-cycle breaking (R221–R237). -/
namespace Sys2Proof.Machine

/-- R224: the free values. -/
def freeValue (v : Nat) : Bool := v = 0 || v = 0xFFFFFFFE || v = 0xFFFFFFFF

/-- R223: a context's token. -/
def State.token (s : State) (ctx : Nat) : Nat := 0x01000000 + 256 * s.ctxTenant ctx + ctx

/-- R222: a tenant's rights to a group. -/
def State.rights (s : State) (g t : Nat) : Bool :=
  if t < 32 then bit (s.reg (fk (0x40006100 + 0x10 * g) 0)) t else bit (s.reg (fk (0x40006104 + 0x10 * g) 0)) (t - 32)

/-- Replace the wait record of a context. -/
def State.setWait (s : State) (w : WaitRec) : State :=
  { s with lock := { s.lock with waits := s.lock.waits.map (fun x => if x.ctx = w.ctx then w else x) } }

/-- Remove the wait record of a context. -/
def State.dropWait (s : State) (ctx : Nat) : State :=
  { s with lock := { s.lock with waits := s.lock.waits.filter (fun x => x.ctx != ctx) } }

/-- The core on which a context's WAIT read is stalled. -/
def State.stalledOn (s : State) (ctx : Nat) : Option Nat :=
  (List.range 5).find? (fun c => (s.core c).run == .lockWait && s.ctxOf c == ctx)

/-- R227, R229: a wait record completes: a stalled read returns the code; otherwise the record keeps it for the reissue. -/
def State.completeWait (s : State) (w : WaitRec) (code : Nat) : State :=
  match s.stalledOn w.ctx with
  | some c => (s.dropWait w.ctx).setCore c ((s.core c).endWait (BitVec.ofNat 32 code))
  | none => s.setWait { w with result := some code }

/-- R224, R231: a context becomes the holder and the lease starts. -/
def State.hold (s : State) (c v ctx : Nat) : State :=
  let l := s.reg (fk (0x40006108 + 0x10 * (c / 16)) 0)
  s.setCleat c { value := v, holder := some ctx, lease := l, load := l }

/-- R225: event source 4 to every context whose tenant has rights to the group, and to the CC. -/
def State.cleatEvent (s : State) (c : Nat) : State :=
  (((List.range 64).filter (fun n => s.rights (c / 16) (s.slotTenant n))).foldl (fun s n => s.event n 4) (s.event 64 4)).irq 7

/-- The records that wait on a cleat. -/
def State.waitersOf (s : State) (c : Nat) : List WaitRec := s.lock.waits.filter (fun w => w.cleat == c && w.result.isNone)

/-- R228: the first waiter: the highest effective priority, then the earliest wait. -/
def State.firstWaiter (s : State) (c : Nat) : Option WaitRec :=
  (s.waitersOf c).foldl (fun best w => match best with
    | none => some w
    | some b =>
      if s.effPrio b.ctx < s.effPrio w.ctx || (s.effPrio b.ctx == s.effPrio w.ctx && decide (w.order < b.order)) then some w
      else some b) none

/-- R224, R225: a held cleat takes a free value: 0 grants the first waiter; reset and expired complete every waiter. -/
def State.freeCleat (s : State) (c v : Nat) : State :=
  let s1 := s.setCleat c { value := v }
  if v = 0 then
    match s1.firstWaiter c with
    | some w => (s1.hold c (s1.token w.ctx) w.ctx).completeWait w 0
    | none => s1.cleatEvent c
  else
    ((s1.waitersOf c).foldl (fun s w => s.completeWait w (if v = 0xFFFFFFFE then 0x80000002 else 0x80000003)) s1).cleatEvent c

/-- R224: an access by a context writes a value. -/
def State.cleatWrite (s : State) (c ctx v : Nat) (swap : Bool) : State :=
  let x := s.cleat c
  match freeValue x.value, freeValue v with
  | true, true => s.setCleat c { x with value := v }
  | true, false => s.hold c v ctx
  | false, true => s.freeCleat c v
  | false, false => if swap && x.holder != some ctx then s.hold c v ctx else s.setCleat c { x with value := v }

/-- How an access to LOCK ends. -/
inductive LockRes where
  | data (v : Nat) | busErr | stall
  deriving DecidableEq, Repr

/-- An access LOCK completes as BUS_ERR is counted (R222, R239). -/
def State.lockErr (s : State) : LockRes × State := (.busErr, s.count (fk 0x4000601C 0) 16 1)

/-- R222: the access is permitted: M mode always, T mode by its tenant's rights; R165: none with the tag of a tenant being reset. -/
def State.cleatOk (s : State) (c ctx : Nat) (tmode : Bool) : Bool :=
  !s.fenced ctx && (!tmode || s.rights (c / 16) (s.ctxTenant ctx))

/-- Table 10-3: the INFO word. -/
def State.cleatInfo (s : State) (c : Nat) : Nat :=
  let x := s.cleat c
  let w := s.waitersOf c
  (x.holder.getD 127) + (x.holder.elim 0 s.ctxTenant) * 256 + min w.length 127 * 65536 + ofBool (x.lease ≠ 0) * 2 ^ 23 +
    (if x.holder.elim true (· == 64) then 0 else w.foldl (fun p r => max p (s.effPrio r.ctx)) 0) * 2 ^ 24

/-- The wait record of a context on a cleat. -/
def State.waitRec (s : State) (c ctx : Nat) : Option WaitRec := s.lock.waits.find? (fun w => w.ctx == ctx && w.cleat == c)

/-- Table 10-3, R227: an LDW of a cleat word. A read that reissues a recorded wait goes on with it whatever the rights have become
(R222, R229). -/
def State.cleatLoad (s : State) (c word ctx : Nat) (tmode : Bool) : LockRes × State :=
  if !s.cleatOk c ctx tmode && !(word == 1 && (s.waitRec c ctx).isSome) then s.lockErr else
  let x := s.cleat c
  match word with
  | 0 => (.data x.value, s)
  | 1 =>
    match s.waitRec c ctx with
    | some w =>
      match w.result with
      | some r => (.data r, s.dropWait ctx)
      | none => (.stall, s)
    | none =>
      if x.value = 0 then (.data 0, s.hold c (s.token ctx) ctx)
      else if x.value = 0xFFFFFFFE then (.data 0x80000002, s)
      else if x.value = 0xFFFFFFFF then (.data 0x80000003, s)
      else if x.holder = some ctx then (.data 0x80000005, s)
      else
        let s1 := s.dropWait ctx
        (.stall, { s1 with lock := { s1.lock with
          waits := s1.lock.waits ++ [{ ctx := ctx, cleat := c, order := s1.lock.order }], order := s1.lock.order + 1 } })
  | 2 => (.data x.lease, s)
  | _ => (.data (s.cleatInfo c), s)

/-- Table 10-3: an STW to a cleat word. -/
def State.cleatStore (s : State) (c word ctx v : Nat) (tmode : Bool) : LockRes × State :=
  if !s.cleatOk c ctx tmode then s.lockErr else
  let x := s.cleat c
  match word with
  | 0 =>
    if x.holder = some ctx || freeValue x.value || ctx = 64 then (.data 0, s.cleatWrite c ctx v false) else s.lockErr
  | 2 => if x.holder = some ctx then (.data 0, s.setCleat c { x with lease := x.load }) else s.lockErr
  | _ => s.lockErr

/-- Table 10-3: an ACAS on a cleat word returns the old value. -/
def State.cleatSwap (s : State) (c word ctx expected v : Nat) (tmode : Bool) : LockRes × State :=
  if !s.cleatOk c ctx tmode || word != 0 then s.lockErr else
  let old := (s.cleat c).value
  (.data old, if old = expected then s.cleatWrite c ctx v true else s)

/-- R229: records still waiting of a context are removed without completing. -/
def State.withdraw (s : State) (ctx : Nat) : State :=
  { s with lock := { s.lock with waits := s.lock.waits.filter (fun w => w.ctx != ctx || w.result.isSome) } }

/-! ### Leases (R231) -/

/-- A lease counter reaches its end. -/
def State.leaseExpires (s : State) (c : Nat) : State :=
  let x := s.cleat c
  let h := x.holder.getD 64
  let t := s.ctxTenant h
  ((s.freeCleat c 0xFFFFFFFF).count (fk 0x40006014 16) 16 1).raise
    { cls := 1, source := 6, tenant := t, code := 1, address := 0x50000000 + 16 * c, segment := 6, detail := [c, h] }

/-- At a latch edge every running lease counts; the last count expires it. -/
def State.leaseTick (s : State) : State :=
  (List.range 256).foldl (fun s c =>
    let x := s.cleat c
    if x.lease = 0 then s
    else if x.lease = 1 then s.leaseExpires c
    else s.setCleat c { x with lease := x.lease - 1 }) s

/-! ### Wait time-outs (R230) -/

/-- At a latch edge every wait not granted counts a tick; the fourth completes it with WAIT_TIMEOUT. -/
def State.waitTick (s : State) : State :=
  s.lock.waits.foldl (fun s w =>
    if w.result.isSome then s
    else if 4 ≤ w.ticks + 1 then s.completeWait { w with ticks := 4 } 0x80000001
    else s.setWait { w with ticks := w.ticks + 1 }) s

/-! ### Wait cycles (R234–R237) -/

/-- A context waits in WFE: running or PARKED, with its EVMASK; never the CC. -/
def State.wfeMask (s : State) (n : Nat) : Option Nat :=
  match s.coreOf n with
  | some c => if (s.core c).run == .wfe then some (s.core c).evmask else none
  | none => if (s.slot n).state = 3 then some (bits (s.recWord n 23) 0 6) else none

/-- The cleat a context has a wait record on. -/
def State.waitsOn (s : State) (ctx : Nat) : Option Nat :=
  (s.lock.waits.find? (fun w => w.ctx == ctx && w.result.isNone)).map (·.cleat)

/-- R234: a context meets conditions 1 to 4 for a set. A slot that is HELD or HALTED is not waiting. -/
def State.qualifies (s : State) (set : List Nat) (x : Nat) : Bool :=
  if x != 64 && ((s.slot x).state == 5 || (s.slot x).state == 6) then false else
  match s.waitsOn x with
  | some c => (s.cleat c).holder.elim false set.contains
  | none =>
    if x = 64 then false else
    match s.wfeMask x with
    | none => false
    | some m =>
      let t := s.slotTenant x
      let groups := (List.range 16).filter (fun g => s.rights g t)
      !bit m 1 && !bit m 2 && !bit m 3 && !bit m 5 &&
      (!bit m 0 || (s.slotsOf t).all (fun n => !s.slotEn n || set.contains n)) &&
      (!bit m 4 || ((List.range 64).all (fun n =>
          !(s.slotEn n && groups.any (fun g => s.rights g (s.slotTenant n))) || set.contains n) &&
        (List.range 256).all (fun c => !groups.contains (c / 16) || (s.cleat c).lease = 0)))

/-- R234, R235: the union of every set that qualifies: what is left when contexts that do not qualify are removed until none
is. -/
def State.cycleSet (s : State) : Nat → List Nat → List Nat
  | 0, set => set
  | n + 1, set =>
    let set' := set.filter (s.qualifies set)
    if set'.length = set.length then set else s.cycleSet n set'

/-- The set that is in a wait cycle now. -/
def State.waitCycle (s : State) : List Nat := s.cycleSet 65 (List.range 65)

/-- When a context's wait began. -/
def State.waitOrder (s : State) (ctx : Nat) : Nat :=
  match s.lock.waits.find? (fun w => w.ctx == ctx && w.result.isNone) with
  | some w => w.order
  | none => (s.slot ctx).wfeOrder.getD 0

/-- R236: the PRIO that chooses: the field's; 8 for the CC. -/
def State.breakPrio (s : State) (ctx : Nat) : Nat := if ctx = 64 then 8 else s.slotPrio ctx

/-- R236: the waiter released: lowest PRIO, then the latest wait, then the higher number. -/
def State.victim (s : State) (set : List Nat) : Option Nat :=
  set.foldl (fun best x => match best with
    | none => some x
    | some b =>
      if s.breakPrio x < s.breakPrio b || (s.breakPrio x == s.breakPrio b && decide (s.waitOrder b ≤ s.waitOrder x))
      then some x else some b) none

/-- LOCK_CFG and LOCK counters change together at a release (R237). -/
def State.breakReport (s : State) (x size cl : Nat) : State :=
  let last := x + size * 256 + cl * 65536 + min (s.breakPrio x) 7 * 2 ^ 24
  let s1 := s.count (fk 0x40006014 0) 16 1
  let s2 := ((s1.setReg (fk 0x40006018 0) (bits last 0 7)).setReg (fk 0x40006018 8) (bits last 8 7)).setReg
    (fk 0x40006018 16) (bits last 16 8)
  (s2.setReg (fk 0x40006018 24) (bits last 24 3)).raise
    { cls := 1, source := 6, tenant := s.ctxTenant x, code := 2, segment := 6, detail := [x, size, cl, s.breakPrio x] }

end Sys2Proof.Machine
end

