-- ==== Sys2Proof/Machine/Jobs.lean ====
section
/-! DEFINITION. SFU job descriptors and the table slots that accepted jobs use (R335, R336, R347): what the dispatcher, the store
buffers and the SFU share. -/
namespace Sys2Proof.Machine

/-- An SFU place. -/
def State.job (s : State) (p : Nat) : Job := Tab.get (fun _ => {}) s.sfu p
def State.setJob (s : State) (p : Nat) (j : Job) : State := { s with sfu := Tab.set (fun _ => {}) s.sfu p j }
/-- Table 15-2: a descriptor's fields. -/
structure JobDesc where
  op : Nat
  slot : Nat
  n : Nat
  srcSeg : Nat
  dstSeg : Nat
  eps : Nat
  src : Nat
  dst : Nat
  res : Nat
  /-- Every must-be-0 byte and bit is 0, and SLOT and EPS are as Table 15-2 allows. -/
  clean : Bool
  deriving DecidableEq, Repr

def hasRow (op : Nat) : Bool := op = 6 || op = 7 || op = 8

def jobDesc (d : List Byte) : JobDesc :=
  let op := byteAt d 0
  let eps := leAt d 6 2
  { op := op, slot := byteAt d 1 % 16, n := leAt d 2 2, srcSeg := byteAt d 4 % 8, dstSeg := byteAt d 5 % 8, eps := eps,
    src := leAt d 8 4, dst := leAt d 12 4, res := leAt d 16 4,
    clean := (if op = 8 then byteAt d 1 < 16 else byteAt d 1 = 0) && byteAt d 4 < 8 && byteAt d 5 < 8 &&
      (if op = 7 then eps < 32768 else eps = 0) && (hasRow op || leAt d 12 4 = 0) && leAt d 20 8 = 0 && leAt d 28 4 = 0 }

/-- The table slots an operation uses (R336 check 6). -/
def JobDesc.slots (d : JobDesc) : List Nat :=
  match d.op with
  | 5 => [0, 1]
  | 6 => [0]
  | 7 => [2]
  | 8 => [d.slot]
  | _ => []

/-- R347: an accepted job uses a slot. -/
def State.slotUsed (s : State) (k : Nat) : Bool :=
  (List.range 6).any (fun p => (s.job p).busy && (jobDesc (s.job p).desc).slots.contains k)

/-- The slot of a table address. -/
def tableSlot (a : Nat) : Nat := (a - 0x60000000) / 0x1000

/-- R347: a 32-bit word inside the image of slots 8 to 15. -/
def tableWritable (a : Nat) : Bool :=
  regionOf a == .table && a % 4 == 0 && decide (8 ≤ tableSlot a ∧ (a - 0x60000000) % 0x1000 < 0xC10)

end Sys2Proof.Machine
end

