-- ==== Sys2Proof/Machine/Cores.lean ====
section
/-! DEFINITION. What the cores share: segment descriptors and their checks (R114–R118), trap entry and return (R123–R128), and
the store buffer's drain (R127, R130). -/
namespace Sys2Proof.Machine

/-- The register base of a core (R141): 0 the CC, 1 to 4 TC0 to TC3. -/
def coreBase (c : Nat) : Nat := if c = 0 then 0x40019000 else 0x4001A000 + 0x100 * (c - 1)

/-! ### Segments -/

/-- R116: a 16-byte descriptor as LDSEG loads it: INVALID when malformed. -/
def segOf (d : List Byte) : Seg :=
  let w := fun i => leAt d (4 * i) 4
  let base := w 0
  let limit := bits (w 1) 0 24
  let typ := bits (w 1) 24 4
  if base % 8 ≠ 0 || 5 ≤ typ || bits (w 2) 8 2 = 3 || bits (w 2) 10 22 ≠ 0 || bits (w 2) 6 2 ≠ 0 || w 3 ≠ 0 ||
      2 ^ 32 ≤ base + limit then {}
  else { base := base, limit := limit, typ := typ, rights := bits (w 1) 28 4, tag := bits (w 2) 0 6, cache := bits (w 2) 8 2 }

/-- Table 7-3: a core's machine set after a reset of its domain. -/
def resetMset (c : Nat) : List Seg :=
  [{ base := 0, limit := 0x1FFFF, typ := 1, rights := 0xA },
   if c = 0 then { base := 0x10000000, limit := 0xFFFFF, typ := 1, rights := 0xD } else {},
   { base := 0x11000000, limit := 0xFFFF, typ := 1, rights := 0xC }, {}, {}, {}, {},
   { base := 0x40000000, limit := 0x3FFFF, typ := 2, rights := 0xC }]

/-- R110, R111, R119, R140: a core after a reset of its domain: the CC runs from ROM offset 0 in M mode, a tenant core is
stopped. -/
def resetCore (c : Nat) : Core :=
  { run := if c = 0 then .running else .stopped, mset := resetMset c }

/-- R115: the segment set a data access uses. -/
def Core.dataSet (c : Core) : List Seg := if c.tmode || c.useT then c.tset else c.mset

/-- R115: the code segment. -/
def Core.codeSeg (c : Core) : Seg := (if c.tmode then c.tset else c.mset).headD {}

/-- R117: the first failing check of an access of `n` bytes at an offset, by its trap code; `need` is the rights it needs. -/
def checkSeg (sg : Seg) (tmode : Bool) (tenant need off n : Nat) (align : Bool) : Option Nat :=
  if sg.typ = 0 || sg.rights &&& need != need || (tmode && sg.tag != tenant) then some 2
  else if sg.limit < off + n - 1 then some 1
  else if align && off % n ≠ 0 then some 4
  else none

/-- R118: the access completes as BUS_ERR at its physical address; `wr` for a write. -/
def State.busErrAt (s : State) (sg : Seg) (a : Nat) (wr : Bool) : Bool :=
  let r := regionOf a
  match r with
  | .regs => sg.typ != 2 || !(s.isUp 5) || !s.addrOn a
  | .cat _ => sg.typ != 3 || !s.regionOn r
  | .cleat _ => sg.typ != 4 || !s.regionOn r
  | .rom | .nor => wr || !s.regionOn r
  | _ => !s.regionOn r

/-! ### Traps -/

/-- R123: trap entry: EPC, CAUSE, TVAL and TINST are set, PMODE takes MODE, MODE becomes M, IN_TRAP 1, USE_T is cleared, and
the core goes to an offset of machine s0. -/
def Core.enter (c : Core) (cause tval tinst vec : Word) : Core :=
  { c with run := .running, epc := c.pc, cause := cause, tval := tval, tinst := tinst, pmode := c.tmode, tmode := false,
           inTrap := true, useT := false, pc := vec }

/-- R126: TRET. The CC stays in M mode (R111). -/
def Core.tret (c : Core) : Core := { c with pc := c.epc, tmode := c.pmode, inTrap := false }

/-- The instruction word at a core's PC, as memory holds it (TINST of a trap that no fetched instruction raises). -/
def State.wordAtPc (s : State) (c : Nat) : Word :=
  let a := (s.core c).codeSeg.base + (s.core c).pc.toNat
  if s.regionOn (regionOf a) then BitVec.ofNat 32 (s.ncWord a).1 else 0#32

/-- Table 7-10: the trap is counted and its CAUSE, EPC and TINST are kept for reading. -/
def State.logTrap (s : State) (c : Nat) (cause epc tinst : Word) (counts : Bool) : State :=
  let b := coreBase c
  let s1 := if counts then s.count (fk (b + 0x08) 0) 16 1 else s
  ((s1.setReg (fk (b + 0x14) 0) cause.toNat).setReg (fk (b + 0x18) 0) epc.toNat).setReg (fk (b + 0x1C) 0) tinst.toNat

/-- R128: a synchronous trap while IN_TRAP is 1: a tenant core halts its context with a TENANT_FATAL record, and FATAL_ACT
asks for a tenant reset (R163); on the CC it is DEVICE_FATAL. -/
def State.nested (s : State) (c : Nat) (cause tval tinst : Word) : State :=
  let x := s.core c
  let ctx := s.ctxOf c
  let t := s.ctxTenant ctx
  let r : ErrRec :=
    { cls := if c = 0 then 3 else 2, source := if c = 0 then 0x19 else 0x1A, tenant := t, code := 0x8002, seq := ctx,
      address := tval.toNat, offset := x.pc.toNat, segment := bits cause.toNat 8 3,
      detail := [bits cause.toNat 0 8, bits cause.toNat 11 1, 0] ++ (leBytes tinst.toNat 4).map (·.toNat) }
  let s1 := s.logTrap c cause x.pc tinst false
  if c = 0 then s1.raise r
  else
    let s2 := (s1.setCore c { x with run := .halted }).setSlot ctx { s1.slot ctx with state := 6, wfeOrder := none }
    let s3 := (s2.withdraw ctx).raise r
    if s3.flag (fk (0x40015100 + 4 * t) 2) && ctx != 64 then
      { s3 with ten := { s3.ten with waiting := s3.ten.waiting ++ [t] } } else s3

/-- R123, R128: a precise trap of the instruction at PC. -/
def State.trap (s : State) (c code seg tval : Nat) (tinst : Word) : State :=
  let x := s.core c
  let cause := BitVec.ofNat 32 (code + seg * 256)
  if x.inTrap then s.nested c cause (BitVec.ofNat 32 tval) tinst
  else (s.logTrap c cause x.pc tinst true).setCore c (x.enter cause (BitVec.ofNat 32 tval) tinst x.vbase)

/-- R127: the pending imprecise BUS_ERR is due: the core is in the mode that issued the store. -/
def Core.impDue (c : Core) : Bool := c.imp.elim false (fun e => e.2.2 == c.tmode)

/-- R127: the imprecise trap. -/
def State.takeImp (s : State) (c : Nat) : State :=
  let x := s.core c
  match x.imp with
  | some (sg, off, _) =>
    let w := s.wordAtPc c
    let cause := BitVec.ofNat 32 (0x0A + sg * 256 + 2048)
    let x1 := { x with imp := none, run := .running }
    (s.logTrap c cause x.pc w true).setCore c (x1.enter cause (BitVec.ofNat 32 off) w x.vbase)
  | none => s

/-! ### The store buffer -/

/-- R127: a store that has left the buffer meets a bus error: it is held, or, when one is already held, lost with a CORRECTED
record. A store of a context that has left the core is held in that context's record (R133). The error of a context whose tenant
is being reset is discarded (R165). -/
def State.storeErr (s : State) (c : Nat) (e : SbEnt) : State :=
  let lost : ErrRec := { cls := 0, source := if c = 0 then 0x19 else 0x1A, tenant := s.ctxTenant e.ctx, code := 0x8001,
                         seq := e.ctx, address := e.addr, offset := e.off, segment := e.segNo }
  if s.fenced e.ctx then s
  else if e.ctx = s.ctxOf c then
    let x := s.core c
    if x.imp.isSome then s.raise lost else s.setCore c { x with imp := some (e.segNo, e.off, e.tmode) }
  else
    let a := s.ctxAddr e.ctx + 0x64
    if bit (s.recWord e.ctx 25) 0 then s.raise lost
    else if s.sparOk a then
      (((s.ncWrite a (leBytes (1 + e.segNo * 256) 4)).ncWrite (a + 4) (leBytes e.off 4))).setSlot e.ctx
        { s.slot e.ctx with impT := e.tmode }
    else s

/-- R159: a write to the DOORBELL word of mailbox t sets bit t of TEN_MBOX_PEND. -/
def State.doorbell (s : State) (a : Nat) : State :=
  if a < 0x11008000 && (a - 0x11000000) % 0x200 < 4 then
    let t := (a - 0x11000000) / 0x200
    let s1 : State := s.setReg (fk (0x40015308 + 4 * (t / 32)) 0) (setBit (s.reg (fk (0x40015308 + 4 * (t / 32)) 0)) (t % 32) true)
    { s1 with cyn := { s1.cyn with taken := setBit s1.cyn.taken t false } }
  else s

/-- A write by any master to a memory that holds plain bytes: spar banks through the hub, XRAM with its doorbells, and the table
memory. -/
def State.memWrite (s : State) (a : Nat) (bs : List Byte) : State :=
  match regionOf a with
  | .spar _ => s.ncWrite a bs
  | .xram => (s.wrBytes a bs).doorbell a
  | _ => s.wrBytes a bs

/-- Table 9-3, R196: a write of the CC to the probe cache: the directory is its own, the map-fail list only while SUMMARY_VALID
is 0; the summary is the CAT controller's and the reserved bytes read 0, so a write to them changes nothing (log entry 145). -/
def State.pcacheWrite (s : State) (a : Nat) (bs : List Byte) : State :=
  let own := fun a => decide (0x12004000 ≤ a) || (decide (0x12003F00 ≤ a ∧ a < 0x12003F40) && !s.flag kSummaryValid)
  ((List.range bs.length).zip bs).foldl (fun s p => if own (a + p.1) then s.wr (a + p.1) p.2 else s) s

/-- R130: one entry drains: into the data cache, to memory, or into the catalog write buffer; `none` when it must wait for room
there, or for the jobs that use a table slot (R347). A store that goes to a register or to LOCK leaves the buffer in
`State.drainEntry`, behind the register bus. -/
def State.drainEnt (s : State) (c : Nat) (e : SbEnt) : Option State :=
  let bs := leBytes e.data e.size
  let sg : Seg := { typ := e.typ }
  if s.busErrAt sg e.addr true then some (s.storeErr c e)
  else match regionOf e.addr with
    | .spar _ =>
      if e.typ = 1 && e.cache = 0 then
        let s1 := if ((s.core c).line (lineOf e.addr)).elim false (·.dirty) then s else s.own c (lineOf e.addr)
        match (s1.core c).line (lineOf e.addr) with
        | some l => some (s1.setCore c ((s1.core c).putLine (l.patch e.addr bs)))
        | none => some s1
      else if e.typ = 1 && e.cache = 1 then some (s.writeThrough c e.addr bs)
      else some (s.ncWrite e.addr bs)
    | .cat _ =>
      let off := e.addr - 0x20000000
      let t := s.ctxTenant e.ctx
      let r := if c = 0 then s.wbAccept .cc off bs (s.ccTag off)
        else s.wbAccept (.tenant t) off bs (tagEnt t e.segNo e.off 0 0 0)
      match r with
      | (.full, _) => none
      | (.busErr, s1) => some (s1.storeErr c e)
      | (_, s1) => some s1
    | .table =>
      if c = 0 && e.size = 4 && tableWritable e.addr then
        (if s.slotUsed (tableSlot e.addr) then none else some (s.wrBytes e.addr bs))
      else some (s.storeErr c e)
    | .regs | .cleat _ => none
    | .unmapped | .rom | .nor => some (s.storeErr c e)
    | .pcache => some (if c = 0 then s.pcacheWrite e.addr bs else s)
    | _ => some (s.memWrite e.addr bs)

/-- R130: the oldest entry drains, where it goes to memory. -/
def State.drain1 (s : State) (c : Nat) : Option State :=
  match (s.core c).sb with
  | [] => none
  | e :: rest => (s.drainEnt c e).map (fun s1 => s1.setCore c { s1.core c with sb := rest })

/-- The store buffer drains in order for up to `n` entries, as far as they go to memory. -/
def State.drainN (s : State) (c : Nat) : Nat → State
  | 0 => s
  | n + 1 => match s.drain1 c with
    | some s1 => s1.drainN c n
    | none => s

/-- The whole store buffer drains, as far as its entries go to memory and the catalog write buffer takes them. -/
def State.drainAll (s : State) (c : Nat) : State := s.drainN c 4

end Sys2Proof.Machine
end

