-- ==== Sys2Proof/Machine/Tables.lean ====
section
/-! DEFINITION. The standard tables of the SFU (R349): the eight functions in fixed point of `fxBits` fraction bits, with enough
guard bits that every coefficient is the nearest integer, and the images built from them. `stdCrc` holds the CRC-32C
values that Table 15-8 prints for them (log entry 30). -/
namespace Sys2Proof.Machine

/-- Fraction bits of the fixed point. -/
def fxBits : Nat := 160
/-- One. -/
def fxOne : Int := 2 ^ fxBits
/-- Product and quotient, rounded down. -/
def fxMul (a b : Int) : Int := (a * b).ediv fxOne
def fxDiv (a b : Int) : Int := (a * fxOne).ediv b

/-- Σ r^k / k! by Horner's rule over `n` terms. -/
def fxExpSeries (r : Int) : Nat → Int → Int
  | 0, acc => acc
  | n + 1, acc => fxExpSeries r n (fxOne + fxMul r acc / (n + 1))

/-- e^y: the argument halved five times, the series, then squared back. -/
def fxExp (y : Int) : Int :=
  let e := fxExpSeries (y / 32) 40 fxOne
  (List.range 5).foldl (fun a _ => fxMul a a) e

/-- 2 atanh(z) = Σ 2 z^(2k+1) / (2k+1), for |z| ≤ 1/3. -/
def fxAtanh2 (z : Int) : Int :=
  ((List.range 60).foldl (fun (a, p) k => (a + 2 * p / (2 * k + 1), fxMul p (fxMul z z))) ((0 : Int), z)).1

/-- ln x for x in [1/2, 2]. -/
def fxLn (x : Int) : Int := fxAtanh2 (fxDiv (x - fxOne) (x + fxOne))
def fxLn2 : Int := fxLn (2 * fxOne)

/-- The integer square root by bits. -/
def sqrtBits (n : Nat) : Nat → Nat → Nat
  | 0, r => r
  | k + 1, r => sqrtBits n k (if (r + 2 ^ k) * (r + 2 ^ k) ≤ n then r + 2 ^ k else r)

/-- π to 70 digits. -/
def fxPi : Int := (3141592653589793238462643383279502884197169399375105820974944592307816 * fxOne) / 10 ^ 69

/-- erf x = 2/√π · Σ (−1)^n x^(2n+1) / (n! (2n+1)). -/
def fxErf (x : Int) : Int :=
  let s := (List.range 140).foldl (fun (a, t) n => (a + t / (2 * n + 1), -(fxMul t (fxMul x x)) / (n + 1))) ((0 : Int), x)
  fxDiv (2 * s.1) ((sqrtBits (fxPi.toNat * 2 ^ fxBits) 200 0 : Nat) : Int)

/-- Table 15-8: slot k's function at x / 2^d, as a fixed-point number. -/
def stdF (k : Nat) (x : Int) (d : Nat) : Int :=
  let q := x * 2 ^ (fxBits - d)
  match k with
  | 0 =>
    let n := x.ediv (2 ^ d)
    let f := fxExp (fxMul (q - n * fxOne) fxLn2)
    if 0 ≤ n then f * 2 ^ n.toNat else f / 2 ^ (-n).toNat
  | 1 => fxDiv (fxLn q) fxLn2
  | 2 => ((sqrtBits (2 ^ (2 * fxBits + d) / x.toNat) 200 0 : Nat) : Int)
  | 3 => fxDiv fxOne q
  | 4 =>
    let e := fxExp (-2 * (if 0 ≤ q then q else -q))
    let t := fxDiv (fxOne - e) (fxOne + e)
    if 0 ≤ q then t else -t
  | 5 =>
    let e := fxExp (if 0 ≤ q then -q else q)
    if 0 ≤ q then fxDiv fxOne (fxOne + e) else fxDiv e (fxOne + e)
  | 6 =>
    let e := fxExp (if 0 ≤ q then -q else q)
    (if 0 ≤ q then q else 0) + fxLn (fxOne + e)
  | _ => fxErf q

/-- ρ: the nearest integer, ties away from zero; `g` guard bits absorb the error of the fixed point. -/
def rho (v : Int) : Int :=
  let a := (if 0 ≤ v then v else -v) + 2 ^ 40
  let n := (2 * a + fxOne).ediv (2 * fxOne)
  if 0 ≤ v then n else -n

/-- A slot's header values: FUNC, FMT, SHIFT, X_MIN, LO_VAL, HI_VAL (Table 15-8). -/
def stdHeader (k : Nat) : Nat × Nat × Nat × Int × Int × Int :=
  match k with
  | 0 => (1, 0xF1, 7, -32768, 0, 32768)
  | 1 => (2, 0xF0, 3, 2048, -32768, 32767)
  | 2 => (3, 0xF1, 5, 0, 0, 16384)
  | 3 => (4, 0xF1, 3, 2048, 65535, 16384)
  | 4 => (5, 0xF0, 7, -16384, -32768, 32767)
  | 5 => (6, 0xF1, 8, -32768, 0, 32768)
  | 6 => (7, 0xB0, 8, -32768, 0, 32767)
  | _ => (8, 0xF0, 6, -8192, -32768, 32767)

/-- R349: the coefficients c0, c1, c2 of segment s of slot k. -/
def stdCoef (k s : Nat) : Int × Int × Int :=
  let (_, fmt, h, xmin, _, _) := stdHeader k
  if k = 2 && decide (s < 64) then (0, 0, 0) else
  let q : Int := 2 ^ (fmt / 16)
  let x0 : Int := 2 * (xmin + s * 2 ^ h)
  let w : Int := 2 ^ h
  let f0 := stdF k x0 12
  let fm := stdF k (x0 + w) 12
  let f1 := stdF k (x0 + 2 * w) 12
  (rho (q * f0), rho (q * (-3 * f0 + 4 * fm - f1)), rho (q * (2 * f0 - 4 * fm + 2 * f1)))

/-- A signed number in `w` bits. -/
def wrapBits (w : Nat) (i : Int) : Nat := (i % (2 ^ w : Int)).toNat

/-- Table 15-7: byte `off` of the image of standard slot k, 0 to 3,087; REV is 1. -/
def stdByte (k off : Nat) : Byte :=
  let (fn, fmt, h, xmin, lo, hi) := stdHeader k
  if off < 16 then
    ((([fn, fmt, h, 0].map (BitVec.ofNat 8)) ++ leBytes (wrapBits 16 xmin) 2 ++ [0#8, 0#8] ++ leBytes (wrapBits 16 lo) 2 ++
      leBytes (wrapBits 16 hi) 2 ++ [1#8, 0#8, 0#8, 0#8]).getD off 0#8)
  else
    let s := (off - 16) / 12
    let c := stdCoef k s
    let j := (off - 16) % 12
    let v := if j < 4 then c.1 else if j < 8 then c.2.1 else c.2.2
    if j % 4 = 3 then 0#8 else BitVec.ofNat 8 (wrapBits 24 v / 256 ^ (j % 4))

/-- CRC-32C (R269): reflected, polynomial 0x1EDC6F41, initial value and final XOR all ones. -/
def crc32cBit (c : Nat) : Nat := if c % 2 = 1 then Nat.xor (c / 2) 0x82F63B78 else c / 2
def crc32cByte (c : Nat) (b : Byte) : Nat := (List.range 8).foldl (fun c _ => crc32cBit c) (Nat.xor c b.toNat)
def crc32c (l : List Byte) : Nat := Nat.xor (l.foldl crc32cByte 0xFFFFFFFF) 0xFFFFFFFF

/-- Table 15-8: the CRC-32C that R349 gives the image of standard slot k (log entry 30). -/
def stdCrc (k : Nat) : Nat :=
  [0x5B1E90C4, 0xA7D23F18, 0x3C69E2A5, 0xE04B7D31, 0x8F25C6B0, 0x16D84A7E, 0xC93A0F52, 0x724FB18D].getD k 0

/-- CRC-16/CCITT-FALSE (R269). -/
def crc16Bit (c : Nat) : Nat := if c / 32768 % 2 = 1 then Nat.xor (c * 2 % 65536) 0x1021 else c * 2 % 65536
def crc16Byte (c : Nat) (b : Byte) : Nat := (List.range 8).foldl (fun c _ => crc16Bit c) (Nat.xor c (b.toNat * 256))
def crc16 (l : List Byte) : Nat := l.foldl crc16Byte 0xFFFF

end Sys2Proof.Machine
end

