-- ==== Sys2Proof/Machine/Sfu.lean ====
section
/-! DEFINITION. The statistics and function unit (R333–R351): jobs, their checks, the row operations, table lookup, table
memory. A job's elements are read, and its outputs written, at its end (R344, log entry 32). -/
namespace Sys2Proof.Machine

/-! ### Arithmetic (R334) -/

def rsh (a : Int) (n : Nat) : Int := (a + 2 ^ (n - 1)).ediv (2 ^ n)
def rdiv (a b : Int) : Int := (2 * a + b).ediv (2 * b)
def clampI (lo hi a : Int) : Int := max lo (min hi a)

/-! ### Bulk memory access by a non-caching master (R176) -/

/-- The line addresses that `n` bytes from an address touch. -/
def linesOf (a n : Nat) : List Nat := (List.range ((a + n + 31) / 32 - a / 32)).map (fun i => (a / 32 + i) * 32)

/-- `n` bytes read through the hub. -/
def State.ncReadN (s : State) (a n : Nat) : List Byte × State :=
  let s1 : State := (linesOf a n).foldl (fun s l => (s.ncRead l 32).2) s
  (s1.rdBytes a n, s1)

/-- Bytes written through the hub, or into XRAM word by word. -/
def State.ncWriteN (s : State) (a : Nat) (bs : List Byte) : State :=
  match regionOf a with
  | .spar _ => ((linesOf a bs.length).foldl (fun s l => s.snoopAll true noCore l) s).wrBytes a bs
  | .xram =>
    (List.range ((a + bs.length + 3) / 4 - a / 4)).foldl (fun s i => s.doorbell ((a / 4 + i) * 4)) (s.wrBytes a bs)
  | _ => s.wrBytes a bs

/-! ### Table memory (R346–R349) -/

def kStdReady : Key := fk 0x4000F000 0
def tableBase (k : Nat) : Nat := 0x60000000 + 0x1000 * k

/-- A byte of table memory: a standard image once rebuilt, the written content of slots 8 to 15, 0 in the reserved parts. Before
STD_READY the standard slots hold nothing the manual states: the second part says that the byte is free. -/
def State.tableByte (s : State) (a : Nat) : Byte × Bool :=
  let k := (a - 0x60000000) / 0x1000
  let off := (a - 0x60000000) % 0x1000
  if 0xC10 ≤ off then (0#8, false)
  else if 8 ≤ k then (s.rd a, false)
  else if s.flag kStdReady then (stdByte k off, false)
  else (0#8, true)

/-- `n` bytes of table memory. -/
def State.tableBytes (s : State) (a n : Nat) : List Byte × State :=
  if ((List.range n).any (fun i => (s.tableByte (a + i)).2)) then s.freeBytes n
  else ((List.range n).map (fun i => (s.tableByte (a + i)).1), s)

/-- Byte `off` of slot k's image as a job sees it. -/
def State.slotByte (s : State) (k off : Nat) : Nat := (s.tableByte (tableBase k + off)).1.toNat

/-- A slot's header: FUNC, UNS, SHIFT, X_MIN, LO_VAL, HI_VAL. -/
structure TabHead where
  func : Nat
  uns : Bool
  shift : Nat
  xmin : Int
  lo : Int
  hi : Int
  deriving DecidableEq, Repr

/-- A value as UNS has it. -/
def asFmt (uns : Bool) (v : Nat) : Int := if uns then v else sval 16 v

def State.tabHead (s : State) (k : Nat) : TabHead :=
  let b := s.slotByte k
  let uns := bit (b 1) 0
  { func := b 0, uns := uns, shift := b 2, xmin := sval 16 (b 4 + 256 * b 5), lo := asFmt uns (b 8 + 256 * b 9),
    hi := asFmt uns (b 10 + 256 * b 11) }

/-- R345: a slot is valid. -/
def TabHead.valid (h : TabHead) : Bool :=
  (decide (1 ≤ h.func ∧ h.func ≤ 8) || decide (0x80 ≤ h.func)) && decide (h.shift ≤ 15)

/-- A segment's coefficient. -/
def State.coef (s : State) (k seg j : Nat) : Int :=
  let b := fun i => s.slotByte k (16 + 12 * seg + 4 * j + i)
  sval 24 (b 0 + 256 * b 1 + 65536 * b 2)

/-- R345: LOOKUP(k, x), with the SAT mark of its sat. -/
def State.lookup (s : State) (k : Nat) (x : Int) : Int × Bool :=
  let h := s.tabHead k
  let u := x - h.xmin
  if u < 0 then (h.lo, false) else
  let seg := (u.ediv (2 ^ h.shift)).toNat
  if 256 ≤ seg then (h.hi, false) else
  let t := (u - seg * 2 ^ h.shift) * 2 ^ (15 - h.shift)
  let p := s.coef k seg 1 + rsh (s.coef k seg 2 * t) 15
  let y := s.coef k seg 0 + rsh (p * t) 15
  let r := if h.uns then clampI 0 65535 y else clampI (-32768) 32767 y
  (r, r != y)

/-! ### Row operations (R338–R343) -/

/-- What a job computes: VALUE, INDEX, the output row if it has one, and SAT. -/
structure RowRes where
  value : Int := 0
  index : Nat := 0
  out : Option (List Int) := none
  sat : Bool := false
  deriving DecidableEq, Repr

def sumI (l : List Int) : Int := l.foldl (· + ·) 0

/-- R338: the extreme element and the index of its first occurrence. -/
def extreme (better : Int → Int → Bool) (l : List Int) : Int × Nat :=
  let m := l.foldl (fun m x => if better x m then x else m) (l.headD 0)
  (m, l.findIdx (fun x => x == m))

/-- R339: μ and σ², with SAT. -/
def meanVar (l : List Int) : Int × Int × Bool :=
  let mu := rdiv (sumI l) l.length
  let v := rdiv (sumI (l.map (fun x => rsh ((x - mu) * (x - mu)) 11))) l.length
  (mu, clampI 0 32767 v, clampI 0 32767 v != v)

/-- R340 passes 1 and 2: the maximum with its index, the e_i, their sum, SAT. -/
def State.softPass (s : State) (l : List Int) : (Int × Nat) × List Int × Bool :=
  let m := extreme (fun a b => decide (b < a)) l
  let es := l.map (fun x => s.lookup 0 (max (rsh (max (x - m.1) (-32768) * 2955) 11) (-32768)))
  (m, es.map (·.1), es.any (·.2))

/-- floor(log2 n). -/
def log2Floor (n : Nat) : Nat := ((List.range 64).filter (fun k => decide (2 ^ k ≤ n))).getLastD 0

/-- R342: the k from −1 to 6 for which u lies in 2,048 to 8,191, with u. -/
def normShift (v : Int) : Int × Int :=
  if 8192 ≤ v then (-1, v / 4) else
  let k := ((List.range 7).find? (fun k => decide (2048 ≤ v * 4 ^ k ∧ v * 4 ^ k ≤ 8191))).getD 6
  (k, v * 4 ^ k)

/-- R338–R343: an operation over a row of Q4.11 elements. -/
def State.rowOp (s : State) (op slot eps : Nat) (l : List Int) : RowRes :=
  match op with
  | 0 => { value := sumI l }
  | 1 => { value := rdiv (sumI l) l.length }
  | 2 => let m := extreme (fun a b => decide (b < a)) l; { value := m.1, index := m.2 }
  | 3 => let m := extreme (fun a b => decide (a < b)) l; { value := m.1, index := m.2 }
  | 4 => let v := meanVar l; { value := v.2.1, sat := v.2.2 }
  | 5 =>
    let p := s.softPass l
    let sum := sumI p.2.1
    let n := log2Floor sum.toNat
    let t := s.lookup 1 (sum.ediv (2 ^ (n - 11)))
    let v := p.1.1 + rsh ((t.1 + 32768 * (n - 15)) * 1420) 15
    { value := clampI (-32768) 32767 v, index := p.1.2, sat := p.2.2 || t.2 || clampI (-32768) 32767 v != v }
  | 6 =>
    let p := s.softPass l
    let sum := sumI p.2.1
    let r := rdiv (2 ^ 30) sum
    { value := sum, index := p.1.2, out := some (p.2.1.map (fun e => min (rsh (e * r) 15) 32767)), sat := p.2.2 }
  | 7 =>
    let v := meanVar l
    let v' := min (v.2.1 + eps) 32767
    if v' = 0 then { value := v.1, index := v.2.1.toNat, out := some (l.map (fun _ => 0)), sat := v.2.2 } else
    let ku := normShift v'
    let r := s.lookup 2 ku.2
    let ys := l.map (fun x => rsh ((x - v.1) * r.1) (15 - ku.1).toNat)
    { value := v.1, index := v.2.1.toNat, out := some (ys.map (clampI (-32768) 32767)),
      sat := v.2.2 || r.2 || ys.any (fun y => clampI (-32768) 32767 y != y) }
  | _ =>
    let ys := l.map (s.lookup slot)
    { out := some (ys.map (·.1)), sat := ys.any (·.2) }

/-! ### Jobs -/

/-- Table 15-5: passes and fixed beats; R350: the beats a job asks for. -/
def JobDesc.beats (d : JobDesc) : Nat :=
  let px := [(1, 20), (1, 60), (1, 20), (1, 20), (2, 100), (2, 32), (3, 60), (3, 108), (1, 20)].getD d.op (1, 20)
  px.2 + px.1 * ((d.n + 7) / 8)

/-- R336: every byte of an operand lies in a powered spar bank or in XRAM, and R117 holds against the copied segments. -/
def State.jobAccess (s : State) (j : Job) (seg need off n : Nat) : Bool :=
  let sg := j.segs.getD seg {}
  let a := sg.base + off
  (checkSeg sg j.tmode j.tenant need off n false).isNone &&
    (match regionOf a, regionOf (a + n - 1) with
     | .spar x, .spar y => (List.range (y + 1 - x)).all (fun i => s.isUp (11 + x + i))
     | .xram, .xram => s.isUp 27
     | _, _ => false)

def Job.addr (j : Job) (seg off : Nat) : Nat := (j.segs.getD seg {}).base + off

/-- Two byte ranges meet. -/
def rangesMeet (a n b m : Nat) : Bool := decide (a < b + m ∧ b < a + n)

/-- Table 15-3: the first failing check; of the rights of Table 7-2, R is 8 and W is 4. -/
def State.jobCheck (s : State) (j : Job) : Option Nat :=
  let d := jobDesc j.desc
  let rec_ := j.addr d.dstSeg d.res
  let src := j.addr d.srcSeg d.src
  let dst := j.addr d.dstSeg d.dst
  if d.res % 16 ≠ 0 || !s.jobAccess j d.dstSeg 4 d.res 16 then some 0x13
  else if 9 ≤ d.op || d.n = 0 || 4096 < d.n || !d.clean then some 0x30
  else if d.src % 2 ≠ 0 || !s.jobAccess j d.srcSeg 8 d.src (2 * d.n) then some 0x10
  else if hasRow d.op && (d.dst % 2 ≠ 0 || !s.jobAccess j d.dstSeg 4 d.dst (2 * d.n)) then some 0x11
  else if (hasRow d.op && dst != src && rangesMeet src (2 * d.n) dst (2 * d.n)) || rangesMeet rec_ 16 src (2 * d.n) ||
      (hasRow d.op && rangesMeet rec_ 16 dst (2 * d.n)) then some 0x12
  else if d.slots.any (fun k => !(s.tabHead k).valid) then some 0x20
  else none

/-- R335: a job's tag. -/
def placeTag (k count : Nat) : Nat := k * 8192 + count % 8192

/-- Table 15-4: the result record. -/
def jobRecord (value : Int) (index status tag ticks : Nat) : List Byte :=
  leBytes (wrapBits 64 value) 8 ++ leBytes index 2 ++ leBytes status 2 ++ leBytes tag 2 ++ leBytes (min ticks 255) 1 ++ [0#8]

/-- The tenant whose job an SFU place of a tenant core holds. -/
def State.sfuTenant (s : State) (p : Nat) : Option Nat :=
  if (s.job p).busy && (s.job p).ctx != 64 then some (s.job p).tenant else none
/-- A place becomes free; its count of accepted jobs goes on. -/
def State.sfuFree (s : State) (p : Nat) : State := s.setJob p { ({} : Job) with count := (s.job p).count }

/-- R347: writes whose slot no accepted job uses any more are done, in order. -/
def State.flushTable (s : State) : State :=
  let ready := s.tabWait.filter (fun w => !s.slotUsed (tableSlot w.1))
  ready.foldl (fun s w => s.wrBytes w.1 (leBytes w.2 4))
    ({ s with tabWait := s.tabWait.filter (fun w => s.slotUsed (tableSlot w.1)) } : State)

/-- R335: a job of the CC has ended: the job status of the SFU_RUN that waits for its tag. -/
def sfuReply (tag word : Nat) (l : Cmd × CmdWait) : Cmd × CmdWait := if l.2 = .sfu tag then (l.1, .jobStatus word) else l
def State.sfuTell (s : State) (j : Job) (word : Nat) : State :=
  if j.ctx = 64 then { s with cyn := { s.cyn with longs := s.cyn.longs.map (sfuReply j.tag word) } } else s

/-- SFU_FAULT (Table 15-10). -/
def State.sfuFault (s : State) (tag status : Nat) : State := (s.setReg (fk 0x4000F00C 0) tag).setReg (fk 0x4000F00C 16) status

/-- R337: a job ends with a status: its record is written (not for RES_FAULT), the counters move, its place frees and its issuer
gets event source 2, the CC also its SFU interrupt (R125). -/
def State.jobEnd (s : State) (p : Nat) (value : Int) (index status : Nat) : State :=
  let j := s.job p
  let d := jobDesc j.desc
  let s1 : State := if status = 0x13 then (s.sfuFault j.tag status).sfuTell j status
    else ((s.ncWriteN (j.addr d.dstSeg d.res) (jobRecord value index status j.tag j.ticks)).count (fk 0x4000F004 0) 16 1).sfuTell j
      (status + j.ticks * 65536)
  let s2 : State := if status = 1 then s1.count (fk 0x4000F008 0) 16 1 else s1
  let s3 : State := (((s2.unstand 17 p).sfuFree p).event j.ctx 2).flushTable
  if j.ctx = 64 then s3.irq 4 else s3

/-- R336: the first beat of a job: a failing check ends it at once. It starts once STD_READY has risen (R348). -/
def execSfuJobStart (place : Fin 6) (s : State) : Out :=
  let j := s.job place
  if !(s.isUp 46 && j.busy && !j.started && s.granted 17 place && s.flag kStdReady) then .next s else
  match s.jobCheck j with
  | some st => .next (s.jobEnd place 0 0 st)
  | none => .next (s.setJob place { j with started := true })

/-- R337: the last beat of a job. -/
def execSfuJobEnd (place : Fin 6) (s : State) : Out :=
  let j := s.job place
  if !(s.isUp 46 && j.busy && j.started && !(s.arb 17).standing.any (fun r => r.k == place.val)) then .next s else
  let d := jobDesc j.desc
  let r := s.ncReadN (j.addr d.srcSeg d.src) (2 * d.n)
  let l := (List.range d.n).map (fun i => sval 16 (leAt r.1 (2 * i) 2))
  let o := r.2.rowOp d.op d.slot d.eps l
  let s1 : State := match o.out with
    | some ys => r.2.ncWriteN (j.addr d.dstSeg d.dst) (ys.flatMap (fun y => leBytes (wrapBits 16 y) 2))
    | none => r.2
  .next (s1.jobEnd place o.value o.index (ofBool o.sat))

/-- R347: a write to slot k waits: a pending command's, or the oldest entry of the CC's store buffer. -/
def State.tableWaits (s : State) (k : Nat) : Bool :=
  s.tabWait.any (fun w => tableSlot w.1 == k) ||
    ((s.core 0).sb.head?.elim false (fun e => regionOf e.addr == .table && tableSlot e.addr == k)) && s.slotUsed k

/-- R138, R217, R335: a job is offered: the outcome word. -/
def State.sfuOffer (s : State) (p : Nat) (desc : List Byte) (segs : List Seg) (tenant ctx : Nat) (tmode : Bool) : Nat × State :=
  let d := jobDesc desc
  if s.allow ≤ 5 then (2 ^ 30, s)
  else if d.slots.any (fun k => s.tableWaits k) then (0xF0000 + 0xFFFF, s.count (kArb 17 0x14 16) 16 1)
  else if (s.job p).busy || s.arbFrozen 17 || s.fenced ctx || !s.isUp 46 then s.tryRefuse 17 p
  else
    let tag := placeTag p (s.job p).count
    let s1 : State := s.setJob p { busy := true, tag := tag, count := ((s.job p).count + 1) % 8192, desc := desc, segs := segs,
                                   tenant := tenant, ctx := ctx, tmode := tmode, prio := s.effPrio ctx }
    (2 ^ 31 + tag, s1.stand 17 { k := p, beats := d.beats, prio := s.effPrio ctx, tenant := s.tagOf ctx, ctx := some ctx })

/-- R351: at a latch edge the SFU ends the burst in hand; the unfinished job stands again for what the burst had left, taken as
the whole burst. -/
def State.sfuRestand (s : State) : State :=
  match (s.arb 17).burst with
  | none => s
  | some (k, b) =>
    let a := s.arb 17
    let j := s.job k
    let std := match a.standing.find? (fun r => r.k == k) with
      | some _ => a.standing.map (fun r => if r.k = k then { r with beats := r.beats + b } else r)
      | none => if j.busy then a.standing ++ [{ k := k, beats := b, prio := j.prio, tenant := s.tagOf j.ctx, ctx := some j.ctx }]
                else a.standing
    s.setArb 17 { a with standing := std, burst := none }

/-- R351: every unfinished job crosses a latch edge. -/
def State.sfuLatch (s : State) : State :=
  (List.range 6).foldl (fun s p =>
    let j := s.job p
    if !j.busy then s else
    let s1 : State := s.setJob p { j with ticks := min 255 (j.ticks + 1) }
    if j.ticks = 0 then s1.count (fk 0x4000F004 16) 16 1 else s1) s.sfuRestand

/-- R347: a write of the CC or of DMA reaches table memory; it waits while a job uses the slot. -/
def State.tableWrite (s : State) (a v : Nat) : State :=
  if s.slotUsed (tableSlot a) then { s with tabWait := s.tabWait ++ [(a, v)] } else s.wrBytes a (leBytes v 4)

def execTableWrite (addr value : Word) (s : State) : Out :=
  .next (if s.isUp 46 && tableWritable addr.toNat then s.tableWrite addr.toNat value.toNat else s)

/-- R348: the standard slots are rebuilt. -/
def execStdReady (s : State) : Out := .next (if s.isUp 46 then s.setFlag kStdReady true else s)

/-- R347: an SFU_TABLE_LOAD whose writes are lost ends NOT_READY (log entry 153). -/
def tableCut (l : Cmd × CmdWait) : Cmd × CmdWait :=
  match l.2 with
  | .table _ => (l.1, .ended 0x0105)
  | _ => l

/-- R348: domain 46 is off: every job ends without a record, SFU_FAULT records ABORTED, and its issuer gets event source 2. -/
def State.loseSfu (s : State) : State :=
  let js := (List.range 6).filter (fun p => (s.job p).busy)
  let s1 : State := js.foldl (fun s p =>
    let j := s.job p
    let s0 : State := ((((s.withdrawReq 17 p).sfuFree p).sfuFault j.tag 0x40).sfuTell j 0x40).event j.ctx 2
    if j.ctx = 64 then s0.irq 4 else s0) s
  { s1 with sfu := [], tabWait := [], cyn := { s1.cyn with longs := s1.cyn.longs.map tableCut } }

end Sys2Proof.Machine
end

