-- ==== Sys2Proof/Machine/Nor.lean ====
section
/-! DEFINITION. The NOR firmware store's operations and its read window (R374, R378–R382). -/
namespace Sys2Proof.Machine

def norBase : Nat := 0x01000000
def State.norOp (s : State) : NorOp := s.boot.nor
def State.setNor (s : State) (o : NorOp) : State := { s with boot := { s.boot with nor := o } }
def kNorResult : Key := fk 0x40009014 0
def kNorOff : Key := fk 0x40009018 0

/-- The offsets an operation works on: start and length. -/
def NorOp.target (o : NorOp) : Nat × Nat :=
  match o.op with
  | 1 => (o.addr / 4096 * 4096, 4096)
  | 2 => (o.addr / 65536 * 65536, 65536)
  | _ => (o.addr, o.data.length)

/-- R380, R381: what an unfinished operation leaves open: its sector, block or page. -/
def NorOp.open_ (o : NorOp) : Nat × Nat := if o.op = 3 then (o.addr / 256 * 256, 256) else o.target

/-- R382: a range meets a locked range. -/
def State.norLocked (s : State) (a n : Nat) : Bool :=
  decide (0x7F0000 < a + n) || (s.boot.recLocked && decide (0x630000 < a + n ∧ a < 0x7F0000))

/-- The page data of NORCTL_BUF. -/
def State.norBuf (s : State) (n : Nat) : List Byte :=
  (List.range n).map (fun i => BitVec.ofNat 8 (s.reg (fk (0x40009100 + i / 4 * 4) 0) / 256 ^ (i % 4)))

/-- Table 17-6: a command leaves IDLE, or ends LOCKED or PAGE_CROSS at once. -/
def State.norStart (s : State) (op : Nat) (andProgram : Bool) : State :=
  let a := s.reg (fk 0x40009000 0)
  let n := s.reg (fk 0x40009004 0)
  let o : NorOp := { state := if op = 3 then (if andProgram then 2 else 1) else 3, op := op, addr := a,
                     data := if op = 3 then s.norBuf n else [], and := andProgram }
  if s.norLocked o.target.1 o.target.2 then s.setReg kNorResult 3
  else if op = 3 && decide (256 < a % 256 + n) then s.setReg kNorResult 4
  else s.setNor o

/-- The first offset of a range whose byte differs from what is expected. -/
def State.norDiffers (s : State) (a n : Nat) (want : Nat → Byte) : Option Nat :=
  ((List.range n).find? (fun i => s.rd (norBase + a + i) != want i)).map (· + a)

/-- An operation ends with a result: BUSY falls, which interrupts the CC (R125). -/
def State.norEnd (s : State) (result : Nat) : State := ((s.setNor {}).setReg kNorResult result).irq 8

/-- R378: the blank check ends. -/
def execNorCheckDone (s : State) : Out :=
  let o := s.norOp
  if !(s.isUp 44 && o.state == 1) then .next s else
  match s.norDiffers o.target.1 o.target.2 (fun _ => 0xFF#8) with
  | some x => .next ((s.norEnd 1).setReg kNorOff x)
  | none => .next (s.setNor { o with state := 2 })

/-- R378, R379: the page has been programmed, each byte the AND of old and requested, or the range erased. A byte named `bad`
inside the target does not take its value: its content is free. -/
def execNorOperationDone (bad : Option (BitVec 23)) (s : State) : Out :=
  let o := s.norOp
  if !(s.isUp 44 && (o.state == 2 || o.state == 3)) then .next s else
  let t := o.target
  let s1 : State := if o.op = 3 then
      s.wrBytes (norBase + o.addr) ((List.range o.data.length).map (fun i => s.rd (norBase + o.addr + i) &&& o.data.getD i 0#8))
    else { s with mem := Tab.keep (fun a => !decide (norBase + t.1 ≤ a ∧ a < norBase + t.1 + t.2)) s.mem }
  let s2 : State := match bad with
    | some b => if t.1 ≤ b.toNat ∧ b.toNat < t.1 + t.2 then (s1.freeBytes 1).2.wrBytes (norBase + b.toNat) (s1.freeBytes 1).1 else s1
    | none => s1
  .next (s2.setNor { o with state := 5 })

/-- R379: VERIFY ends. -/
def execNorVerifyDone (s : State) : Out :=
  let o := s.norOp
  if !(s.isUp 44 && o.state == 5) then .next s else
  let want := fun i => if o.op = 3 then o.data.getD i 0#8 else 0xFF#8
  match s.norDiffers o.target.1 o.target.2 want with
  | some x => .next ((s.norEnd 2).setReg kNorOff x)
  | none => .next (s.norEnd 0)

/-- R380: a read of the window arrives: an erase is suspended and counted. -/
def State.norTouch (s : State) : State :=
  if s.norOp.state = 3 then (s.setNor { s.norOp with state := 4 }).count (fk 0x40009020 0) 16 1 else s

/-- R380: the read waits while the state is CHECK, PROGRAM or VERIFY. -/
def State.norBusy (s : State) : Bool := [1, 2, 5].contains s.norOp.state

/-- R380: the bytes of a read that does not wait; inside an unfinished operation's target they are free. -/
def State.norRead (s : State) (a n : Nat) : List Byte × State :=
  let s1 := s.norTouch
  let t := s1.norOp.open_
  if s1.norOp.state != 0 && rangesMeet (norBase + t.1) t.2 a n then s1.freeBytes n else (s1.rdBytes a n, s1)

def execNorWindowRead (addr : Word) (s : State) : Out :=
  .next (if s.isUp 44 && regionOf addr.toNat == .nor then s.norTouch else s)

/-- R378: no read has been pending for 2 µs. -/
def execEraseResume (s : State) : Out :=
  .next (if s.isUp 44 && s.norOp.state == 4 then s.setNor { s.norOp with state := 3 } else s)

/-- R381: a command of Cyntoux's that waits for an operation ends when domain 44 switches off; the manual names no status for it: it
ends NOT_READY (log entry 153). -/
def norCut (l : Cmd × CmdWait) : Cmd × CmdWait :=
  match l.2 with
  | .nor _ | .image .. => (l.1, .ended 0x0105)
  | _ => l

/-- R381: domain 44 has switched off: an operation that changes cells leaves its sector, block or page with any content. -/
def State.loseNor (s : State) : State :=
  let o := s.norOp
  let t := o.open_
  let s1 : State := if [2, 3, 4, 5].contains o.state then (s.freeBytes t.2).2.wrBytes (norBase + t.1) (s.freeBytes t.2).1 else s
  { s1 with
    boot := { s1.boot with nor := {}, recLocked := false }
    cyn := { s1.cyn with longs := s1.cyn.longs.map norCut } }

end Sys2Proof.Machine
end

