-- ==== Sys2Proof/Machine/Dma.lean ====
section
/-! DEFINITION. The DMA engine (R201–R204). -/
namespace Sys2Proof.Machine

def State.place (s : State) (p : Nat) : Place := Tab.get (fun _ => {}) s.dma p
def State.setPlace (s : State) (p : Nat) (x : Place) : State := { s with dma := Tab.set (fun _ => {}) s.dma p x }
/-- The register page of a place. -/
def placePage (p : Nat) : Nat := 0x4000E100 + 0x40 * p
/-- R202: the requester of instance 19 for a core: 2 the CC, 3 to 6 the tenant cores. -/
def dmaReq (core : Nat) : Nat := core + 2

/-- Table 9-10: a descriptor's fields. -/
structure DmaDesc where
  op : Nat
  srcSeg : Nat
  dstSeg : Nat
  key : Nat
  src : Nat
  dst : Nat
  len : Nat
  arg : Nat
  clean : Bool
  deriving DecidableEq, Repr

def dmaDesc (d : List Byte) : DmaDesc :=
  let op := byteAt d 0
  let xts := op = 2 || op = 3
  { op := op, srcSeg := byteAt d 1 % 8, dstSeg := byteAt d 2 % 8, key := byteAt d 3 % 64, src := leAt d 4 4, dst := leAt d 8 4,
    len := leAt d 12 4, arg := leAt d 16 4,
    clean := byteAt d 1 < 8 && (op != 1 || byteAt d 1 = 0) && byteAt d 2 < 8 && (if xts then byteAt d 3 < 64 else byteAt d 3 = 0) &&
      (op = 1 || xts || leAt d 16 4 = 0) && (op != 1 || leAt d 4 4 = 0) && leAt d 20 8 = 0 && leAt d 28 4 = 0 }

/-- R203 check 1. -/
def dmaDescOk (x : Place) : Bool :=
  let d := dmaDesc x.desc
  let xts := d.op = 2 || d.op = 3
  d.clean && decide (d.op < 5) && d.src % 8 = 0 && d.dst % 8 = 0 && d.len % 8 = 0 && decide (8 ≤ d.len ∧ d.len ≤ 1048576) &&
    (!xts || (d.len % 512 = 0 && (x.ctx = 64 || d.key = x.tenant)))

/-- R203: the memories a source or a destination may lie in. -/
def srcRegion (sg : Seg) : Region → Bool
  | .spar _ | .xram | .rom | .nor => true
  | .cat _ => sg.typ = 3
  | _ => false
def dstRegion (sg : Seg) (cc : Bool) : Region → Bool
  | .spar _ | .xram => true
  | .cat _ => sg.typ = 3
  | .table => cc
  | _ => false

/-- Addresses of a range, one at least in each memory or bank of memory that it meets: all of them start at a multiple of 4 KiB. -/
def rangeProbes (a n : Nat) : List Nat :=
  a :: (List.range ((a + n - 1) / 4096 - a / 4096)).map (fun i => (a / 4096 + 1 + i) * 4096)

/-- R203: a segment check under R117 over a whole range, and R118's for every byte: it lies in a memory of the kind asked, which
is powered. -/
def State.dmaRange (s : State) (x : Place) (seg need off n : Nat) (ok : Seg → Region → Bool) (wr : Bool) : Bool :=
  let sg := x.segs.getD seg {}
  (checkSeg sg x.tmode x.tenant need off n false).isNone &&
    (rangeProbes (sg.base + off) n).all (fun a => ok sg (regionOf a) && !s.busErrAt sg a wr)

def DmaDesc.srcAddr (d : DmaDesc) (x : Place) : Nat := (x.segs.getD d.srcSeg {}).base + d.src
def DmaDesc.dstAddr (d : DmaDesc) (x : Place) : Nat := (x.segs.getD d.dstSeg {}).base + d.dst
/-- Bytes written at the destination. -/
def DmaDesc.outLen (d : DmaDesc) : Nat := if d.op = 4 then 32 else d.len

/-- R203: the first failing check. -/
def State.dmaCheck (s : State) (x : Place) : Option Nat :=
  let d := dmaDesc x.desc
  if !dmaDescOk x then some 0x30
  else if d.op != 1 && !s.dmaRange x d.srcSeg 8 d.src d.len srcRegion false then some 0x10
  else if !s.dmaRange x d.dstSeg 4 d.dst d.outLen (fun sg => dstRegion sg (x.ctx == 64)) true ||
      (regionOf (d.dstAddr x) == .table && !(tableWritable (d.dstAddr x) && tableWritable (d.dstAddr x + d.outLen - 4) &&
        tableSlot (d.dstAddr x) == tableSlot (d.dstAddr x + d.outLen - 4))) then some 0x11
  else if d.op != 1 && rangesMeet (d.srcAddr x) d.len (d.dstAddr x) d.outLen then some 0x12
  else if (d.op = 2 || d.op = 3) && !s.keyLoaded d.key then some 0x21
  else none

/-- R202: GO: a try request of the issuing core's requester; the place copies descriptor, segments and issuer; SUB shows the
outcome. -/
def State.dmaGo (s : State) (core p : Nat) : State :=
  let pg := placePage p
  let x := s.place p
  let ctx := s.ctxOf core
  let k := dmaReq core
  if x.busy || !s.placeFree 19 k || s.arbFrozen 19 || s.fenced ctx then
    let r := s.tryRefuse 19 k
    r.2.setReg (fk (pg + 0x24) 0) r.1
  else
    let tag := placeTag k x.count
    let desc := (List.range 8).flatMap (fun w => leBytes (s.reg (fk (pg + 4 * w) 0)) 4)
    let c := s.core core
    let s1 : State := s.setPlace p {
      busy := true, req := k, tag := tag, count := (x.count + 1) % 8192, desc := desc, segs := if c.tmode then c.tset else c.mset,
      tenant := s.ctxTenant ctx, ctx := ctx, tmode := c.tmode, prio := s.effPrio ctx }
    (s1.stand 19 { k := k, beats := max 1 ((dmaDesc desc).len / 8), prio := s.effPrio ctx,
                   tenant := s.tagOf ctx }).setReg (fk (pg + 0x24) 0) (2 ^ 31 + tag)

/-- R203: the first beat of a transfer: the checks; a failing one is its end status. -/
def execDmaTransferStart (place : Fin 5) (s : State) : Out :=
  let x := s.place place
  .next (if s.isUp 47 && x.busy && !x.started && s.granted 19 x.req then
    s.setPlace place { x with started := true, status := s.dmaCheck x, hash := shaH0 } else s)

/-- R212: a transfer's request: its submitter's priority at submission. -/
def Place.arbReq (x : Place) (k beats : Nat) : ArbReq :=
  { k := k, beats := beats, prio := x.prio, tenant := if x.ctx = 64 then none else some x.tenant }

/-- R204: a 64-bit read by the DMA engine. -/
def State.dmaRead (s : State) (x : Place) (a : Nat) : CatRes × State :=
  match regionOf a with
  | .cat _ => s.catRead (x.arbReq 8 1) (a - 0x20000000)
  | .nor =>
    if !s.isUp 44 then (.busErr, s) else if s.norBusy then (.wait, s) else
    let r := s.norRead a 8
    (.data r.1, r.2)
  | r => if s.regionOn r then (.data (s.ncRead a 8).1, (s.ncRead a 8).2) else (.busErr, s)

/-- R204: a write of bytes within one 64-bit word by a transfer. -/
def State.dmaWrite (s : State) (x : Place) (a : Nat) (bs : List Byte) : WbRes × State :=
  let d := dmaDesc x.desc
  match regionOf a with
  | .cat _ =>
    let off := a - 0x20000000
    if x.ctx = 64 then s.wbAccept .ccDma off bs (s.ccTag off)
    else s.wbAccept (.tenant x.tenant) off bs (tagEnt x.tenant d.dstSeg (a - (x.segs.getD d.dstSeg {}).base) 1 0 1)
  | .table =>
    if s.slotUsed (tableSlot a) then (.full, s)
    else (.accepted, s.wrBytes a bs)
  | r => if s.regionOn r then (.accepted, s.memWrite a bs) else (.busErr, s)

/-- Writes a run of 64-bit words; `none` while one must wait for room. -/
def State.dmaWrites (s : State) (x : Place) : Nat → List Byte → Option (Bool × State)
  | a, bs =>
    (List.range ((bs.length + 7) / 8)).foldl (fun acc i => match acc with
      | none => none
      | some (false, s) => some (false, s)
      | some (true, s) =>
        match s.dmaWrite x (a + 8 * i) ((bs.drop (8 * i)).take 8) with
        | (.full, _) => none
        | (.busErr, s1) => some (false, s1)
        | (_, s1) => some (true, s1)) (some (true, s))

/-- Reads a run of 64-bit words: the bytes, or how it stopped. -/
def State.dmaReads (s : State) (x : Place) (a n : Nat) : CatRes × State :=
  (List.range (n / 8)).foldl (fun acc i => match acc with
    | (.data bs, s) =>
      match s.dmaRead x (a + 8 * i) with
      | (.data b, s1) => (.data (bs ++ b), s1)
      | r => r
    | r => r) (.data [], s)

/-- SHA-256's last blocks over what is left of a message of `n` bytes. -/
def shaFinish (h acc : List Nat) (n : Nat) : List Nat :=
  let z := (119 - acc.length % 64) % 64
  let p := acc ++ [0x80] ++ List.replicate z 0 ++ beNat (n * 8) 8
  (shaBlocks (p.length / 64) h p).flatMap (fun x => beNat x 4)

/-- R204, R206: a block passes through CRYPT as requester 2 of instance 18 (log entry 143). -/
def State.dmaCipher (s : State) (x : Place) : Option State := if s.isUp 49 then s.useArb 18 (x.arbReq 2 1) else none

/-- R204: what one grant moves: 8 bytes (16 for XTS) are read and written; poison or a bus error stops the transfer. `none` while
the move must wait: for a NOR operation, a pending catalog word, room in the write buffer, or CRYPT. -/
def State.dmaMove (s : State) (p : Nat) : Option State :=
  let x := s.place p
  let d := dmaDesc x.desc
  let xts := d.op = 2 || d.op = 3
  let unit := if xts then 16 else 8
  let stop := fun (s : State) st => s.setPlace p { x with status := some st }
  let moved := x.moved + unit
  let put := fun (s : State) (bs : List Byte) (x' : Place) (at_ : Nat) =>
    match s.dmaWrites x at_ bs with
    | none => none
    | some (false, s1) => some (stop s1 0x51)
    | some (true, s1) => some (s1.setPlace p { x' with status := if x'.moved < d.len then none else some 0 })
  if d.op = 1 then put s (leBytes d.arg 4 ++ leBytes d.arg 4) { x with moved := moved } (d.dstAddr x + x.moved)
  else
    match s.dmaReads x (d.srcAddr x + x.moved) unit with
    | (.wait, _) => none
    | (.busErr, s1) => some (stop s1 0x51)
    | (.poisoned, s1) => some (stop s1 0x50)
    | (.data bs, s1) =>
      if xts then
        if !s1.keyLoaded d.key then none else
        (s1.dmaCipher x).bind (fun s2 =>
          let b := xtsBlock (d.op == 2) (s2.keyBytes d.key) (d.arg + x.moved / 512) (x.moved % 512 / 16) (toNats bs)
          put s2 (toBytes b) { x with moved := moved } (d.dstAddr x + x.moved))
      else if d.op = 4 then
        let acc := x.acc ++ toNats bs
        let x1 : Place := if acc.length = 64 then { x with moved := moved, hash := shaBlock x.hash acc, acc := [] }
          else { x with moved := moved, acc := acc }
        (if acc.length = 64 || d.len ≤ moved then s1.dmaCipher x else some s1).bind (fun s2 =>
          if moved < d.len then some (s2.setPlace p x1)
          else put s2 (toBytes (shaFinish x1.hash x1.acc d.len)) x1 (d.dstAddr x))
      else put s1 bs { x with moved := moved } (d.dstAddr x + x.moved)

/-- R204: the granted beats of a place are used: one for 8 bytes, two for a 16-byte block, the first of which may be the last of an
earlier burst. -/
def State.dmaBeat (s : State) (p : Nat) : State :=
  let x := s.place p
  let a := s.arb 19
  let b := a.burst.elim 0 (·.2)
  let op := (dmaDesc x.desc).op
  let need := (if op = 2 || op = 3 then 2 else 1) - ofBool x.half
  let left := fun n => if n = 0 then none else some (x.req, n)
  if b < need then (s.setPlace p { x with half := true }).setArb 19 { a with burst := none }
  else
    match s.dmaMove p with
    | none => s
    | some s1 => (s1.setPlace p { s1.place p with half := false }).setArb 19 { s1.arb 19 with burst := left (b - need) }

/-- R204, R213: a beat of the burst in hand. -/
def execDmaBeat (place : Fin 5) (s : State) : Out :=
  let x := s.place place
  .next (if s.isUp 47 && x.busy && x.started && x.status.isNone && s.granted 19 x.req then s.dmaBeat place else s)

/-- R59, R216: the burst in hand of a place runs to its end, `n` beats at most, as far as its moves need not wait. -/
def State.dmaBurstEnd (s : State) (p : Nat) : Nat → State
  | 0 => s
  | n + 1 =>
    let x := s.place p
    if x.started && x.status.isNone && s.granted 19 x.req then (s.dmaBeat p).dmaBurstEnd p n else s

/-- R204: a transfer ends: RES, DONE, the counters and the place. -/
def State.dmaEnd (s : State) (p status : Nat) : State :=
  let x := s.place p
  let pg := placePage p
  let s1 : State := ((s.setReg (fk (pg + 0x28) 0) status).setReg (fk (pg + 0x28) 16) x.tag).setReg (fk (pg + 0x2C) 0) x.moved
  let s2 : State := (s1.count (fk 0x4000E004 (if status = 0 then 0 else 16)) 16 1).unstand 19 x.req
  s2.setPlace p { count := x.count }

/-- R204: the end of a transfer is told: the DMA interrupt for place 0, event source 3 for the submitting slot of another. -/
def State.dmaTell (s : State) (p ctx : Nat) : State := if p = 0 then s.irq 5 else s.event ctx 3

/-- R204: a transfer is stopped at the boundary of its burst: with the status it has reached, else ABORTED. -/
def State.dmaAbort (s : State) (p : Nat) : State :=
  let s1 : State := s.dmaBurstEnd p 16
  s1.dmaEnd p ((s1.place p).status.getD 0x40)

def execDmaEnd (place : Fin 5) (s : State) : Out :=
  match (s.place place).status with
  | some st => .next (if s.isUp 47 && (s.place place).busy then (s.dmaEnd place st).dmaTell place (s.place place).ctx else s)
  | none => .next s

/-- R204: domain 47 goes off: every transfer ends at its burst boundary, ABORTED, with its event. -/
def State.loseDma (s : State) : State :=
  let s1 : State := ((List.range 5).filter (fun p => (s.place p).busy)).foldl
    (fun s p => (s.dmaAbort p).dmaTell p (s.place p).ctx) s
  { s1 with dma := [] }

end Sys2Proof.Machine
end

