-- ==== Sys2Proof/Machine/Disp.lean ====
section
/-! DEFINITION. FRAME's dispatcher and the tenants' lifecycle (R142–R169): dispatch, preemption, budgets, tenant reset. -/
namespace Sys2Proof.Machine

/-- R143: a tenant's eight descriptors as FRAME loads them. -/
def State.tenantSegs (s : State) (t : Nat) : List Seg :=
  (List.range 8).map (fun k =>
    let a := s.reg (fk 0x40015000 13) * 8192 + 0x80 * t + 0x10 * k
    if s.sparOk a then segOf ((s.ncRead a 8).1 ++ (s.ncRead (a + 8) 8).1) else {})

/-- R153: a context leaves its core: its store buffer drains, its wait is withdrawn (R132, R136), its record is saved, and its
slot takes a state. CYCLE counts clock cycles, which the model does not have: a free value unless the caller knows it. -/
def State.preempt (s : State) (c st : Nat) (cycle : Option Word) : State :=
  match (s.core c).slot with
  | none => s
  | some n =>
    let s1 : State := s.drainAll c
    let f := s1.freeBits 32
    let s2 : State := if cycle.isSome then s1 else f.2
    let x := { s2.core c with cycle := cycle.getD (BitVec.ofNat 32 f.1) }
    let s3 : State := s2.saveRec n x
    (s3.setCore c { x with run := .stopped, slot := none, tmode := false, inTrap := false, imp := none, evpend := false }).setSlot n
      { s3.slot n with state := st, cycleLast := x.cycle.toNat, impT := x.imp.elim true (·.2.2),
                       wfeOrder := if st = 3 then (s3.slot n).wfeOrder else none }

/-- R155, R153: a slot's context enters a core: record and descriptors are loaded. A context released from PARKED by wait-cycle
breaking takes its trap here (R236). -/
def State.dispatch (s : State) (c n : Nat) : State :=
  let x := { s.loadRec n (s.core c) with slot := some n, run := .running, tset := s.tenantSegs (s.slotTenant n) }
  let x1 := if (s.slot n).ranThisFrame then { x with cycle := BitVec.ofNat 32 (s.recWord n 24) } else { x with cycle := 0#32 }
  let s1 : State := (s.setCore c x1).setSlot n
    { s.slot n with state := 2, lastDisp := s.ten.dispatches + 1, ranThisFrame := true, broken := false, wfeOrder := none }
  let s2 : State := { s1 with ten := { s1.ten with dispatches := s.ten.dispatches + 1 } }
  if (s.slot n).broken then s2.trap c 9 0 0 (s2.wordAtPc c) else s2

/-- R152, R55, R63: FRAME may dispatch now. -/
def State.mayDispatch (s : State) : Bool :=
  s.ten.dispOn && decide (5 ≤ s.allow) && s.reg kPhase != 1 && s.reg kLevel == 0 && s.isUp 4 && s.isUp 5

/-- R151: slot `a` ranks before slot `b`. -/
def State.ranks (s : State) (a b : Nat) : Bool :=
  let pa := s.effPrio a
  let pb := s.effPrio b
  let x := s.slot a
  let y := s.slot b
  if pa != pb then decide (pb < pa)
  else if x.cutOff != y.cutOff then x.cutOff
  else if x.lastDisp != y.lastDisp then decide (x.lastDisp < y.lastDisp)
  else decide (a < b)

/-- R151: the READY slot that a free core takes. -/
def State.choose (s : State) (c : Nat) (taken : List Nat) : Option Nat :=
  ((List.range 64).filter (fun n => (s.slot n).state = 1 && bit (s.slotCores n) (c - 1) && !taken.contains n)).foldl
    (fun best n => match best with
      | none => some n
      | some b => if s.ranks n b then some n else some b) none

/-- R151: a core is free: released, and without a context or with a halted one. -/
def State.coreFree (s : State) (c : Nat) : Bool :=
  s.isUp (6 + c) && ((s.core c).slot.isNone || (s.core c).run == .halted)

/-- A halted context leaves its core for the one that takes it; its record is saved. Until then the core reads HALTED (R128). -/
def State.clearHalted (s : State) (c : Nat) : State := if (s.core c).run == .halted then s.preempt c 6 none else s

/-- R151: every free core that is not passed over is filled at once, in order. -/
def State.fill (s : State) (skip : Nat → Bool) : State :=
  [1, 2, 3, 4].foldl (fun s c =>
    if s.coreFree c && !skip c && s.mayDispatch then
      (match s.choose c [] with | some n => (s.clearHalted c).dispatch c n | none => s)
    else s) s

/-! ### The initial context (R145) -/

/-- R145: a slot receives the initial context; `halted`: it stays HALTED (R150). -/
def State.initSlot (s : State) (n : Nat) (halted : Bool) : State :=
  let s1 : State := (s.withdraw n).initRec n
  s1.setSlot n { ({} : Slot) with state := if halted then 6 else if s.slotEn n then 5 else 0, lastDisp := (s.slot n).lastDisp,
                                  cycleLast := (s.slot n).cycleLast }

/-! ### Tenant reset (R164–R167) -/

/-- R165 step 1: the fence: the tenant is RESETTING, its standing requests are withdrawn (R220), and its slots are no longer
eligible. -/
def State.resetFence (s : State) (t : Nat) : State :=
  let s1 : State := ((s.setTenState t 3).setReg (fk 0x40015304 0) 1).setReg (fk 0x40015304 8) t
  let s2 : State := { s1 with
    arbs := s1.arbs.map (fun e => (e.1, { e.2 with standing := e.2.standing.filter (fun r => r.tenant != some t) })) }
  (s2.slotsOf t).foldl (fun s n =>
    if [1, 3, 4].contains (s.slot n).state then s.setSlot n { s.slot n with state := 5, wfeOrder := none } else s) s2

/-- R165 step 2: a context of the tenant leaves its core; its stores have drained. -/
def State.resetStop (s : State) (c : Nat) : State :=
  let n := (s.core c).slot.getD 0
  let halted := (s.core c).run == .halted
  let s1 : State := s.drainAll c
  (s1.setCore c { s1.core c with run := .stopped, slot := none, imp := none, evpend := false, tmode := false, inTrap := false }).setSlot n
    { s1.slot n with state := if halted then 6 else if s1.slotEn n then 5 else 0, wfeOrder := none }

/-- R165 step 4: the tenant's waits are withdrawn and its cleats released; the number of cleats, and of the waiters of other
tenants. -/
def State.resetCleats (s : State) (t : Nat) : (Nat × Nat) × State :=
  let ctxs := s.slotsOf t
  let s1 : State := { s with lock := { s.lock with waits := s.lock.waits.filter (fun w => !ctxs.contains w.ctx) } }
  let held := (List.range 256).filter (fun c => (s1.cleat c).holder.elim false ctxs.contains)
  let waiters := (s1.lock.waits.filter (fun w => w.result.isNone && held.contains w.cleat)).length
  ((held.length, waiters), held.foldl (fun s c => s.freeCleat c 0xFFFFFFFE) s1)

/-- R165 steps 1 to 4. The engines' operations of the tenant run to the end of the burst in hand and end ABORTED without an
event. -/
def State.resetStart (s : State) (t cause : Nat) : State :=
  let onCore := [1, 2, 3, 4].filter (fun c => (s.core c).slot.elim false (fun n => s.slotTenant n == t))
  let stopped := (onCore.filter (fun c => (s.core c).run != .halted)).length
  let s3 : State := onCore.foldl State.resetStop (s.resetFence t)
  let busy := (List.range 5).filter (fun p => (s3.place p).busy && (s3.place p).ctx != 64 && (s3.place p).tenant == t)
  let s4 : State := busy.foldl State.dmaAbort s3
  let jobs := (List.range 6).filter (fun p => s4.sfuTenant p == some t)
  let s5 : State := jobs.foldl State.sfuFree s4
  let q := s5.resetCleats t
  let s7 := q.2
  let r : TenReset := { tenant := t, cause := cause, frameNum := s.frameNum, contexts := stopped,
                        cleats := q.1.1, waiters := q.1.2, engines := busy.length + jobs.length }
  { s7 with ten := { s7.ten with reset := some r } }

/-- R163: a FATAL_ACT reset starts once no other runs. -/
def State.resetKick (s : State) : State :=
  match s.ten.reset, s.ten.waiting with
  | none, t :: rest =>
    let s1 : State := { s with ten := { s.ten with waiting := rest } }
    if s.isUp 5 then State.resetStart s1 t 2 else s1
  | _, _ => s

/-- What follows, in `s`, every event that may halt a context or free a core, from the state `s0` before it: the waiting resets,
then the cores that have become free (R151, R163). A core that was free before is filled at the tick (log entry 47). -/
def State.settle (s0 s : State) : State := s.resetKick.fill (s0.coreFree ·)

/-- R167: an entry of the report. -/
def RptEnt.bytes (e : RptEnt) : List Byte :=
  leBytes (e.off % 2 ^ 24 + e.seg * 2 ^ 24 + e.src % 2 * 2 ^ 27 + ofBool e.poisoned * 2 ^ 28 + e.retries % 4 * 2 ^ 30) 4 ++
    leBytes e.seq 2 ++ [0#8, 0#8]

/-- R167: the reset report. -/
def TenReset.bytes (r : TenReset) (slots : Nat) : List Byte :=
  let b := fun n => BitVec.ofNat 8 (min n 255)
  [b r.tenant, b r.cause, b slots, b r.contexts] ++ leBytes (min r.cleats 65535) 2 ++ leBytes (min r.waiters 65535) 2 ++
    [b r.engines, b r.entries.length, b r.ticks, 0#8] ++ leBytes r.frameNum 4 ++ r.entries.flatMap RptEnt.bytes

/-- R166: completion: the tenant is STOPPED with ACTIVE cleared, its slots hold the initial context, the report is in TEN_RPT,
BUSY falls, and Cyntoux zeroes the mailbox, its DOORBELL word too (R159). -/
def State.resetComplete (s : State) (r : TenReset) : State :=
  let t := r.tenant
  let k := fk (0x40015100 + 4 * t) 0
  let ns := s.slotsOf t
  let s1 : State := ((s.setTenState t 0).setReg k 0).setShadow k none
  let s2 : State := ns.foldl (fun s n => s.initSlot n false) s1
  let s3 : State := s2.setReg (fk 0x40015304 0) 0
  let s4 : State := if s3.isUp 27 then s3.memWrite (0x11000000 + 0x200 * t) (List.replicate 512 0#8) else s3
  s.settle { s4 with ten := { s4.ten with reset := none, rpt := r.bytes ns.length } }

/-- R166: the first latch edge after step 5 has passed. -/
def execTenResetComplete (s : State) : Out :=
  match s.ten.reset with
  | some r => .next (if r.edge then s.resetComplete r else s)
  | none => .next s

/-- R165 step 5 is over: no write of the tenant is left in the buffer. -/
def State.resetWritesDone (s : State) (t : Nat) : Bool := !s.cat.wb.any (fun e => e.tenant == t && e.origin != 2)

/-- R155: a core's context has used its budget: it is SPENT and the free core is filled. -/
def execOvrBudget (core : Fin 4) (s : State) : Out :=
  let c := core.val + 1
  match (s.core c).slot with
  | none => .next s
  | some n =>
    if (s.core c).run == .halted then .next s else
    .next (s.settle ((s.preempt c 4 (some (BitVec.ofNat 32 (s.slotBudget n)))).count (fk (0x4000410C + 0x10 * n) 0) 16 1))

/-- R154: a context that has waited in WFE for PARK cycles is PARKED. -/
def execParked (core : Fin 4) (s : State) : Out :=
  let c := core.val + 1
  .next (if (s.core c).slot.isSome && (s.core c).run == .wfe then s.settle (s.preempt c 3 none) else s)

/-- R127, R129: the pending imprecise error of a core is taken at an instruction boundary. -/
def execBusErr (core : Fin 5) (s : State) : Out :=
  .next (if s.isUp (6 + core) && (s.core core).impDue && (s.core core).run == .running then s.takeImp core else s)

/-- R236: the condition has held for CYC_HOLD cycles: the lowest-PRIO waiter is released with WAIT_BROKEN. -/
def execWaitBroken (s : State) : Out :=
  if !(s.isUp 48 && s.flag (fk 0x40006000 0)) then .next s else
  let set := s.waitCycle
  match s.victim set with
  | none => .next s
  | some x =>
    let s1 : State := match s.lock.waits.find? (fun w => w.ctx == x && w.result.isNone) with
      | some w => (s.breakReport x set.length w.cleat).completeWait w 0x80000004
      | none =>
        let s0 : State := s.breakReport x set.length 0xFF
        match s0.coreOf x with
        | some c => (s0.setSlot x { s0.slot x with wfeOrder := none }).trap c 9 0 0 (s0.wordAtPc c)
        | none => s0.setSlot x { s0.slot x with state := 1, broken := true, wfeOrder := none }
    .next (s.settle s1)

/-- R231: the latch edge of a lease's L-th tick has come: the counter expires there, ahead of what else the edge brings. -/
def execLeaseExpired (cleat : Fin 256) (s : State) : Out :=
  .next (if s.isUp 48 && s.clk.tickDue && (s.cleat cleat).lease = 1 then s.leaseExpires cleat else s)

/-- R230: a wait reaches the latch edge of its fourth tick ungranted: the CC has the time-out at the edge; a tenant context finds it
when its read is reissued, on the core it keeps or at its next dispatch. -/
def execWaitTimeout (ctx : Fin 65) (s : State) : Out :=
  match s.lock.waits.find? (fun w => w.ctx == ctx.val && w.result.isNone) with
  | some w => .next (if s.isUp 48 && s.clk.tickDue && w.ticks = 3 then
      (if ctx.val = 64 then s.completeWait { w with ticks := 4 } 0x80000001
       else s.setWait { w with ticks := 4, result := some 0x80000001 }) else s)
  | none => .next s

end Sys2Proof.Machine
end

