-- ==== Sys2Proof/Machine/Bay.lean ====
section
/-! DEFINITION. Bay channels and bay serial ports (R292–R317): the channel state machine, trips, gangs and the inrush budget,
presence and fault inputs, FIFOs and receive rings. -/
namespace Sys2Proof.Machine

def kBayCh (n o lo : Nat) : Key := fk (0x40020000 + 0x100 * n + o) lo
def kBayu (n o lo : Nat) : Key := fk (0x40030000 + 0x100 * n + o) lo
def kBudget : Key := fk 0x40028000 0
def kVb12 : Key := fk 0x4002804C 0
/-- BAY_GRPg_IN field at a bit. -/
def kBayIn (g lo : Nat) : Key := fk (0x40028010 + 4 * g) lo
def kAdmit : Key := fk 0x40038000 0

def State.bayCh (s : State) (n : Nat) : BayCh := Tab.get (fun _ => {}) s.bay.ch n
def State.setBayCh (s : State) (n : Nat) (c : BayCh) : State :=
  { s with bay := { s.bay with ch := Tab.set (fun _ => {}) s.bay.ch n c } }
def State.port (s : State) (n : Nat) : BayuCh := Tab.get (fun _ => {}) s.bay.port n
def State.setPort (s : State) (n : Nat) (p : BayuCh) : State :=
  { s with bay := { s.bay with port := Tab.set (fun _ => {}) s.bay.port n p } }

/-- R292: the group of a channel is released. -/
def State.bayUp (s : State) (n : Nat) : Bool := s.isUp (55 + n / 16)
def State.bayEn (s : State) (n : Nat) : Bool := s.flag (kBayCh n 0 0)
def State.gangOf (s : State) (n : Nat) : Nat := s.reg (kBayCh n 0 4)
def State.vb12 (s : State) (g : Nat) : Bool := bit (s.reg kVb12) g
/-- R316: a bit of BAY_CHn_EVENT. -/
def State.bayEvent (s : State) (n i : Nat) : State := s.setFlag (kBayCh n 0x14 i) true
/-- R303: the channel is in a queued unit. -/
def State.queued (s : State) (n : Nat) : Bool := s.bay.units.any (·.contains n)
/-- A channel leaves its unit; an empty unit is removed (R306). -/
def State.dequeue (s : State) (n : Nat) : State :=
  { s with bay := { s.bay with units := (s.bay.units.map (fun u => u.filter (fun x => x != n))).filter (fun u => !u.isEmpty) } }
/-- R62: some channel is in RAMP or ON. -/
def State.baysActive (s : State) : Bool := (List.range 128).any (fun n => (s.bayCh n).st == 1 || (s.bayCh n).st == 2)
/-- R297: a channel's RUNNING bit; its fall within 2 µs of EN is not timed here. -/
def State.bayRunning (s : State) (n : Nat) : Bool := s.bayEn n || (s.bayCh n).st == 1 || (s.bayCh n).st == 2
/-- R312: a port's RUNNING bit. -/
def State.portRunning (s : State) (n : Nat) : Bool := s.flag (kBayu n 0 0) || (s.port n).shifting.isSome

/-- R307: an input is qualified active: its level against the group's POL; an input never qualified is inactive. -/
def BayIn.active (i : BayIn) (pol : Bool) : Bool := i.level.elim false (fun l => l != pol)
def State.prsActive (s : State) (n : Nat) : Bool := (s.bayCh n).prs.active (s.flag (kBayIn (n / 16) 0))
/-- R313: with MODE = 1 the fault input reads inactive. -/
def State.fltActive (s : State) (n : Nat) : Bool :=
  !s.flag (kBayu n 0 1) && (s.bayCh n).flt.active (s.flag (kBayIn (n / 16) 1))

/-- Table 16-4: a BAY record. -/
def bayRec (cls code n cause left : Nat) : ErrRec := { cls := cls, source := 0x17, code := code, detail := [n, cause, left] }

/-- A channel goes OFF; a backoff in hand is cancelled. -/
def State.bayOff (s : State) (n : Nat) : State :=
  (s.dequeue n).setBayCh n { s.bayCh n with st := 0, backoff := none }

/-- R296, R316: a trip. -/
def State.bayTrip (s : State) (n cause : Nat) : State :=
  let c := s.bayCh n
  let s1 : State := ((s.setReg (kBayCh n 0x18 0) cause).setReg (kBayCh n 0x18 16) (s.frameNum % 65536)).bayEvent n 0
  if c.retriesLeft = 0 then
    let s2 : State := (s1.setBayCh n { c with st := 4, trips := satAdd 8 c.trips 1, backoff := none }).bayEvent n 1
    (s2.raise (bayRec 0 1 n cause 0)).raise (bayRec 1 2 n cause 0)
  else
    (s1.setBayCh n { c with st := 3, retriesLeft := c.retriesLeft - 1, trips := satAdd 8 c.trips 1,
                            backoff := some (s.reg (kBayCh n 4 8)) }).raise (bayRec 0 1 n cause (c.retriesLeft - 1))

/-- R306, R295: STOP of a channel. -/
def State.bayStop (s : State) (n : Nat) : State :=
  let s1 : State := s.dequeue n
  if [1, 2, 3].contains (s.bayCh n).st then s1.bayOff n else s1

/-- R306, R295: EN of a channel has been cleared. -/
def State.bayDisable (s : State) (n : Nat) : State := s.bayStop n

/-- R295: RESTART moves a LOCKED channel to OFF and reloads RETRIES_LEFT (R296); otherwise it has no effect (R317). -/
def State.bayRestart (s : State) (n : Nat) : State :=
  if (s.bayCh n).st = 4 then s.setBayCh n { s.bayCh n with st := 0, retriesLeft := s.reg (kBayCh n 4 0) } else s

/-! ### What the settings of a channel and of its port mean for the events that the world brings -/

/-- R299: the short comparator's threshold in mV across the shunt. -/
def State.shortMv (s : State) (n : Nat) : Nat := 20 + 12 * s.reg (kBayCh n 0 16)
/-- R298: the ramp time in µs. -/
def State.rampUs (s : State) (n : Nat) : Nat := 500 * s.reg (kBayCh n 0 8)
/-- R298: SRC_OK of a source and a supply voltage in mV. -/
def srcOkAt (srcMv vbayMv : Nat) : Bool := decide (vbayMv ≤ srcMv + 800)
/-- R307: the filter time of a group's inputs in µs. -/
def State.filterUs (s : State) (g : Nat) : Nat := 2 ^ s.reg (kBayIn g 2)
/-- R310: the BCLK cycle after the falling edge of a start bit at which the receiver samples bit `k`, the start bit being bit 0. -/
def State.sampleAt (s : State) (n k : Nat) : Nat := s.reg (kBayu n 0 16) / 2 + k * s.reg (kBayu n 0 16)
/-- R310: the bits of a character by FMT, from the start bit to the last stop bit. -/
def charBits (fmt : Nat) : Nat := 10 + ofBool (fmt = 1 || fmt = 2 || fmt = 4 || fmt = 5) + ofBool (decide (3 ≤ fmt))
/-- R313: the BCLK cycles of a period of the synchronous clock in which it is high, and the idle periods between two characters. -/
def State.syncHigh (s : State) (n : Nat) : Nat := s.reg (kBayu n 0 16) / 2
def State.syncGap (s : State) (n : Nat) : Nat := if 3 ≤ s.reg (kBayu n 0 4) then 2 else 1

/-! ### Units and admission (R303, R304) -/

/-- R303: the group requires presence and the channel's PRS is not qualified active. -/
def State.absent (s : State) (n : Nat) : Bool := s.flag (kBayIn (n / 16) 5) && !s.prsActive n

/-- R303: why a channel is left out of a unit: the VBAY12 monitor, or required presence. -/
def State.leftOut (s : State) (n : Nat) : Option Nat :=
  if !s.vb12 (n / 16) then some 6 else if s.absent n then some 7 else none

/-- R303: a channel that a start may queue; one left out for its presence sets NOPRS. -/
def State.startable (s : State) (n : Nat) : Bool :=
  s.bayUp n && s.bayEn n && (s.bayCh n).st == 0 && !s.queued n

def State.noteLeftOut (s : State) (ns : List Nat) : State :=
  ns.foldl (fun s n => if s.absent n then s.bayEvent n 7 else s) s

/-- Split into pieces of `n` channels. -/
def chunksOf (n : Nat) : Nat → List Nat → List (List Nat)
  | 0, _ => []
  | k + 1, l => if l.isEmpty then [] else l.take (max n 1) :: chunksOf n k (l.drop (max n 1))

/-- R303: a unit is queued, split by BUDGET. -/
def State.queueUnit (s : State) (u : List Nat) : State :=
  if u.isEmpty then s else
  let b := s.reg kBudget
  let s1 : State := { s with bay := { s.bay with units := s.bay.units ++ chunksOf b 128 u } }
  if b < u.length then s1.setFlag (fk 0x40028060 0) true else s1

/-- The channels of a gang. -/
def State.gangChannels (s : State) (g : Nat) : List Nat := (List.range 128).filter (fun n => s.bayUp n && s.gangOf n == g)

/-- R303: a retry that falls due: queued, or the channel goes OFF with UV or NOPRS. -/
def State.retryDue (s : State) (n : Nat) : Option Nat × State :=
  let s1 : State := s.setBayCh n { s.bayCh n with backoff := none }
  match s1.leftOut n with
  | some e => (none, (s1.bayOff n).bayEvent n e)
  | none => (some n, s1)

/-- R300: at the BACKOFF-th latch edge after its trip a channel's retry is queued as a unit of one. -/
def State.backoffExpiry (s : State) (n : Nat) : State :=
  match s.retryDue n with
  | (some m, s1) => s1.queueUnit [m]
  | (none, s1) => s1

/-- A unit before another at the same edge: by gang, then by lowest channel. -/
def unitBefore (a b : Nat × List Nat) : Bool :=
  decide (a.1 < b.1) || (a.1 == b.1 && decide (a.2.headD 0 ≤ b.2.headD 0))

def insertUnit (u : Nat × List Nat) : List (Nat × List Nat) → List (Nat × List Nat)
  | [] => [u]
  | v :: t => if unitBefore u v then u :: v :: t else v :: insertUnit u t

/-- R304, R296, R308: a channel enters RAMP; from OFF its RETRIES_LEFT is loaded; a fault qualified active trips it at once. -/
def State.admitChan (s : State) (n : Nat) : State :=
  let c := s.bayCh n
  let s1 : State := s.setBayCh n { c with st := 1, backoff := none,
                                          retriesLeft := if c.st = 0 then s.reg (kBayCh n 4 0) else c.retriesLeft }
  if s.reg (kBayCh n 4 16) = 1 && s.fltActive n && c.flt.masked.isNone then s1.bayTrip n 2 else s1

/-- Channels in RAMP. -/
def State.ramping (s : State) : Nat := ((List.range 128).filter (fun n => (s.bayCh n).st == 1)).length

/-- R304: units are admitted in order until the first that does not fit. -/
def State.admitUnits : Nat → State → State
  | 0, s => s
  | k + 1, s =>
    match s.bay.units with
    | [] => s
    | u :: rest =>
      if s.ramping + u.length ≤ s.reg kBudget then
        State.admitUnits k (u.foldl State.admitChan { s with bay := { s.bay with units := rest } })
      else s

/-- R303: the units that this latch edge queues, with their gang numbers. A channel that is stopped at this edge starts in none of
them (R306). -/
def State.newUnits (s : State) : List (Nat × List Nat) × State :=
  let gangs := (List.range 8).filter (bit s.bay.gangStart)
  let a := gangs.foldl (fun (us, (s : State)) g =>
    let all := (s.gangChannels g).filter (fun n => s.startable n && !(s.bayCh n).stopReq)
    (us ++ [(g, all.filter (fun n => (s.leftOut n).isNone))], s.noteLeftOut all)) (([] : List (Nat × List Nat)), s)
  let taken := a.1.flatMap (·.2)
  let singles := (List.range 128).filter (fun n => (s.bayCh n).startReq && s.startable n && !taken.contains n)
  let b : List (Nat × List Nat) × State :=
    (a.1 ++ (singles.filter (fun n => (s.leftOut n).isNone)).map (fun n => (s.gangOf n, [n])), a.2.noteLeftOut singles)
  let due := (List.range 128).filter (fun n => (s.bayCh n).backoff == some 0)
  due.foldl (fun (us, (s : State)) n => match s.retryDue n with
    | (some m, s1) => (us ++ [(s.gangOf m, [m])], s1)
    | (none, s1) => (us, s1)) b

/-- The bay channels at a latch edge: STOP first (R306), then queueing (R303), then admission (R304). Backoffs and the frame's
input-change counts are counted here (R300, R309). -/
def State.bayLatch (s : State) : State :=
  let chans := (List.range 128).filter s.bayUp
  let stopped := chans.filter (fun n => (s.bayCh n).stopReq || bit s.bay.gangStop (s.gangOf n))
  let s1 : State := stopped.foldl (fun s n => (s.bayStop n).setBayCh n { (s.bayStop n).bayCh n with startReq := false }) s
  let s2 : State := { s1 with bay := { s1.bay with gangStart := (s1.bay.gangStart &&& (255 - s1.bay.gangStop)) } }
  let s3 : State := chans.foldl (fun s n =>
    let c := s.bayCh n
    let step := fun (i : BayIn) => { i with changes := 0, masked := i.masked.map (· - 1) }
    s.setBayCh n { c with backoff := c.backoff.map (· - 1), prs := step c.prs, flt := step c.flt }) s2
  let q := s3.newUnits
  let sorted := q.1.foldl (fun l u => if u.2.isEmpty then l else insertUnit u l) []
  let s4 : State := sorted.foldl (fun s u => s.queueUnit u.2) q.2
  let s5 : State := chans.foldl (fun s n => s.setBayCh n { s.bayCh n with startReq := false, stopReq := false }) s4
  State.admitUnits 128 { s5 with bay := { s5.bay with gangStart := 0, gangStop := 0 } }

/-! ### Events of the channels -/

/-- R298: the ramp time has elapsed. -/
def execRampEnd (chan : Fin 128) (srcOk : Bool) (s : State) : Out :=
  .next (if s.bayUp chan && (s.bayCh chan).st == 1 then
    (if srcOk then s.setBayCh chan { s.bayCh chan with st := 2 } else s.bayTrip chan 1) else s)

/-- R299: a sustained crossing of the short comparator. -/
def execShortTrip (chan : Fin 128) (s : State) : Out :=
  .next (if s.bayUp chan && ((s.bayCh chan).st == 1 || (s.bayCh chan).st == 2) then s.bayTrip chan 0 else s)

/-- R300: the tick at whose latch edge a channel's backoff ends is due; a retry for which this command does not come is queued at
that edge (log entry 159). -/
def execBackoffExpiry (chan : Fin 128) (s : State) : Out :=
  .next (if s.bayUp chan && s.clk.tickDue && (s.bayCh chan).st == 3 && (s.bayCh chan).backoff == some 1
    then s.backoffExpiry chan else s)

/-- R302: VBAY12 of a group has held at or above 10.5 V. -/
def execVb12OkRise (group : Fin 8) (s : State) : Out :=
  .next (if s.isUp (55 + group) then s.setReg kVb12 (setBit (s.reg kVb12) group true) else s)

/-- R302: VBAY12 has fallen: ramping and ON channels go OFF with UV and a record each, and nothing of the group stays queued; a
queued retry ends as R303 ends one that falls due. -/
def execBayUv (group : Fin 8) (s : State) : Out :=
  if !(s.isUp (55 + group) && s.vb12 group) then .next s else
  let s1 : State := s.setReg kVb12 (setBit (s.reg kVb12) group false)
  .next (((List.range 16).map (· + 16 * group.val)).foldl (fun s n =>
    let st := (s.bayCh n).st
    if st = 1 || st = 2 then ((s.bayOff n).bayEvent n 6).raise (bayRec 0 3 n 3 (s.bayCh n).retriesLeft)
    else if s.queued n then (if st = 3 then (s.bayOff n).bayEvent n 6 else s.dequeue n)
    else s) s1)

/-- R309: an input qualifies a change: it counts; the 33rd of a frame masks the input in place of its normal event. The
answer says whether the normal event happens. The first qualified level counts as a change (log entry 149). -/
def BayIn.change (i : BayIn) (level : Bool) : BayIn × Bool × Bool :=
  if i.masked.isSome then ({ i with raw := some level }, false, false)
  else if i.level = some level then (i, false, false)
  else if i.changes = 32 then
    ({ i with level := some level, raw := some level, changes := 33, masked := some 64 }, false, true)
  else ({ i with level := some level, raw := some level, changes := i.changes + 1 }, true, false)

/-- R406: VBAYIO of a channel's group is supplied. -/
def State.bayRing (s : State) (n : Nat) : Bool := bit s.serv.io.vbayio (n / 16)

/-- R307, R308: the presence input of a bay qualifies a level of its ball, which is 0 while its ring is not supplied (R406). -/
def execPrsChg (chan : Fin 128) (level : Bool) (s : State) : Out :=
  if !s.bayUp chan then .next s else
  let c := s.bayCh chan
  let r := c.prs.change (level && s.bayRing chan)
  let s1 : State := s.setBayCh chan { c with prs := r.1 }
  if r.2.2 then .next (s1.bayEvent chan 4)
  else if !r.2.1 then .next s1
  else
    let s2 : State := s1.bayEvent chan 2
    .next (if s2.flag (kBayIn (chan.val / 16) 5) && !s2.prsActive chan && (c.st == 1 || c.st == 2) then s2.bayOff chan else s2)

/-- R307, R308: the fault input of a bay qualifies a level of its ball, which is 0 while its ring is not supplied (R406); in MODE 1 it
takes no action (R313). -/
def execFlt (chan : Fin 128) (level : Bool) (s : State) : Out :=
  if !s.bayUp chan || s.flag (kBayu chan 0 1) then .next s else
  let c := s.bayCh chan
  let r := c.flt.change (level && s.bayRing chan)
  let s1 : State := s.setBayCh chan { c with flt := r.1 }
  if r.2.2 then .next (s1.bayEvent chan 5)
  else if !r.2.1 || !s1.fltActive chan then .next s1
  else
    let s2 : State := s1.bayEvent chan 3
    let act := s2.reg (kBayCh chan 4 16)
    .next (if c.st == 1 || c.st == 2 then
      (if act = 1 then s2.bayTrip chan 2 else if act = 2 then s2.bayOff chan else s2) else s2)

/-- R309: the 64th tick after the masking has passed: the input resumes from its current qualified level. -/
def execInputUnmask (chan : Fin 128) (fault : Bool) (s : State) : Out :=
  let c := s.bayCh chan
  let i := if fault then c.flt else c.prs
  if !(s.bayUp chan && i.masked == some 0) then .next s else
  let i1 : BayIn := { i with masked := none, level := i.raw }
  .next (s.setBayCh chan (if fault then { c with flt := i1 } else { c with prs := i1 }))

/-! ### Serial ports -/

/-- The transmitter takes the next character when it is idle (R310). -/
def BayuCh.take (p : BayuCh) (en : Bool) : BayuCh :=
  match p.shifting, p.tx with
  | none, c :: rest => if en then { p with shifting := some c, tx := rest } else p
  | _, _ => p

/-- R310: a write to BAYU_CHn_TX. -/
def State.portTx (s : State) (n v : Nat) : State :=
  let p := s.port n
  if 16 ≤ p.tx.length then s.count (kBayu n 0x1C 8) 8 1
  else s.setPort n (({ p with tx := p.tx ++ [v % 256] } : BayuCh).take (s.flag (kBayu n 0 0)))

/-- R311: a read of BAYU_CHn_RX. -/
def State.portRx (s : State) (n : Nat) : Nat × State :=
  match (s.port n).rx with
  | [] => (0x80000000, s)
  | w :: rest => (w, s.setPort n { s.port n with rx := rest })

/-- R312: EN has been written: cleared, it empties both FIFOs; set, it starts the transmitter. -/
def State.portEnable (s : State) (n : Nat) (en : Bool) : State :=
  s.setPort n (if en then (s.port n).take true else { s.port n with rx := [], tx := [] })

/-- R312, R310: a character has been shifted out. -/
def execCharacterShiftedOut (chan : Fin 128) (s : State) : Out :=
  .next (if s.bayUp chan && (s.port chan).shifting.isSome then
    s.setPort chan (({ s.port chan with shifting := none } : BayuCh).take (s.flag (kBayu chan 0 0))) else s)

/-- R315: the receivers of a channel's group are admitted. -/
def State.rxAdmitted (s : State) (n : Nat) : Bool := bit (s.reg kAdmit) (n / 16)

/-- R311: the FIFO word of a character: PE only with parity, BRK when data, parity and stop are all 0. -/
def rxWord (fmt : Nat) (data : Nat) (pe fe : Bool) : Nat :=
  let par := fmt = 1 || fmt = 2 || fmt = 4 || fmt = 5
  let even := ((List.range 8).filter (bit data)).length % 2 = 1
  let odd := fmt = 2 || fmt = 5
  let pbit := (even != odd) != pe
  let brk := fe && data = 0 && !(par && pbit)
  data + 256 * ofBool (par && pe) + 512 * ofBool fe + 1024 * ofBool brk

/-- R311, R313, R315: a received character becomes a FIFO word, or is discarded. In MODE 1 it is the eight bits received while
a character is shifted out, with no flags, and none is received while none is shifted. While the ring is not supplied RXD reads 0 (R406): it has no falling edge, so that no
character starts, and MODE 1 receives zeros. -/
def execCharacterReceived (chan : Fin 128) (data : Byte) (pe fe : Bool) (s : State) : Out :=
  if !(s.bayUp chan && s.flag (kBayu chan 0 0)) ||
    !(if s.flag (kBayu chan 0 1) then (s.port chan).shifting.isSome else s.bayRing chan) then .next s else
  if !s.rxAdmitted chan then .next (s.count (fk (0x40038010 + 4 * (chan.val / 16)) 0) 16 1) else
  let sync := s.flag (kBayu chan 0 1)
  let w := if sync then (if s.bayRing chan then data.toNat else 0) else rxWord (s.reg (kBayu chan 0 4)) data.toNat pe fe
  let s1 : State := if !sync && fe then s.count (kBayu chan 0x1C 24) 8 1 else s
  .next (if 16 ≤ (s1.port chan).rx.length then s1.count (kBayu chan 0x1C 0) 8 1
    else s1.setPort chan { s1.port chan with rx := (s1.port chan).rx ++ [w] })

/-- R310, R315: a false start is counted once the receiver is admitted; an RXD that reads 0 for want of its ring's supply (R406) makes
none. -/
def execFalseStart (chan : Fin 128) (s : State) : Out :=
  .next (if s.bayUp chan && s.bayRing chan && s.flag (kBayu chan 0 0) && !s.flag (kBayu chan 0 1) && s.rxAdmitted chan
    then s.count (kBayu chan 0x1C 16) 8 1 else s)

/-- R314: a received word moves into the port's ring, as requester 1 of instance 19; its request leaves Reef 1 (R61). -/
def execBayuRingMove (chan : Fin 128) (s : State) : Out :=
  let p := s.port chan
  let l := s.reg (kBayu chan 4 0)
  let a := s.reg (kBayu chan 4 6) * 64 + 2 * (p.head % 2 ^ l)
  match p.rx with
  | [] => .next s
  | w :: rest =>
    if !(s.bayUp chan && l != 0 && decide ((p.head + 65536 - s.reg (kBayu chan 8 0)) % 65536 < 2 ^ l) && s.sparOk a) then .next s
    else
      let s0 : State := s.reef1Leave
      .next ((s0.useArb 19 (plainReq 1 1)).elim s0 (fun s1 =>
        (s1.memWrite a (leBytes w 2)).setPort chan { p with rx := rest, head := (p.head + 1) % 65536 }))

/-- R315: the receivers of a group are admitted. -/
def execReceiverAdmission (group : Fin 8) (s : State) : Out :=
  .next (if s.isUp (55 + group) then s.setReg kAdmit (setBit (s.reg kAdmit) group true) else s)

/-! ### The group's domain -/

/-- R293, R301: a group's domain is off: its channels are OFF with their registers at reset, its ports are empty. -/
def State.loseBayGroup (s : State) (g : Nat) : State :=
  let out := fun n => decide (n / 16 ≠ g)
  let s1 : State := { s with bay := { s.bay with
    ch := Tab.keep out s.bay.ch, port := Tab.keep out s.bay.port
    units := (s.bay.units.map (fun u => u.filter out)).filter (fun u => !u.isEmpty) } }
  (s1.setReg kVb12 (setBit (s1.reg kVb12) g false)).setReg kAdmit (setBit (s1.reg kAdmit) g false)

end Sys2Proof.Machine
end

