-- ==== Sys2Proof/Machine/Adc.lean ====
section
/-! DEFINITION. Analogue conversion (R320–R331): sequencers, results, FIFOs and rings. -/
namespace Sys2Proof.Machine

def State.conv (s : State) (c : Nat) : Conv := Tab.get (fun _ => {}) s.adc.conv c
def State.setConv (s : State) (c : Nat) (x : Conv) : State :=
  { s with adc := { s.adc with conv := Tab.set (fun _ => {}) s.adc.conv c x } }
def kConv (c lo : Nat) : Key := fk (0x40010020 + 0x10 * c) lo
def State.convEn (s : State) (c : Nat) : Bool := s.isUp (50 + c) && s.flag (kConv c 0)
/-- The address of word 0 of a sequencer entry. -/
def seqAddr (c e : Nat) : Nat := 0x40010400 + 0x200 * c + 8 * e

/-- R325: the converters that run with one: its locked group, or itself alone. -/
def State.lockGroup (s : State) (c : Nat) : List Nat :=
  let g := (List.range 4).filter (bit (s.reg (fk 0x40010000 0)))
  if g.contains c && decide (2 ≤ g.length) then g else [c]

/-- R325: the TRIG that governs a converter. -/
def State.convTrig (s : State) (c : Nat) : Bool := s.flag (kConv ((s.lockGroup c).headD c) 1)

/-- R323: an entry starts: both its words are latched. -/
def State.startEntry (s : State) (c e : Nat) : State :=
  let a := seqAddr c e
  let w0 := s.reg (fk a 0) + s.reg (fk a 8) * 256 + s.reg (fk a 16) * 65536 + s.reg (fk a 20) * 2 ^ 20
  s.setConv c { s.conv c with
    running := true, waiting := false, entry := e, w0 := w0, w1 := s.reg (fk (a + 4) 0), results := 0, sum := 0, taken := 0,
    unsettled := false, refOn := false, beganOk := s.adc.refOk }

/-- R323: the ACLK cycles that the entry in hand lasts: DELAY + 16 × A × (REPEAT_M1 + 1). -/
def Conv.entryCycles (x : Conv) : Nat := bits x.w1 0 12 + 16 * 2 ^ bits x.w0 16 3 * (bits x.w0 8 8 + 1)

/-- R324, R325: a converter's group can run. -/
def State.groupReady (s : State) (c : Nat) : Bool := (s.lockGroup c).all s.convEn

/-- R324: a group starts at entry 0. -/
def State.startGroup (s : State) (c : Nat) : State :=
  (s.lockGroup c).foldl (fun s k => (s.setConv k { s.conv k with stopping := false }).startEntry k 0) s

/-- R324, R325: no member of a converter's group is still at a conversion. -/
def State.groupIdle (s : State) (c : Nat) : Bool := (s.lockGroup c).all (fun k => !(s.conv k).running)

/-- R324: a converter whose EN has taken effect starts, with TRIG = 0, at the next ACLK edge at which its group has stopped; with
TRIG = 1 the latch edge starts it. -/
def execConverterStart (conv : Fin 4) (s : State) : Out :=
  .next (if s.groupReady conv && s.groupIdle conv && !s.convTrig conv then s.startGroup conv else s)

/-- R324: at a latch edge every ready converter with TRIG = 1 starts, or abandons its entry, at entry 0. -/
def State.adcLatch (s : State) : State :=
  (List.range 4).foldl (fun s c => if s.groupReady c && s.convTrig c && (s.lockGroup c).all (fun k => !(s.conv k).stopping) then
    s.startEntry c 0 else s) s

/-- R324, R325: EN has been written; clearing it stops every member of the group after its conversion in hand. -/
def State.convEnable (s : State) (c : Nat) (en : Bool) : State :=
  if en then s else
  (s.lockGroup c).foldl (fun s k => if (s.conv k).running then
    (if (s.conv k).waiting then s.setConv k { s.conv k with running := false, waiting := false }
      else s.setConv k { s.conv k with stopping := true }) else s) s

/-- R324: a converter's RUNNING bit. -/
def State.convRunning (s : State) (c : Nat) : Bool := s.convEn c || (s.conv c).running

/-- Table 14-1: what an input code selects. -/
inductive AdcInput where
  | ana (k : Nat) | vstore | vstby | vcore | vret | vmram | vio33 | vio18 | vbak | dieTemperature | halfReference | ground
  | current (chan : Nat) | source (chan : Nat)
  deriving DecidableEq, Repr

/-- Table 14-1, R320: the input that a code selects on a converter; none for a reserved code. -/
def adcInput (c code : Nat) : Option AdcInput :=
  if code < 0x20 then some (.ana code)
  else if 0x40 ≤ code ∧ code < 0x60 then some (.current (32 * c + (code - 0x40)))
  else if 0x60 ≤ code ∧ code < 0x80 then some (.source (32 * c + (code - 0x60)))
  else [AdcInput.vstore, .vstby, .vcore, .vret, .vmram, .vio33, .vio18, .vbak, .dieTemperature, .halfReference, .ground][code - 0x20]?

/-- Table 14-1: the divider of an input; the bay monitors' gains are those of R294. -/
def AdcInput.divider : AdcInput → Nat
  | .vstore | .vbak => 4
  | .vstby | .vio33 => 2
  | .source _ => 8
  | _ => 1

/-- Table 14-1, R332: the voltage in µV that the converter sees: the world's, but analogue ground is 0. -/
def Conv.seen (x : Conv) (c : Nat) (uv : Int) : Int := if adcInput c (bits x.w0 0 8) = some .ground then 0 else uv

/-- R321: the code of an input voltage in µV. -/
def adcCode (uv : Int) : Nat := min 4095 ((uv + 250).toNat / 500)

/-- R327–R329: a result enters its FIFO, or is lost. -/
def State.putResult (s : State) (c word ring : Nat) : State :=
  if 8 ≤ (s.adc.fifo.filter (fun f => f.1 == c)).length then
    (s.count (fk (0x40010028 + 0x10 * c) 0) 16 1).setConv c { s.conv c with lostBefore := true }
  else
    let w := word + ofBool (s.conv c).lostBefore * 2 ^ 30
    let s1 : State := { s with adc := { s.adc with fifo := s.adc.fifo ++ [(c, ring, w)] } }
    s1.setConv c { s1.conv c with lostBefore := false }

/-- R323: the entry after one. -/
def State.nextEntry (s : State) (c : Nat) : Nat :=
  if (s.conv c).entry + 1 < s.reg (kConv c 8) then (s.conv c).entry + 1 else 0

/-- R323, R325: the entry in hand is finished; a locked member waits for the others. -/
def State.entryDone (s : State) (c : Nat) : State :=
  let s1 : State := s.setConv c { s.conv c with waiting := true }
  if (s1.lockGroup c).all (fun k => (s1.conv k).waiting) then
    (s1.lockGroup c).foldl (fun s k => s.startEntry k (s.nextEntry k)) s1
  else s1

/-- R323, R326, R324: a conversion completes. A result whose conversions did not all begin with REF_OK is flagged, and its CODE is 0
where the reference was off in each of them, else a free value. -/
def State.conversion (s : State) (c : Nat) (uv : Int) : State :=
  let x := s.conv c
  let a := 2 ^ bits x.w0 16 3
  let off := !s.isUp 54
  let uns := x.unsettled || off || !x.beganOk
  let on := !off || (x.taken != 0 && x.refOn)
  let sum := x.sum + (if off then 0 else adcCode (x.seen c uv))
  let s1 : State := s.setConv c { x with sum := sum, taken := x.taken + 1, unsettled := uns, refOn := on, beganOk := s.adc.refOk }
  let stop := fun (s : State) => s.setConv c { s.conv c with running := false, stopping := false }
  if x.taken + 1 < a then (if x.stopping then stop s1 else s1)
  else
    let f := s1.freeBits 12
    let code := if uns && on then f.1 else (sum + a / 2) / a
    let s2 : State := if uns && on then f.2 else s1
    let s3 : State := (s2.setConv c { s2.conv c with
      sum := 0, taken := 0, unsettled := false, refOn := false, results := x.results + 1 }).putResult c
      (code + x.entry * 4096 + c * 2 ^ 18 + ofBool uns * 2 ^ 31) (bits x.w0 20 2)
    if x.stopping then stop s3
    else if x.results = bits x.w0 8 8 then s3.entryDone c
    else s3

def execConversionDone (conv : Fin 4) (microvolts : Int) (s : State) : Out :=
  .next (if s.isUp (50 + conv) && (s.conv conv).running && !(s.conv conv).waiting then s.conversion conv microvolts else s)

/-- R328: the oldest waiting word moves into its ring, if there is room, as requester 0 of instance 19; its request leaves Reef 1
(R61). -/
def execAdcRingMove (s : State) : Out :=
  match s.adc.fifo with
  | [] => .next s
  | (_, r, w) :: rest =>
    let a := 0x40010100 + 0x10 * r
    let l := s.reg (fk (a + 4) 0)
    let head := s.reg (fk (a + 0xC) 0)
    let dst := s.reg (fk a 6) * 64 + 4 * (head % 2 ^ l)
    if !(decide ((head + 65536 - s.reg (fk (a + 8) 0)) % 65536 < 2 ^ l) && s.sparOk dst) then .next s else
    let s0 : State := s.reef1Leave
    .next ((s0.useArb 19 (plainReq 0 1)).elim s0 (fun s2 =>
      let s1 : State := (s2.memWrite dst (leBytes w 4)).setReg (fk (a + 0xC) 0) ((head + 1) % 65536)
      { s1 with adc := { s1.adc with fifo := rest } }))

/-- R205: words wait for their move into a ring. -/
def State.ringsPending (s : State) : Bool :=
  !s.adc.fifo.isEmpty || s.bay.port.any (fun p => !p.2.rx.isEmpty && s.reg (kBayu p.1 4 0) != 0)

/-- R326: 400 µs have passed since the release of domain 54. -/
def execRefOk (s : State) : Out :=
  .next (if s.isUp 54 then { s with adc := { s.adc with refOk := true } } else s)

/-- R331: a converter's domain is off: its sequencer, FIFO and table are lost; a locked group with it stops (R325). -/
def State.loseConv (s : State) (c : Nat) : State :=
  let s1 : State := s.convEnable c false
  let s2 : State := s1.setConv c {}
  { s2 with adc := { s2.adc with
    fifo := s2.adc.fifo.filter (fun f => f.1 != c), staged := Tab.keep (fun k => decide (k / 64 ≠ c)) s2.adc.staged } }

end Sys2Proof.Machine
end

