-- ==== Sys2Proof/Machine/CryptOps.lean ====
section
/-! DEFINITION. The crypto engine's CC operations (R206–R209). What an operation answers is computed from its inputs when it is
accepted, and takes effect at its end (log entry 33). -/
namespace Sys2Proof.Machine

def State.cryptBuf (s : State) : List Nat := toNats s.crypt.buf
/-- The buffer with bytes put at a position. -/
def State.bufWith (s : State) (at_ : Nat) (bs : List Nat) : List Byte :=
  s.crypt.buf.take at_ ++ toBytes bs ++ s.crypt.buf.drop (at_ + bs.length)

/-- R207: the KEK as 32 bytes, word 0 first and most significant. -/
def State.kekBytes (s : State) : List Nat :=
  (List.range 8).flatMap (fun w => beNat (Tab.get (fun _ => 0) s.crypt.kek w) 4)

/-- R207: every KEK word has been written. -/
def State.kekValid (s : State) : Bool := s.crypt.kekWritten == 255

/-- R208: the digest and signature in the buffer verify under a public key. -/
def State.verify (s : State) (pub : BitVec 512) : Bool :=
  let b := s.cryptBuf
  ecdsaVerify (natBe (b.take 32)) (pub.toNat / 2 ^ 256) (pub.toNat % 2 ^ 256) (natBe ((b.drop 32).take 32)) (natBe ((b.drop 64).take 32))

/-- R207: the attestation key pair of the fuses. -/
def attestPriv : Nat := ecScalar Config.attestKey.toNat
def attestPub : Nat × Nat := ecPublic attestPriv

/-- Table 9-13: what an operation answers: STATUS, buffer, slot; and the state with the free bytes and the nonce it used. An
operation that takes no key slot cannot use a SLOT other than 0 (log entry 144). -/
def State.cryptResult (s : State) (op slot len tag : Nat) : CryptOp × State :=
  let r : CryptOp := { tag := tag, status := 0, buf := none, slot := none }
  if 3 ≤ op && slot != 0 then ({ r with status := 3 }, s) else
  match op with
  | 1 =>
    if !s.kekValid then ({ r with status := 4 }, s) else
    let clear := some (List.replicate 512 0#8)
    match aesUnwrap s.kekBytes (s.cryptBuf.take 72) with
    | some k => ({ r with buf := clear, slot := some (slot, some (natBe k)) }, s)
    | none => ({ r with status := 1, buf := clear }, s)
  | 2 => ({ r with slot := some (slot, none) }, s)
  | 3 => if 512 < len then ({ r with status := 3 }, s) else ({ r with buf := some (s.bufWith 0 (sha256 (s.cryptBuf.take len))) }, s)
  | 4 => ({ r with status := if s.verify Config.imagePub then 0 else 2 }, s)
  | 5 => ({ r with status := if s.verify Config.unlockPub then 0 else 2 }, s)
  | 6 =>
    let sig := ecdsaSign attestPriv (ecScalar (Config.attestNonce s.crypt.signs).toNat) (natBe (s.cryptBuf.take 32))
    ({ r with buf := some (s.bufWith 32 (beNat sig.1 32 ++ beNat sig.2 32)) },
     { s with crypt := { s.crypt with signs := s.crypt.signs + 1 } })
  | 7 => ({ r with buf := some (s.bufWith 0 (toNats (s.freeBytes 32).1)) }, (s.freeBytes 32).2)
  | 8 => ({ r with buf := some (s.bufWith 0 (beNat attestPub.1 32 ++ beNat attestPub.2 32)) }, s)
  | _ => ({ r with status := 3 }, s)

/-- R208: the CC's request at instance 18 for the 48 AES blocks of UNWRAP. -/
def cryptReq : ArbReq := { k := 1, beats := 48, prio := 7, tenant := some 0 }

/-- R208, R217: a write of CRYPT_CMD is a try request for the CC's place; CRYPT_SUB shows the outcome. UNWRAP stands for its 48
AES blocks. -/
def State.cryptCmd (s : State) (op slot len : Nat) : State :=
  if !s.placeFree 18 1 || s.arbFrozen 18 then
    let r := s.tryRefuse 18 1
    r.2.setReg (fk 0x40016008 0) r.1
  else
    let tag := placeTag 0 s.crypt.count
    let r := s.cryptResult op slot len tag
    let s1 : State := { r.2 with crypt := { r.2.crypt with op := some r.1, count := (s.crypt.count + 1) % 8192 } }
    let s2 : State := if op = 1 then s1.stand 18 cryptReq else s1
    s2.setReg (fk 0x40016008 0) (2 ^ 31 + tag)

/-- An operation's outcome takes effect: buffer, slot, STATUS, tag, counters, the CRYPT interrupt. -/
def State.cryptEnd (s : State) (o : CryptOp) : State :=
  let keys := match o.slot with
    | some (t, k) => Tab.set (fun _ => none) s.crypt.keys t k
    | none => s.crypt.keys
  let s1 : State := { s with crypt := { s.crypt with op := none, buf := o.buf.getD s.crypt.buf, keys := keys } }
  let s2 : State := (s1.setReg (fk 0x4001600C 0) o.status).setReg (fk 0x4001600C 16) o.tag
  ((s2.count (fk 0x40016040 (if o.status = 0 then 0 else 16)) 16 1).unstand 18 1).irq 6

/-- R208: the operation in hand ends; UNWRAP once its beats are granted. -/
def execCryptOperationEnd (s : State) : Out :=
  match s.crypt.op with
  | some o => .next (if s.isUp 49 && !(s.arb 18).standing.any (fun r => r.k == 1) then s.cryptEnd o else s)
  | none => .next s

/-- R207: a KEK word is written. -/
def State.kekWrite (s : State) (w v : Nat) : State :=
  { s with crypt := { s.crypt with kek := Tab.set (fun _ => 0) s.crypt.kek w v, kekWritten := setBit s.crypt.kekWritten w true } }

/-- R208: a write of CRYPT_BUF is discarded while an operation is in hand. -/
def State.bufWrite (s : State) (at_ v : Nat) : State :=
  if s.crypt.op.isSome then s
  else { s with crypt := { s.crypt with buf := s.bufWith at_ (toNats (leBytes v 4)) } }

/-- R207, R208: domain 49 goes off: the operation in hand ends ABORTED, with nothing of its result; keys, KEK and buffer are
lost. -/
def State.loseCrypt (s : State) : State :=
  let s1 : State := match s.crypt.op with
    | some o => s.cryptEnd { o with status := 5, buf := none, slot := none }
    | none => s
  { s1 with crypt := { signs := s.crypt.signs } }

/-- R207: at a release of domain 49, Cyntoux, where it runs, writes the KEK of the configuration image. -/
def State.kekRelease (s : State) : State :=
  match s.boot.kek with
  | some k => if s.boot.accepting then
      (List.range 8).foldl (fun s w => s.kekWrite w (ofBe ((k.drop (4 * w)).take 4))) s else s
  | none => s

end Sys2Proof.Machine
end

