-- ==== Sys2Proof/Machine/Calendar.lean ====
section
/-! DEFINITION. Gregorian dates of the calendar (R102): years are counted from 2000. -/
namespace Sys2Proof.Machine

/-- R102: leap years; 2100 and 2200 are none. -/
def leapYear (y : Nat) : Bool := y % 4 == 0 && ((2000 + y) % 100 != 0 || (2000 + y) % 400 == 0)

/-- The length of a month. -/
def monthLen (y m : Nat) : Nat :=
  if m = 2 then (if leapYear y then 29 else 28)
  else if m = 4 ∨ m = 6 ∨ m = 9 ∨ m = 11 then 30 else 31

/-- Days from 2000-01-01 to the start of a year. -/
def yearStart : Nat → Nat
  | 0 => 0
  | y + 1 => yearStart y + (if leapYear y then 366 else 365)

/-- Days from the start of a year to the start of a month. -/
def monthStart (y m : Nat) : Nat := ((List.range (m - 1)).map (fun i => monthLen y (i + 1))).foldl (· + ·) 0

/-- Days since 2000-01-01. -/
def daysSince (y m d : Nat) : Nat := yearStart y + monthStart y m + (d - 1)

/-- R102: WDAY, 0 Sunday; 2000-01-01 was a Saturday. -/
def wday (y m d : Nat) : Nat := (daysSince y m d + 6) % 7

end Sys2Proof.Machine
end

