-- ==== Sys2Proof/Machine/Spine.lean ====
section
/-! DEFINITION. The Dravline rack spine and the probe engine (R240–R267) with the catalog lookup rule (R183–R185): frames,
queries and their status, tickets, fragments, reports, pair slots, head beacons, guards and probe excursions. -/
namespace Sys2Proof.Machine

/-! ### The lookup rule -/

/-- Table 9-4: what a lookup finds. -/
inductive Look where
  | hit (entry : Nat) | deferred (entry : Option Nat) | poisoned | miss
  deriving DecidableEq, Repr

/-- R184: the catalog offsets of a key's two buckets. -/
def bucketsOf (n base key : Nat) : Nat × Nat :=
  let b1 := bits key 0 n
  let b2 := if bits key 24 n = b1 then Nat.xor b1 1 else bits key 24 n
  (base * 65536 + 64 * b1, base * 65536 + 64 * b2)

/-- R183: the catalog offsets of the eight entries of two buckets. -/
def entryOffs (b : Nat × Nat) : List Nat :=
  (List.range 4).map (fun e => b.1 + 16 * e) ++ (List.range 4).map (fun e => b.2 + 16 * e)

/-- R185: the rule over the eight entries, b1 first: 128 bits and whether a word of it is poisoned. -/
def lookRule (key : Nat) (es : List (Nat × Bool)) : Look :=
  let live := es.filter (fun e => !e.2 && bits e.1 0 48 == key)
  match live.find? (fun e => bits e.1 55 4 == 1) with
  | some e => .hit e.1
  | none =>
    match live.find? (fun e => bits e.1 55 4 == 2 || bits e.1 55 4 == 3 || bits e.1 55 4 == 5) with
    | some e => .deferred (some e.1)
    | none =>
      if es.any (·.2) then .poisoned
      else if [0, 4].any (fun i => bit (es.getD i (0, false)).1 119) then .deferred none
      else .miss

/-! ### Fields -/

def kSpineEn : Key := fk 0x4000A000 0
def kHead : Key := fk 0x4000A000 1
/-- SPINE_STAT bit `i`. -/
def kSpineStat (i : Nat) : Key := fk 0x4000A040 i
/-- SPINE_EVENT bit `i`. -/
def kSpineEvent (i : Nat) : Key := fk 0x4000A044 i
def kProbeEvent (i : Nat) : Key := fk 0x4000B044 i
def kDirValid : Key := fk 0x4000B000 0
def kChunkEn : Key := fk 0x4000B000 1
def kPairEn : Key := fk 0x4000B000 2
def kWakeSeq : Key := fk 0x4000B004 0
def kSleepSeq : Key := fk 0x4000B004 1
def kPsuEn : Key := fk 0x40012100 0

/-- The spine address. -/
def State.shelf (s : State) : Nat := s.reg (fk 0x4000A004 0)

/-- R244. -/
def State.admitted (s : State) : Bool := s.flag (kSpineStat 0)

/-- FRAME_NUM with the ticks that passed while the fast path was off (R92). -/
def State.frameNow (s : State) : Nat := (s.frameNum + s.clk.missed) % 2 ^ 32

/-- R262: the node beacons as head: HEAD is set, no conflict has stopped it, and the tick source is XT1. -/
def State.headActive (s : State) : Bool :=
  s.flag kSpineEn && s.flag kHead && !s.spine.headStop && !s.flag (kClkStat 4) && s.isUp 0

/-- R97: FRAME_STAT.ANCHORED; a head is its own reference. -/
def State.anchored (s : State) : Bool := s.headActive || s.flag (kFrameStat 0)

/-- R240, R263, R265: the ports that receive: bit 0 A, bit 1 B. In EXT mode only port A exists. -/
def State.rxPorts (s : State) : Nat :=
  if !(s.isUp 0 && s.flag kSpineEn) then 0 else
  let p := s.reg (fk 0x4000A000 2)
  setBit (setBit 0 0 (bit p 0 && !s.flag (kSpineStat 3))) 1 (bit p 1 && !s.flag (kSpineStat 4) && !s.flag (fk 0x4000A000 6))

/-- R263, R264: the ports that drive. -/
def State.txPorts (s : State) : Nat :=
  let p := s.reg (fk 0x4000A000 4)
  setBit (setBit 0 0 (bit p 0 && !s.flag (kSpineStat 5))) 1 (bit p 1 && !s.flag (kSpineStat 6) && !s.flag (fk 0x4000A000 6))

/-- R212: the request of a transmission at the spine transmitter's arbiter: 0 the beacon, 1 PRB, 2 the report queue, 3 the pair
engine; the last two carry Cyntoux's priority. -/
def sptxReq (k : Nat) : ArbReq := { plainReq k 1 with prio := if 2 ≤ k then 7 else 0 }

/-- A frame leaves, from its SD on; it is counted (SPINE_CNT1). With every driver cut nothing leaves. -/
def State.spineSend (s : State) (bs : List Byte) : State :=
  if s.txPorts = 0 then s else ({ s with spine := { s.spine with tx := bs } } : State).count (fk 0x4000A074 0) 16 1

/-- R247: body bytes followed by their CRC-16, most significant byte first. -/
def withCrc16 (sd : Nat) (body : List Byte) : List Byte := BitVec.ofNat 8 sd :: body ++ beBytes (crc16 body) 2

/-- R246: CRC-8, polynomial 0x07. -/
def crc8 (l : List Byte) : Nat :=
  l.foldl (fun c b => (List.range 8).foldl (fun c _ => if 128 ≤ c then Nat.xor (c * 2 % 256) 7 else c * 2) (Nat.xor c b.toNat)) 0

/-! ### Receiving a frame -/

/-- R241: a frame whose CRC fails is counted. -/
def State.crcFail (s : State) : State := s.count (fk 0x4000A070 16) 16 1

/-- A start delimiter is recognised in an excursion. -/
def State.sdSeen (s : State) : State := { s with spine := { s.spine with sdSeen := true } }

/-- R247: the last two of `n` bytes are the CRC-16 of those before them. -/
def crc16Ok {w : Nat} (n : Nat) (f : BitVec w) : Bool :=
  let bs := beBytes f.toNat n
  crc16 (bs.take (n - 2)) == ofBe (bs.drop (n - 2))

/-- R246: the last byte of a query is the CRC-8 of those before it. -/
def crc8Ok (f : BitVec 72) : Bool := crc8 (beBytes (f.toNat / 256) 8) == f.toNat % 256

/-- R241, R263: the receiving ports deliver frames of one type. Each is recognised by its SD; one whose CRC fails is discarded and
counted. Of two valid frames that differ port A's is used, with PORT_DIFFER. -/
def State.pickFrame {w : Nat} (s : State) (r : Rx w) (ok : BitVec w → Bool) : Option (BitVec w) × State :=
  let p := r.ports.toNat &&& s.rxPorts
  if p = 0 then (none, s) else
  let s0 : State := s.sdSeen
  let s1 : State := if bit p 0 && !ok r.a then s0.crcFail else s0
  let s2 : State := if bit p 1 && !ok r.b then s1.crcFail else s1
  if bit p 0 && ok r.a then
    (some r.a, if bit p 1 && ok r.b && r.a != r.b then s2.setFlag (kSpineEvent 5) true else s2)
  else if bit p 1 && ok r.b then (some r.b, s2)
  else (none, s2)

/-- R241, Table 11-1: the bits after an SD that its type sets; `b0` is the first byte after it, whose upper bits are the KIND of a
DATA frame. -/
def frameLen (sd b0 : Nat) : Option Nat :=
  match sd with
  | 0x0F => some 208
  | 0x33 => some 72
  | 0x55 => some 88
  | 0x66 => [208, 72, 88][b0 / 64]?
  | _ => none

/-- R241: a frame is received on a port: its SD, the number of bits after it, and its bytes. A frame that breaks a rule of
R241 is counted; one that breaks none is not discarded here. -/
def execSpineFrameDiscarded (port : Bool) (sd : Byte) (nbits : Nat) (bytes : List Byte) (s : State) : Out :=
  if !bit s.rxPorts (ofBool port) then .next s else
  let s0 : State := if sd = 0x0F#8 || sd = 0x33#8 || sd = 0x55#8 || sd = 0x66#8 then s.sdSeen else s
  if frameLen sd.toNat (byteAt bytes 0) != some nbits || bytes.length * 8 != nbits then .next (s0.count (fk 0x4000A074 16) 16 1)
  else
    let n := bytes.length
    let ok := if sd = 0x33#8 then crc8 (bytes.take (n - 1)) == byteAt bytes (n - 1)
      else crc16 (bytes.take (n - 2)) == ofBe (bytes.drop (n - 2))
    .next (if ok then s0 else s0.crcFail)

/-- A frame has been accepted (SPINE_CNT0). -/
def State.frameAccepted (s : State) : State := s.count (fk 0x4000A070 0) 16 1

/-! ### Probe excursions (R10, R71, R252) -/

/-- A level in which PRB is off between probes, also while it is being left for a deeper one (R72). -/
def State.dark (s : State) : Bool := s.reg kPhase != 2 && (s.reg kLevel == 2 || s.reg kLevel == 3)

/-- R252, R72: energy detect on an enabled port in Reef 2 or Reef 3, a full wake or an entry in progress or not, starts the excursion:
FIRC, PRB and SPTX come up and the banks of DARK_SET begin to power. -/
def execEnergyDetect (port : Bool) (s : State) : Out :=
  if !((s.reg kLevel == 2 || s.reg kLevel == 3) && bit s.rxPorts (ofBool port)) || s.spine.exc then .next s else
  let dark := (List.range 16).filter (fun b => bit (s.rdLe 0x12004000 2) b && s.domSt (28 + b) == .off)
  let s1 : State := ((s.setDom 68 .up).setDom 1 .up).setDom 3 .up
  let s2 : State := dark.foldl (fun s b => s.setDom (28 + b) .rising) s1
  .next { s2 with spine := { s2.spine with exc := true, sdSeen := false, banks := s2.spine.banks ++ dark.map (· + 28) } }

/-- R10: a bank that PRB powers is ready. -/
def execCatalogBankReady (bank : Fin 16) (s : State) : Out :=
  .next (if s.spine.banks.contains (28 + bank.val) && s.domSt (28 + bank.val) == .rising then s.setDom (28 + bank.val) .up else s)

/-- The domains that PRB powered switch off, a bank with buffered writes once they have completed (R16); a bank that
PMU_DOM_ON requests outside a dark level stays. -/
def State.excEnd (s : State) : State :=
  let on := fun d => !s.dark &&
    (if d < 32 then bit (s.reg (fk 0x40000020 7)) (d - 7) else bit (s.reg (fk 0x40000024 0)) (d - 32))
  let gone := s.spine.banks.filter (fun d => !on d)
  let held := gone.filter (fun d => s.cat.wb.any (fun e => catDom e.off == d))
  let s1 : State := (gone.filter (fun d => !held.contains d)).foldl (fun s d => s.setDom d .off) s
  let s2 : State := { s1 with pmu := { s1.pmu with offHold := s1.pmu.offHold ++ held } }
  let s3 : State := if s2.spine.exc && s2.dark then
      let s4 : State := (((s2.setDom 68 .off).setDom 1 .off).setDom 3 .off).loseArb 1
      { s4 with spine := { s4.spine with reply := none } }
    else s2
  { s3 with spine := { s3.spine with exc := false, sdSeen := false, banks := [] } }

/-- R252: no SD has been recognised by t0+4.0 µs. -/
def execExcursionTimeout (s : State) : Out :=
  .next (if s.spine.exc && !s.spine.sdSeen then s.excEnd else s)

/-- R252: a REPLY, a QUERY for another shelf, or a DATA frame that is not a PAIR frame for this node; `b0` and `b1` are the first
two bytes after the SD. A QUERY for every shelf is for this one too (R250). -/
def State.foreign (s : State) (sd b0 b1 : Byte) : Bool :=
  sd == 0x55#8 || (sd == 0x33#8 && b0.toNat / 4 != s.shelf && b0.toNat / 4 != 63) ||
    (sd == 0x66#8 && (b0.toNat / 64 != 1 || b1.toNat % 64 != s.shelf))

def execForeignFrame (sd b0 b1 : Byte) (s : State) : Out :=
  .next (if s.spine.exc && s.foreign sd b0 b1 then s.excEnd else s)

/-- R71: the end of the slot. -/
def execSlotEnd (s : State) : Out := .next s.excEnd

/-- A catalog bank that is off is powered for PRB until the end of the slot (R10, R252). -/
def State.prbPower (s : State) (d : Nat) : State :=
  if s.domSt d == .off then { s.setDom d .up with spine := { s.spine with banks := s.spine.banks ++ [d] } } else s

/-! ### Tickets (R254, R255) -/

def ticketAddr (i : Nat) : Nat := 0x12006000 + 32 * i
def State.ticketState (s : State) (i : Nat) : Nat := bits (s.rdLe (ticketAddr i + 0x18) 1) 0 2

/-- R254: PROBE_TICKET_LIFE frames have passed since the issue. -/
def State.ticketOld (s : State) (i : Nat) : Bool :=
  decide (s.reg (fk 0x4000B008 0) ≤ (s.frameNow + 2 ^ 32 - s.rdLe (ticketAddr i + 0x0C) 4) % 2 ^ 32)

def State.ticketFree (s : State) (i : Nat) : Bool := s.ticketState i == 0 || s.ticketOld i
def State.ticketGen (s : State) (i : Nat) : Nat := s.rdLe (ticketAddr i + 7) 1
def State.ticketTenant (s : State) (i : Nat) : Nat := bits (s.rdLe (ticketAddr i + 6) 1) 0 6

/-- Tickets pending. -/
def State.ticketsPending (s : State) : Nat :=
  ((List.range 256).filter (fun i => s.ticketState i == 1 && !s.ticketOld i)).length

/-- R254: a ticket for a deferred key: the reply's status and ticket. -/
def State.ticketFor (s : State) (tenant key : Nat) : Nat × Nat × State :=
  match (List.range 256).find? (fun i => s.ticketState i == 1 && !s.ticketOld i && s.ticketTenant i == tenant &&
      s.rdLe (ticketAddr i) 6 == key) with
  | some i => (2, s.ticketGen i * 256 + i, s)
  | none =>
    match ((List.range 256).map (fun k => (s.spine.lastTicket + 1 + k) % 256)).find? s.ticketFree with
    | none => (7, 0, s.setFlag (kProbeEvent 2) true)
    | some i =>
      let gen := (s.ticketGen i + 1) % 256
      let a := ticketAddr i
      let s1 : State := ((s.wrLe a 8 (key + tenant * 2 ^ 48 + gen * 2 ^ 56)).wrLe (a + 0x0C) 4 s.frameNow).wrLe (a + 0x18) 1 1
      let s2 : State := { s1 with spine := { s1.spine with lastTicket := i } }
      (2, gen * 256 + i, s2.halyard 5)

/-! ### Payloads (Table 11-5) -/

/-- The STATUS layout. -/
def State.statusLayout (s : State) : Nat :=
  let held := match s.spine.chunkDone with | some n => n | none => 6 * s.spine.chunkN
  s.reg kLevel % 16 * 2 ^ 64 + s.reg kPhase % 4 * 2 ^ 62 + s.allow % 8 * 2 ^ 59 + ofBool s.anchored * 2 ^ 58 +
    ofBool (s.flag kDirValid) * 2 ^ 57 + ofBool (s.flag kChunkEn) * 2 ^ 56 + ofBool (s.flag kWakeSeq) * 2 ^ 55 +
    ofBool (s.flag kSleepSeq) * 2 ^ 54 + ofBool (s.flag kPsuEn) * 2 ^ 53 + ofBool s.serv.pg * 2 ^ 52 +
    s.spine.reports.length % 16 * 2 ^ 48 + min s.ticketsPending 255 * 2 ^ 40 + held % 2 ^ 11 * 2 ^ 29 + s.frameNow % 2 ^ 16

/-- The GAUGE layout, from one gauge update (R54). -/
def State.gaugeLayout (s : State) : Nat :=
  s.allow % 8 * 2 ^ 65 + s.reg kEnergy % 2 ^ 24 * 2 ^ 41 + s.reg (fk 0x40001084 0) % 2 ^ 20 * 2 ^ 21 +
    s.reg (fk 0x40001088 0) % 2 ^ 20 * 2

/-- R248: the TIME layout: the calendar as it stands. -/
def State.timeLayout (s : State) : Nat :=
  let r := s.rtc
  r.year % 256 * 2 ^ 60 + r.month % 16 * 2 ^ 56 + r.day % 32 * 2 ^ 51 + r.hour % 32 * 2 ^ 46 + r.min % 64 * 2 ^ 40 +
    r.sec % 64 * 2 ^ 34 + r.sub % 2 ^ 15 * 2 ^ 19 + ofBool (s.flag (kRtcStat 0)) * 2 ^ 18 + ofBool (s.flag (kRtcStat 1)) * 2 ^ 17 +
    s.frameNow % 2 ^ 16

/-- The Entry layout from a catalog entry: BAY with its valid bit, LOCATOR, VERSION. -/
def entryLayout (e : Nat) : Nat :=
  (ofBool (bit e 120) * 128 + bits e 48 7) * 2 ^ 60 + bits e 59 52 * 2 ^ 8 + bits e 111 8

/-! ### PROBE (R251, R253) -/

/-- A tenant's directory entry. -/
def State.dirEntry (s : State) (t : Nat) : Nat := s.rdLe (0x12004100 + 8 * t) 8

/-- R251, R184: the tenant is in the directory with a bucket array. -/
def State.dirKnown (s : State) (t : Nat) : Bool := bit (s.dirEntry t) 0 && bits (s.dirEntry t) 1 5 != 0

/-- R253: a poison-map word is read for a word of the array whose summary bit is set, or for every one while the summary is not
valid. -/
def State.prbMapped (s : State) (o : Nat) : Bool := decide (o < catTop) && (!s.flag kSummaryValid || s.summaryBit (mapIdx o))

/-- R187, R195: PRB's poison check of a word; a map word with a two-bit error counts as set for this probe. -/
def State.prbPoison (s : State) (off : Nat) : Bool :=
  s.prbMapped off && (s.mapBit off || s.mapListed (mapIdx off) || (s.eccKind (catTop + 8 * mapIdx off)).1 == 2)

/-- R181: PRB reads a word: its value and whether it counts as poisoned. -/
def State.prbWord (s : State) (off : Nat) : Nat × Bool × State :=
  if s.prbPoison off then (0, true, s) else
  match s.eccKind off with
  | (2, _) =>
    if s.isUp 5 then (0, true, (s.count kCatUncorr 16 1).poisonWords [off] (catRec 2 0 0 off 0 0 0 3) false true) else (0, true, s)
  | (k, flip) => (ofLe (s.arrayWord off flip), false, if k = 1 && s.isUp 5 then s.corrected off 3 else s)

/-- R187: a word of the buckets has a pending write or map update: its read waits. A query is one step here, in which nothing else
drains, so the data of such a read never comes in time and the probe is answered BUSY (R12), whatever its operand says; the manual
lets it be answered with data that is in hand by E+2.5 µs (DESIGN CHOICE, log entry 130). -/
def State.prbWaits (s : State) (offs : List Nat) : Bool :=
  offs.any (fun o => s.cat.wb.any (fun e => e.off / 16 == o / 16) || s.cat.mapDue.any (fun d => d.offs.any (fun x => x / 16 == o / 16)))

/-- R253: both buckets are read, and the lookup rule is applied. A bucket outside the array holds nothing. -/
def State.prbLook (s : State) (key : Nat) (offs : List Nat) : Look × State :=
  let r := offs.foldl (fun (acc : List (Nat × Bool) × State) o =>
    if 0x4000000 ≤ o then (acc.1 ++ [(0, false)], acc.2) else
    let w0 := acc.2.prbWord o
    let w1 := w0.2.2.prbWord (o + 8)
    (acc.1 ++ [(w0.1 + w1.1 * 2 ^ 64, w0.2.1 || w1.2.1)], w1.2.2)) ([], s)
  (lookRule key r.1, r.2)

/-- R253: the banks a lookup needs are powered: the buckets' and, where the summary says so, bank 15. -/
def State.prbBanks (s : State) (offs : List Nat) : State :=
  let s1 : State := (offs.filter (· < 0x4000000)).foldl (fun s o => s.prbPower (catDom o)) s
  if !s1.flag kSummaryValid || offs.any s1.prbMapped then s1.prbPower 43 else s1

/-- R211, R253: PRB asks each bucket's bank for its eight words, and bank 15 for the map words; `none` where a bank is not ready or
its instance grants nothing (R219). -/
def State.prbAsk (s : State) (buckets : List Nat) : Option State :=
  (buckets.filter (· < 0x4000000)).foldl (fun acc o => acc.bind (fun s =>
    (s.useArb (catInst o) (plainReq 0 8)).bind (fun s1 =>
      if s1.prbMapped o then s1.useArb 15 (plainReq 0 1) else some s1))) (some s)

/-- How an operation answers: STATUS, payload, and the state. -/
abbrev OpAns := Nat × Nat × State

/-- R253, R254: what the lookup finds is answered. -/
def State.probeFound (s : State) (tenant key : Nat) : Look → OpAns
  | .hit e => (0, entryLayout e, s)
  | .deferred _ => let r := s.ticketFor tenant key; (r.1, if r.1 = 2 then r.2.1 * 256 else 0, r.2.2)
  | .poisoned => (6, 0, s)
  | .miss => (1, 0, s)

/-- R253, R254, R12: a PROBE. Data that comes too late leaves no ticket: the reply is BUSY. PRB's access leaves Reef 1 (R61). -/
def State.opProbe (s : State) (tenant key : Nat) (late : Bool) : OpAns :=
  let d := s.dirEntry tenant
  let bk := bucketsOf (bits d 1 5) (bits d 6 10) key
  let offs := entryOffs bk
  let s1 : State := s.reef1Leave.prbBanks offs
  if late || s1.prbWaits offs then (7, 0, s1) else
  match s1.prbAsk [bk.1, bk.2] with
  | none => (7, 0, s1)
  | some s2 => let r := s2.prbLook key offs; r.2.probeFound tenant key r.1

/-- Table 11-5: the entry layout of a ticket's entry. -/
def State.ticketEntry (s : State) (a : Nat) : Nat :=
  s.rdLe (a + 9) 1 * 2 ^ 60 + bits (s.rdLe (a + 0x10) 8) 0 52 * 2 ^ 8 + s.rdLe (a + 10) 1

/-- R255, R247: a TICKET_FETCH. A resolved entry gives its RESULT with the payload that status carries: the entry layout for HIT, the
ticket for DEFERRED, zeros for the others. Of a RESULT of 9 to 15, which are not sent, no status is stated: it is a free value among
those that are (log entry 148). -/
def State.opTicket (s : State) (tenant key : Nat) : OpAns :=
  let t := bits key 0 16
  let i := t % 256
  let a := ticketAddr i
  if s.ticketFree i || s.ticketGen i != t / 256 || s.ticketTenant i != tenant then (8, 0, s)
  else if s.ticketState i = 2 then
    let r := bits (s.rdLe (a + 8) 1) 0 4
    let f := s.freeBits 4
    let st := if r < 9 then r else f.1 % 9
    let s1 : State := if r < 9 then s else f.2
    (st, if st = 0 then s.ticketEntry a else if st = 2 then t * 256 else 0, s1.wr (a + 0x18) 0#8)
  else (2, t * 256, s)

/-- R256: WAKE_SHELF is accepted; with WAKE_SEQ already set it changes nothing. -/
def State.opWake (s : State) : State := if s.flag kWakeSeq then s else (s.setFlag kWakeSeq true).halyard 3

/-- R256: SLEEP_SHELF is accepted. -/
def State.opSleep (s : State) : State := (s.setFlag kSleepSeq true).halyard 4

/-! ### Command fragments (R257) -/

/-- The partial packet is discarded. -/
def State.chunkDrop (s : State) : State := { s with spine := { s.spine with chunkN := 0, chunkDone := none } }

/-- A fragment is stored as number `n` and the packet's length is judged. -/
def State.chunkStore (s : State) (n seq : Nat) (data : List Byte) : Nat × State :=
  let s1 : State := s.wrBytes (0x12005000 + 6 * n) data
  let s2 : State := { s1 with spine := { s1.spine with chunkN := n + 1, chunkSeq := seq } }
  if n = 0 then (0, s2) else
  let len := 16 + s2.rdLe 0x12005008 2
  if 1040 < len then (8, s2.chunkDrop)
  else if len ≤ 6 * (n + 1) then
    (0, ({ s2 with spine := { s2.spine with chunkDone := some len } } : State).setFlag (kProbeEvent 3) true |>.halyard 6)
  else (0, s2)

/-- R257: how a fragment is treated. The byte sent first is the earliest of the packet. -/
def State.opChunk (s : State) (tenant key : Nat) : Nat × State :=
  let first := bit tenant 5
  let seq := bits tenant 0 5
  let data := beBytes key 6
  let sp := s.spine
  if !s.flag kChunkEn then (7, s.halyard 6)
  else if sp.chunkDone.isSome then (7, s)
  else if first && seq == 0 then
    (if sp.chunkN = 0 then s else s.setFlag (kProbeEvent 4) true).chunkStore 0 0 data
  else if !first && sp.chunkN != 0 && seq == (sp.chunkSeq + 1) % 32 then s.chunkStore sp.chunkN seq data
  else if !first && sp.chunkN != 0 && seq == sp.chunkSeq then (0, s)
  else (8, s.chunkDrop)

/-! ### Queries (R246–R250) -/

/-- Table 11-6: minimum allowance, and whether the operation needs the directory and a tenant. -/
def opMin (op : Nat) : Nat := [3, 2, 6, 2, 3, 2, 2, 2].getD op 0
def opNeeds (op : Nat) : Bool := op == 0 || op == 4

/-- Rows 2 to 6 of Table 11-6a but for the refusals that TICKET_FETCH and CMD_CHUNK make themselves. -/
def State.opRefusal (s : State) (op tenant : Nat) : Option Nat :=
  if 8 ≤ op then some 8
  else if s.allow < opMin op then some 4
  else if opNeeds op && !s.flag kDirValid then some 3
  else if opNeeds op && !s.dirKnown tenant then some 5
  else if op == 2 && s.flag kSleepSeq || op == 3 && s.flag kWakeSeq then some 7
  else none

/-- R249: the operation of a query addressed to this shelf: STATUS, payload and state. The layouts of WAKE_SHELF, SLEEP_SHELF
and CMD_CHUNK go with every status of theirs (R247). -/
def State.operate (s : State) (op tenant key : Nat) (late : Bool) : OpAns :=
  let layout := op == 2 || op == 3 || op == 7
  match s.opRefusal op tenant with
  | some st => (st, if layout then s.statusLayout else 0, s)
  | none =>
    match op with
    | 0 => s.opProbe tenant key late
    | 1 => (0, s.statusLayout, s)
    | 2 => let s1 := s.opWake; (0, s1.statusLayout, s1)
    | 3 => let s1 := s.opSleep; (0, s1.statusLayout, s1)
    | 4 => s.opTicket tenant key
    | 5 => (0, s.gaugeLayout, s)
    | 6 => (0, s.timeLayout, s)
    | _ => let r := s.opChunk tenant key; (r.1, r.2.statusLayout, r.2)

/-- PROBE_CNT0 and PROBE_CNT1 (Table 11-10). -/
def State.countAnswer (s : State) (st : Nat) : State :=
  let s1 : State := s.count (fk 0x4000B050 0) 16 1
  if st = 7 then s1.count (fk 0x4000B050 16) 16 1
  else if st = 4 then s1.count (fk 0x4000B054 0) 16 1
  else if st = 3 then s1.count (fk 0x4000B054 16) 16 1 else s1

/-- PRB can work: its domains and the probe cache are released and the spine is enabled. -/
def State.prbOn (s : State) : Bool := s.isUp 0 && s.isUp 1 && s.isUp 2 && s.isUp 3 && s.flag kSpineEn

/-- R249: an accepted query addressed to this shelf. While the node is not admitted there is no reply and nothing is carried
out. The reply waits for its start (R9). -/
def State.answer (s : State) (op tenant key : Nat) (late : Bool) : State :=
  if !(s.prbOn && s.admitted) then s else
  let r := s.operate op tenant key late
  let s1 : State := r.2.2.countAnswer r.1
  { s1 with spine := { s1.spine with reply := some { status := r.1, payload := r.2.1, late := late && op == 0 && r.1 == 7 } } }

/-- R250: a broadcast: only WAKE_SHELF and SLEEP_SHELF act, and nobody replies. -/
def State.broadcast (s : State) (op : Nat) : State :=
  if !(s.prbOn && s.admitted) then s
  else if op == 2 && (s.opRefusal 2 0).isNone then s.opWake
  else if op == 3 && (s.opRefusal 3 0).isNone then s.opSleep
  else s

/-- R246: a valid query frame of 72 bits after the SD. -/
def State.query (s : State) (f : BitVec 72) (late : Bool) : State :=
  let n := f.toNat
  let shelf := bits n 66 6
  if shelf = 63 then s.frameAccepted.broadcast (bits n 62 4)
  else if shelf = s.shelf then s.frameAccepted.answer (bits n 62 4) (bits n 56 6) (bits n 8 48) late
  else s

/-- Table 11-4: the reply on the wire. -/
def replyBytes (st payload : Nat) : List Byte := withCrc16 0x55 (beBytes (st % 16 * 2 ^ 68 + payload % 2 ^ 68) 9)

/-- R9, R12: the reply starts, unless the transmitter's arbiter grants nothing (R219); with late bucket data it answers BUSY. -/
def execReplyStart (s : State) : Out :=
  match s.spine.reply with
  | none => .next s
  | some r =>
    if !s.prbOn then .next s else
    let s1 : State := { s with spine := { s.spine with reply := none } }
    .next ((s1.useArb 16 (sptxReq 1)).elim s1 (·.spineSend (replyBytes (if r.late then 7 else r.status) (if r.late then 0 else r.payload))))

def execProbe (tenant : Fin 64) (key : BitVec 48) (late : Bool) (s : State) : Out := .next (s.answer 0 tenant key.toNat late)
def execStatus (s : State) : Out := .next (s.answer 1 0 0 false)
def execWakeShelf (s : State) : Out := .next (s.answer 2 0 0 false)
def execSleepShelf (s : State) : Out := .next (s.answer 3 0 0 false)
def execTicketFetch (tenant : Fin 64) (ticket : BitVec 16) (s : State) : Out := .next (s.answer 4 tenant ticket.toNat false)
def execGauge (s : State) : Out := .next (s.answer 5 0 0 false)
def execTime (s : State) : Out := .next (s.answer 6 0 0 false)

/-! ### Slots that the beacon governs (R242, R245, R258–R262) -/

/-- R245: the node may transmit a report or pair frame. -/
def State.slotOk (s : State) : Bool :=
  s.admitted && s.anchored && (s.flag (kSpineStat 1) || s.headActive) && s.isUp 0 && s.isUp 2

/-- The masks and REPORT_BASE that govern the frame: the last accepted beacon's, or the head's own. -/
def State.rmask (s : State) : Nat := if s.headActive then s.reg (fk 0x4000A00C 1) * 2 else s.reg (fk 0x4000A058 0)
def State.pmask (s : State) : Nat := if s.headActive then s.reg (fk 0x4000A010 1) * 2 else s.reg (fk 0x4000A05C 0)
def State.rbase (s : State) : Nat :=
  if s.headActive then s.spine.headBase else bits (s.reg (fk 0x4000A050 0)) 16 6

/-- R242: the slot is a report slot. -/
def State.reportSlot (s : State) (k : Nat) : Bool := k != 0 && bit s.rmask k
/-- R242: the slot is a pair slot. -/
def State.pairSlot (s : State) (k : Nat) : Bool := k != 0 && bit s.pmask k && !bit s.rmask k

/-- R258: the shelf that owns a report slot. -/
def State.slotOwner (s : State) (k : Nat) : Nat :=
  (s.rbase + ((List.range k).filter s.reportSlot).length) % 63

/-- Report buffer q. -/
def rptAddr (q : Nat) : Nat := 0x12008000 + 0x800 * q
def State.rptLen (s : State) (q : Nat) : Nat := bits (s.rdLe (rptAddr q) 4) 0 11
def State.rptTag (s : State) (q : Nat) : Nat := s.rdLe (rptAddr q + 2) 2
/-- The fragments of a report. -/
def State.rptFrags (s : State) (q : Nat) : Nat := max 1 ((s.rptLen q + 21) / 22)

/-- R258: a write of a buffer number queues its report; a buffer already queued is left. -/
def State.rptPost (s : State) (q : Nat) : State :=
  if s.spine.reports.any (fun r => r.buf == q) then s
  else { s with spine := { s.spine with reports := s.spine.reports ++ [{ buf := q }] } }

/-- R258: in an owned report slot the next fragment of the oldest report leaves; a reply at the same start comes first. -/
def execReportFragment (slot : Fin 32) (s : State) : Out :=
  match s.spine.reports with
  | [] => .next s
  | r :: rest =>
    if !(s.slotOk && s.reportSlot slot && s.slotOwner slot == s.shelf) || s.spine.reply.isSome then .next s else
    match s.useArb 16 (sptxReq 2) with
    | none => .next s
    | some s =>
    let last := decide (s.rptFrags r.buf ≤ r.sent + 1)
    let data := (s.rdBytes (rptAddr r.buf + 8) (s.rptLen r.buf)).drop (22 * r.sent) |>.take 22
    let body := [BitVec.ofNat 8 s.shelf,
      BitVec.ofNat 8 (r.sent % 32 + ofBool (r.sent == 0) * 32 + ofBool last * 64)] ++ data ++
      List.replicate (22 - data.length) 0#8
    let rs := if last then rest else { r with sent := r.sent + 1, ticks := 0 } :: rest
    .next (({ s with spine := { s.spine with reports := rs } } : State).spineSend (withCrc16 0x66 body))

/-- R259: eight ticks have passed without the next fragment: the report is dropped and reported; with FAB off PRB holds one
record and counts the others in DROPPED. -/
def execUndelivered (s : State) : Out :=
  match s.spine.reports.find? (fun r => decide (8 ≤ r.ticks)) with
  | none => .next s
  | some r =>
    let tag := s.rptTag r.buf
    let rec1 : ErrRec := { cls := 1, source := 0x0B, code := 1, seq := tag, detail := [r.buf, r.sent] }
    let s1 : State := { s with spine := { s.spine with reports := s.spine.reports.filter (fun x => x.buf != r.buf) } }
    let s2 : State := (s1.setFlag (kProbeEvent 1) true).setReg (fk 0x4000B048 0) tag
    .next (if s2.isUp 5 then s2.raise rec1
      else if s2.spine.undel.isNone then { s2 with spine := { s2.spine with undel := some rec1 } }
      else s2.count (fk 0x4000B048 16) 8 1)

/-- R259: PRB's held record is delivered at a release of FAB. -/
def State.deliverUndel (s : State) : State :=
  match s.spine.undel with
  | some r => ({ s with spine := { s.spine with undel := none } } : State).raise r
  | none => s

/-! ### Pair slots (R260, R261) -/

/-- R260: the number of the frame both shelves share: the head's own, or the last beacon's FRAME with the frames since. -/
def State.pairF (s : State) : Nat := if s.headActive then s.frameNow else s.reg (fk 0x4000A054 0) + s.reg kAge

/-- R260: this frame has the node's pair slot. -/
def State.pairFrame (s : State) : Bool :=
  let plog := s.reg (fk 0x4000B00C 24)
  s.flag kPairEn && s.pairSlot (s.reg (fk 0x4000B00C 16)) && s.pairF % 2 ^ plog == s.reg (fk 0x4000B00C 28)

def State.pairPeer (s : State) : Nat := s.reg (fk 0x4000B00C 8)
def State.pairSender (s : State) : Bool := s.reg (fk 0x4000B00C 0) == 0
def kTxTail : Key := fk 0x4000B020 0
def kRxHead : Key := fk 0x4000B020 8

/-- The 8-byte entry of the transmit ring at its tail. -/
def State.pairOldest (s : State) : List Byte := s.rdBytes (0x1200C000 + 8 * s.reg kTxTail) 8

/-- R260: the sender transmits the oldest entry of its ring. -/
def execPairTx (s : State) : Out :=
  if !(s.pairFrame && s.slotOk && s.pairSender) || s.spine.pairSent || s.reg kTxTail == s.reg (fk 0x4000B018 0) then .next s else
  match s.useArb 16 (sptxReq 3) with
  | none => .next s
  | some s =>
  let e := s.pairOldest
  let body := [BitVec.ofNat 8 (s.shelf + 64), BitVec.ofNat 8 s.pairPeer, BitVec.ofNat 8 (byteAt e 4 % 16)] ++ e.take 4
  .next (({ s with spine := { s.spine with pairSent := true } } : State).spineSend (withCrc16 0x66 body))

/-- R260: a valid PAIR frame is taken by the receiver and acknowledged. -/
def State.pairTake (s : State) (bs : List Byte) : State :=
  if byteAt bs 0 / 64 != 1 || byteAt bs 0 % 64 != s.pairPeer || byteAt bs 1 % 64 != s.shelf then s
  else
    let seq := byteAt bs 2 % 16
    let h := s.reg kRxHead
    let s0 : State := s.frameAccepted
    let s1 : State := { s0 with spine := { s0.spine with pairDone := true } }
    let r : Nat × State :=
      if s1.spine.pairSeq = some seq then (0, s1)
      else if (h + 1) % 64 = s1.reg (fk 0x4000B01C 0) then (7, s1)
      else
        let s2 : State := s1.wrBytes (0x1200C200 + 8 * h) ((bs.drop 3).take 4 ++ [BitVec.ofNat 8 seq, 0#8, 0#8, 0#8])
        (0, { s2.setReg kRxHead ((h + 1) % 64) with spine := { s2.spine with pairSeq := some seq } })
    let ack := [BitVec.ofNat 8 (s.shelf + 128), BitVec.ofNat 8 s.pairPeer, BitVec.ofNat 8 (seq + r.1 * 16)] ++ List.replicate 6 0#8
    (r.2.useArb 16 (sptxReq 3)).elim r.2 (·.spineSend (withCrc16 0x66 ack))

/-- R260: the receiver gets PAIR frames (72 bits after the SD). A side for which R245 does not hold skips the slot (R261). -/
def execPair (frame : Rx 72) (s : State) : Out :=
  if !(s.pairFrame && s.slotOk && !s.pairSender) then .next s else
  match s.pickFrame frame (crc16Ok 9) with
  | (some f, s1) => .next (s1.pairTake (beBytes f.toNat 9))
  | (none, s1) => .next s1

/-- R260: a valid PAIR_ACK for the frame sent: the sender advances its ring on ACCEPTED. -/
def State.pairAcked (s : State) (bs : List Byte) : State :=
  if byteAt bs 0 / 64 != 2 || byteAt bs 0 % 64 != s.pairPeer || byteAt bs 1 % 64 != s.shelf ||
      byteAt bs 2 % 16 != byteAt s.pairOldest 4 % 16 then s
  else
    let s0 : State := s.frameAccepted
    let s1 : State := { s0 with spine := { s0.spine with pairDone := true, pairSent := false } }
    if byteAt bs 2 / 16 = 0 then s1.setReg kTxTail ((s1.reg kTxTail + 1) % 64) else s1

/-- R260: the sender gets PAIR_ACK frames (88 bits after the SD). -/
def execPairAck (frame : Rx 88) (s : State) : Out :=
  if !(s.flag kPairEn && s.pairSender && s.spine.pairSent) then .next s else
  match s.pickFrame frame (crc16Ok 11) with
  | (some f, s1) => .next (s1.pairAcked (beBytes f.toNat 11))
  | (none, s1) => .next s1

/-- R261: the pair slot passes without a completed exchange. -/
def execPairMiss (s : State) : Out :=
  .next (if s.pairFrame && !s.spine.pairDone then s.setFlag (kProbeEvent 0) true else s)

/-! ### Head mode (R262) -/

/-- R262: TIME of the head's beacon: seconds since 2000-01-01, or all ones while the calendar is not valid. -/
def State.headTime (s : State) : Nat :=
  if !s.flag (kRtcStat 0) then 0xFFFFFFFF else
  let r := s.rtc
  (daysSince r.year r.month r.day * 86400 + r.hour * 3600 + r.min * 60 + r.sec) % 2 ^ 32

/-- R262: the beacon body of a head. -/
def State.headBody (s : State) : List Byte :=
  [BitVec.ofNat 8 (s.reg (fk 0x4000A008 0)), BitVec.ofNat 8 (s.reg (fk 0x4000A008 8) / 2 * 2 + 1), BitVec.ofNat 8 s.spine.headBase, 0#8] ++
    beBytes s.frameNow 4 ++ beBytes (s.reg (fk 0x4000A00C 1) * 2) 4 ++ beBytes (s.reg (fk 0x4000A010 1) * 2) 4 ++
    beBytes s.headTime 4 ++ List.replicate 4 0#8

/-- R262: at a tick the head transmits its beacon; `conflict` says that different bits were read back. A reply at the same
start comes first and the beacon of the frame is lost (R214); so it is where the transmitter's arbiter grants nothing (R219). -/
def execHeadBeacon (conflict : Bool) (s : State) : Out :=
  if !s.headActive || s.spine.reply.isSome then .next s else
  match s.useArb 16 (sptxReq 0) with
  | none => .next s
  | some s0 =>
    let s1 : State := s0.spineSend (withCrc16 0x0F s0.headBody)
    let s2 : State := { s1 with spine := { s1.spine with headStop := conflict } }
    .next (if conflict then s2.setFlag (kSpineEvent 4) true else s2)

/-- R262: in head mode REPORT_BASE starts at 0 and advances by STEP at each tick, whatever the tick's source is. -/
def State.headTick (s : State) : State :=
  if !(s.flag kSpineEn && s.flag kHead && !s.spine.headStop && s.isUp 0) then s else
  let b := if s.spine.headRun then (s.spine.headBase + s.reg (fk 0x4000A014 0)) % 63 else s.spine.headBase
  { s with spine := { s.spine with headBase := b, headRun := true } }

/-! ### Guards (R264, R265) -/

/-- R264: a port has driven for 40 µs. -/
def execJabber (port : Bool) (s : State) : Out :=
  .next (if bit s.txPorts (ofBool port) && s.isUp 0 && s.flag kSpineEn then
    (s.setFlag (kSpineEvent (ofBool port)) true).setFlag (kSpineStat (5 + ofBool port)) true else s)

/-- R265: a port's energy detect has been active for 200 µs. -/
def execStuck (port : Bool) (s : State) : Out :=
  .next (if bit s.rxPorts (ofBool port) then
    (s.setFlag (kSpineEvent (2 + ofBool port)) true).setFlag (kSpineStat (3 + ofBool port)) true else s)

/-- R265: the test of a masked port ends; it was idle throughout or not. -/
def execEdMaskTestEnd (port : Bool) (idle : Bool) (s : State) : Out :=
  .next (if idle && s.isUp 0 then s.setFlag (kSpineStat (3 + ofBool port)) false else s)

/-- What a tick does for the spine: the frame's beacon and pair slot are ahead again, cut drivers return (R264), report waits
count (R259), and a head that is anchored is admitted (R244). -/
def State.spineTick (s : State) : State :=
  let s1 : State := ((s.setFlag (kSpineStat 1) false).setFlag (kSpineStat 5) false).setFlag (kSpineStat 6) false
  let s2 : State := { s1 with spine := { s1.spine with
    pairSent := false, pairDone := false, reports := s1.spine.reports.map (fun r => { r with ticks := r.ticks + 1 }) } }
  if s2.headActive then s2.setFlag (kSpineStat 0) true else s2

/-- R267, R244: what goes with domain 02, and with domain 00. -/
def State.loseProbe (s : State) : State :=
  { s with spine := { s.spine with reports := [], chunkN := 0, chunkDone := none, lastTicket := 255, reply := none,
                                   pairSent := false, pairDone := false, pairSeq := none, undel := none } }
def State.loseSpl (s : State) : State :=
  { s with spine := { s.spine with exc := false, sdSeen := false, banks := [], reply := none, headStop := false, headBase := 0, headRun := false } }

end Sys2Proof.Machine
end

