-- ==== Sys2Proof/Machine/Domains.lean ====
section
/-! DEFINITION. What goes with a power domain that switches off, and what its release brings (R58–R60, Table 4-1). -/
namespace Sys2Proof.Machine

/-- Registers in an address range take their reset values: values in effect and pending ones. -/
def State.dropRegs (s : State) (lo hi : Nat) : State :=
  let keep := fun k : Nat => !decide (lo ≤ keyAddr k ∧ keyAddr k < hi)
  { s with regs := Tab.keep keep s.regs, shadow := Tab.keep keep s.shadow }

/-- Memory in an address range loses its content. -/
def State.dropMem (s : State) (lo hi : Nat) : State :=
  { s with mem := Tab.keep (fun a => !decide (lo ≤ a ∧ a < hi)) s.mem }

/-- Some other domain of a list still holds its content. -/
def State.othersHold (s : State) (ds : List Nat) (d : Nat) : Bool := ds.any (fun x => x != d && s.domSt x != .off)

/-- R31: the ring of a block goes with its registers. -/
def State.dropRing (s : State) (b : Nat) : State := s.setRing b {}

/-- A block's registers and ring. -/
def State.dropBlock (s : State) (b : Nat) : State := (s.dropRegs (blockBase b) (blockBase b + blockSize b)).dropRing b

/-- R357, R362: the queue is lost with FAB; ERR_KEEP and what waits to be reported at its release stay. -/
def Err.lose (e : Err) : Err :=
  { clkHeld := e.clkHeld, keep := e.keep, fatalResets := e.fatalResets, keepValid := e.keepValid }

/-- R396: the settings of domain 05's pads. -/
def State.padsNow (s : State) : PadHold :=
  let w := fun a : Nat => s.reg (fk a 0) + s.reg (fk (a + 4) 0) * 2 ^ 32
  { dir := w 0x40012000, out := w 0x40012008, pull := w 0x40012010, fan := s.reg (fk 0x40012100 1), int := s.flag (fk 0x40012100 5) }

/-- R196: what domain 05 loses of the CAT block: the summary's validity goes with domain 02, not with FAB; a rebuild in hand is
abandoned and starts again. The pads of the GPIO block hold what they drove (R396). -/
def State.loseFab (s : State) : State :=
  let valid := s.flag kSummaryValid
  let again := s.cat.rebuildDue || s.flag kRebuilding
  let pads := s.padsNow
  let s1 : State := [0x05, 0x07, 0x08, 0x12, 0x14, 0x15].foldl (fun s b => s.dropBlock b) s
  let s2 : State := s1.setFlag kSummaryValid valid
  { s2 with
    err := s2.err.lose, ten := {}
    cat := { ecc := s2.cat.ecc, rebuildDue := again }
    serv := { s2.serv with gpioEvent := 0, tachNow := [], tach := [], led := 0, held := some pads } }

/-- The datagrams and the frame not yet sent of an SGMII port are lost. -/
def State.loseSgm (s : State) (p : Nat) : State :=
  { s with serv := { s.serv with dgrams := s.serv.dgrams.filter (fun g => g.1 != p), ethOut := Tab.erase s.serv.ethOut p } }

/-- The content of a domain is lost (R59). -/
def State.loseDom (s0 : State) (d : Nat) : State :=
  let s : State := s0.loseArb d
  if d = 0 then s.dropBlock 0x0A |>.loseSpl
  else if d = 2 then
    let s1 : State := ((s.dropBlock 0x0B).dropMem 0x12000000 0x12010000).loseProbe
    { (s1.setFlag kSummaryValid false).setFlag kRebuilding false with cat := { s1.cat with rebuildDue := true } }
  else if d = 4 then
    let s1 : State := s.dropBlock 0x04
    { s1 with slots := [], clk := { s1.clk with tickDue := false, missed := 0, move := 0, extended := false } }
  else if d = 5 then s.loseFab
  else if d = 6 then { (s.dropBlock 0x19).setCore 0 {} with irqEdge := 0 }
  else if 7 ≤ d ∧ d ≤ 10 then
    let s1 : State := (s.setCore (d - 6) {}).dropRegs (0x4001A000 + 0x100 * (d - 7)) (0x4001A000 + 0x100 * (d - 6))
    if s1.othersHold [7, 8, 9, 10] d then s1 else s1.dropBlock 0x1A
  else if 11 ≤ d ∧ d ≤ 26 then s.dropMem (0x10000000 + 0x80000 * (d - 11)) (0x10000000 + 0x80000 * (d - 10))
  else if d = 27 then (s.dropBlock 0x1C).dropMem 0x11000000 0x11010000
  else if d = 44 then s.dropBlock 0x09 |>.loseNor
  else if d = 45 then { s.dropBlock 0x1B with cat := { s.cat with scrubbed := 0 } }
  else if d = 46 then ((s.loseSfu).dropBlock 0x0F).dropMem 0x60000000 0x60010000
  else if d = 47 then s.loseDma.dropBlock 0x0E
  else if d = 48 then { s.dropBlock 0x06 with lock := {} }
  else if d = 49 then s.loseCrypt.dropBlock 0x16
  else if 50 ≤ d ∧ d ≤ 53 then
    let c := d - 50
    let s1 : State := ((s.loseConv c).dropRegs (0x40010020 + 0x10 * c) (0x40010030 + 0x10 * c)).dropRegs
      (0x40010400 + 0x200 * c) (0x40010600 + 0x200 * c)
    if s1.othersHold [50, 51, 52, 53] d then s1 else { s1.dropBlock 0x10 with adc := { refOk := s1.adc.refOk } }
  else if d = 54 then { s with adc := { s.adc with refOk := false } }
  else if 55 ≤ d ∧ d ≤ 62 then
    let g := d - 55
    let s1 : State := ((s.loseBayGroup g).dropRegs (0x40020000 + 0x1000 * g) (0x40021000 + 0x1000 * g)).dropRegs
      (0x40030000 + 0x1000 * g) (0x40031000 + 0x1000 * g)
    if s1.othersHold [55, 56, 57, 58, 59, 60, 61, 62] d then s1
    else { (s1.dropBlock 0x17).dropBlock 0x18 with bay := {} }
  else if d = 63 then (s.dropBlock 0x0C).loseSgm 0
  else if d = 64 then (s.dropBlock 0x0D).loseSgm 1
  else if d = 65 then s.setFlag (kClkStat 2) false
  else if d = 66 then s.setFlag (kClkStat 3) false
  else if d = 67 then ((s.setFlag (kClkStat 1) false).setFlag (kClkStat 2) false).setFlag (kClkStat 3) false
  else if d = 69 then { s.dropBlock 0x13 with serv := { s.serv with cons := [], consRx := 0 } }
  else if d = 71 then { s with serv := { s.serv with trace := [], traceDropped := 0 } }
  else s

/-- A domain switches off with its content (R59). -/
def State.offDom (s : State) (d : Nat) : State := if s.domSt d == .off then s else (s.setDom d .off).loseDom d

/-- R196: the CAT controller keeps bank 15 powered through a rebuild. -/
def State.rebuildHolds (s : State) (d : Nat) : Bool := d == 43 && s.flag kRebuilding

/-- R16, R196: a catalog bank with buffered writes is held on until they have completed, and bank 15 through a rebuild of the
summary. -/
def State.offDomHeld (s : State) (d : Nat) : State :=
  if s.rebuildHolds d then { s with cat := { s.cat with hold15 := true } }
  else if decide (28 ≤ d ∧ d ≤ 43) && s.cat.wb.any (fun e => catDom e.off == d)
  then { s with pmu := { s.pmu with offHold := (s.pmu.offHold.filter (· != d)) ++ [d] } }
  else s.offDom d

/-- R23: the FRAME writes held for a domain that switches off are lost with it, those of FRAME's own block excepted: its tick logic
stays on in Reef 2 (Table 4-1). -/
def State.dropShadows (s : State) (d : Nat) : State :=
  { s with shadow := Tab.keep (fun k => !(blockOf (keyAddr k)).elim false (fun b => b != 0x04 && (blockDoms b).contains d)) s.shadow }

/-- Reef 2: a domain is unpowered with its state on VRET: pending FRAME writes are lost (R23), caches and eviction buffers are empty
(R135, R140), a requester's requests and wait counts go (R215). -/
def State.retainDom (s : State) (d : Nat) : State :=
  if s.domSt d == .up then
    let s1 : State := ((s.setDom d .retained).dropShadows d).loseArb d
    if 6 ≤ d ∧ d ≤ 10 then s1.setCore (d - 6) { s1.core (d - 6) with dc := [], ic := [], eb := [] }
    else if d = 47 then s1.loseDma
    else s1
  else s

/-- A domain switches on: its release is due (R59). A retained one resumes with its content. Domains 70 and 71 stay off while the
Ebzin is debug-locked (R401). -/
def State.onDom (s : State) (d : Nat) : State :=
  if decide (70 ≤ d) && s.debugLocked then s else
  let s1 : State := { s with pmu := { s.pmu with offHold := s.pmu.offHold.filter (· != d) } }
  match s1.domSt d with
  | .off => s1.setDom d .rising
  | .retained => s1.setDom d .resuming
  | _ => s1

/-- R357: at a release of FAB, the CLK records of the CLK_EVENT bits set meanwhile, then the record that PRB holds; R397: the
PSU_EN ball takes the register's value, and the pads follow their registers again (R396). -/
def State.fabReleased (s : State) : State :=
  let held := s.err.clkHeld
  let s1 : State := { s with err := { s.err with clkHeld := 0 } }
  let s2 : State := ((List.range 4).filter (bit held)).foldl (fun s b =>
    s.raise { cls := 0, source := 2, code := b + 1, detail := [b] }) s1
  let s3 : State := s2.deliverUndel
  { s3 with serv := { s3.serv with psuBall := s3.flag kPsuEn, held := none } }

/-- R93, R97, R244: FRAME comes up from off: FRAME_NUM 0, RESTART, unanchored, and the node is no longer admitted. -/
def State.frameRestart (s : State) : State := s.setFlag (kSpineStat 0) false

/-- A domain is released (R58, R59). -/
def State.releaseDom (s : State) (d : Nat) : State :=
  match s.domSt d with
  | .rising =>
    let s1 : State := s.setDom d .up
    if d = 4 then s1.frameRestart
    else if d = 5 then s1.fabReleased
    else if 6 ≤ d ∧ d ≤ 10 then s1.setCore (d - 6) (resetCore (d - 6))
    else if d = 49 then s1.kekRelease
    else if d = 69 then { s1 with serv := { s1.serv with consRx := 3 } }
    else s1
  | .resuming => let s1 : State := s.setDom d .up; if d = 5 then s1.fabReleased else s1
  | _ => s

/-- R59: a domain that was switched on is released after its on-request delay. -/
def execDomainRelease (d : Fin 72) (s : State) : Out := .next (if s.aon then s.releaseDom d else s)

/-- R69: a domain of the wake set is released at its wake offset. -/
def execWakeDomainRelease (d : Fin 72) (s : State) : Out :=
  .next (if s.aon && s.reg kPhase == 2 then s.releaseDom d else s)

end Sys2Proof.Machine
end

