-- ==== Sys2Proof/Machine/Pmu.lean ====
section
/-! DEFINITION. PMU and WAKE (R58–R78): reef levels, their requests and entries, full wakes, Reef 1, and the WAKE pins. -/
namespace Sys2Proof.Machine

/-! ### Requests (R61, R62) -/

/-- Table 4-6: what REFUSE shows for a request now; 0 accepted. Where a condition of both codes holds the manual does not say which
is shown; the model shows BAYS_ACTIVE (DESIGN CHOICE, log entry 137). -/
def State.reefRefusal (s : State) : Nat :=
  if s.baysActive || s.flag kPsuEn then 1
  else if s.reg kPhase != 0 || s.flag kWakeSeq || s.flag kSleepSeq || s.pmu.req.isSome then 2
  else 0

/-- R62: a write of PMU_REEF_REQ.LEVEL has taken effect. A Reef 2 accepted at allowance 2 is carried out as Reef 3 (R65). -/
def State.reefReq (s : State) (level : Nat) : State :=
  if level = 0 then { s with pmu := { s.pmu with req1 := false } }
  else if level = 1 then { s with pmu := { s.pmu with req1 := true } }
  else
    let r := s.reefRefusal
    let s1 : State := s.setReg kRefuse r
    let low := level == 2 && decide (s.allow ≤ 2)
    if r = 0 then { s1 with pmu := { s1.pmu with req := some (if low then 3 else level), reqLow := low } } else s1.setReg kReefReq 0

/-! ### Entries (R63–R65) -/

/-- The domains that a level leaves powered or retained: Table 4-1. -/
def State.retained (s : State) (level d : Nat) : Bool :=
  if level = 2 then
    d = 4 || d = 5 || decide (6 ≤ d ∧ d ≤ 10) || d = 47 || d = 48 || (d == 27 && s.flag (fk 0x40000000 1)) ||
      (decide (11 ≤ d ∧ d ≤ 26) && bit (s.reg (fk 0x40000004 0)) (d - 11))
  else decide (level = 3) && d = 4

/-- Table 4-2: the domains that stay on. -/
def levelOn (level d : Nat) : Bool := decide (level ≤ 3) && (d = 0 || d = 2)

/-- What an entry to Reef 3 or FURL takes from Cyntoux: R13 ends the acceptance of commands, R278 loses what was kept. -/
def State.entryLoses (s : State) (target : Nat) : State :=
  if 3 ≤ target then { s with boot := { s.boot with accepting := false, starting := true }, cyn := s.cyn.lose } else s

/-- R64, R398: a forced entry sets FORCED, drives PSU_EN low and switches the bay groups off. -/
def State.entryForces (s : State) : State :=
  let s1 : State := (s.setFlag kForced true).setFlag kPsuEn false
  let s2 : State := { s1 with serv := { s1.serv with psuBall := false, pgWait := none } }
  (List.range 8).foldl (fun s g => s.offDom (55 + g)) s2

/-- R72: a full wake ends where it stands: no further domain of it is released. -/
def State.wakeCut (s : State) : State :=
  if s.reg kPhase != 2 then s else
  (List.range 72).foldl (fun s d => match s.domSt d with
    | .rising => s.setDom d .off
    | .resuming => s.setDom d .retained
    | _ => s) s

/-- R63 at T: PHASE is 1, running contexts are preempted, the store buffers drain and all caches are cleaned and emptied. R257
clears CHUNK_EN. `low` marks a Reef 2 requested at allowance 2, which sets FORCED (R65). -/
def State.entryStart (s0 : State) (target : Nat) (forced low : Bool) : State :=
  let s := s0.wakeCut
  let s1 : State := ((s.setReg kPhase 1).setFlag kForced (forced || low))
  let s2 : State := { s1 with pmu := { s1.pmu with req := none, reqLow := false, entry := some target, req1 := false } }
  let s3 : State := [1, 2, 3, 4].foldl (fun s c =>
    match (s.core c).slot with | some n => s.preempt c (if (s.slot n).state = 2 then 1 else (s.slot n).state) none | none => s) s2
  let s4 : State := (List.range 5).foldl (fun s c => s.cleanCore c) ((List.range 5).foldl (fun s c => s.drainAll c) s3)
  let s5 : State := if target ≤ 3 then s4.setFlag kChunkEn false else s4
  let s6 : State := s5.entryLoses target
  if forced then s6.entryForces else s6

/-- R63: at the tick after an accepted request the entry starts. -/
def execEntrySequenceStart (s : State) : Out :=
  match s.pmu.req with
  | some l => .next (if s.aon && s.reg kPhase == 0 then s.entryStart l false s.pmu.reqLow else s)
  | none => .next s

/-- R140: what the CC has brought into its caches since T is cleaned and emptied before the switch-off. -/
def State.cleanAll (s : State) : State := (List.range 5).foldl (fun s c => s.cleanCore c) s

/-- Domains outside the level switch off in the reverse of the wake order, retained state moves to VRET, and the level is in
force. A source PLL0 that goes is replaced by FIRC (R87). In Reef 2 and Reef 3 what a probe in hand needs stays powered until the end
of its slot, so that its reply keeps its time (R71, R72). -/
def State.enterLevel (s : State) (level : Nat) : State :=
  let probe := decide (level ≤ 3) && (s.spine.exc || s.spine.reply.isSome)
  let s0 : State := { s.cleanAll with cat := { s.cat with hold15 := false } }
  let s1 : State := (List.range 72).reverse.foldl (fun s d =>
    if levelOn level d then s
    else if s.retained level d && s.domSt d != .off then s.retainDom d
    else if probe && (d = 1 || d = 3 || d = 68 || s.spine.banks.contains d) then s
    else s.offDom d) s0
  let s2 : State := if s1.reg (fk 0x40002040 5) = 2 then s1.setReg (fk 0x40002040 5) 0 else s1
  let s3 : State := (s2.setReg kLevel level).setReg kPhase 0
  { s3 with pmu := { s3.pmu with entry := none }, spine := { s3.spine with exc := probe } }

/-- R63, R140: the store buffers and the write buffer are empty, so that the level's switch-off may follow. -/
def State.drainedAll (s : State) : Bool :=
  s.cat.wb.isEmpty && s.cat.mapDue.isEmpty && (List.range 5).all (fun c => (s.core c).sb.isEmpty)

/-- R63: the write buffer is empty and the level's switch-off follows. R362: a DEVICE_FATAL record that awaits its reset starts
it here instead. -/
def execEntrySwitchOff (s : State) : Out :=
  match s.pmu.entry with
  | none => .next s
  | some l =>
    if s.reg kPhase != 1 then .next s
    else if s.err.fatal.isSome then
      .next { s with pmu := { s.pmu with entry := none }, boot := { s.boot with warmDue := some (s.boot.warmDue.getD (3, 0)) } }
    else .next (if s.drainedAll then s.enterLevel l else s)

/-- R65: a Reef 2 in force becomes Reef 3 at once; every retained domain outside its set loses its content. -/
def State.demote (s : State) : State :=
  let s1 : State := (List.range 72).reverse.foldl (fun s d =>
    if s.domSt d == .retained && !s.retained 3 d then s.offDom d else s) s
  ((s1.entryLoses 3).setReg kLevel 3).setFlag kForced true

/-- R64: FURL is forced from any level; an entry in hand goes on to FURL, and a wake ends where it stands (R72). An entry to FURL that
is in hand already goes on, and FORCED stays as it was: whether it is then set the manual does not say (DESIGN CHOICE, log entry
138). -/
def State.forceFurl (s : State) : State :=
  if s.reg kLevel = 4 && s.reg kPhase = 0 || s.pmu.entry == some 4 then s
  else s.entryStart 4 true false

/-- R49: the fourth tick after a STORE_LOW crossing: Reef 3, unless Reef 3 or lower has been requested or is in force. The manual does
not say what happens when the tick finds an entry to Reef 2 in hand or a full wake in progress: the entry goes on to Reef 3 as a
forced one, with all that it takes (DESIGN CHOICE, log entry 136), and the wake forces nothing, so that the forced entry comes once
it has ended (DESIGN CHOICE, log entry 135). -/
def State.storeLowEntry (s : State) : State :=
  match s.pmu.entry with
  | some l => if 3 ≤ l then s else
    (({ s with pmu := { s.pmu with entry := some 3 } } : State).entryLoses 3).entryForces
  | none =>
    if s.reg kPhase = 2 || decide (3 ≤ s.reg kLevel) || s.pmu.req.elim false (fun l => decide (3 ≤ l)) then s
    else if s.reg kLevel = 2 then s.demote
    else s.entryStart 3 true false

def execStoreLowForcedEntry (s : State) : Out :=
  .next (if s.aon && s.storeLow && s.harv.lowTicks.elim false (fun n => decide (4 ≤ n)) then s.storeLowEntry else s)

/-! ### Reef 1 (R61) -/

/-- R61: a core that waits in WFE or WFT, or has no context at all (log entry 84). -/
def Core.quiet (c : Core) : Bool := c.run == .wfe || c.run == .wft || c.run == .stopped

/-- R61: a bus request of PRB, SPINE, ADC or BAYU stands, or one at an arbiter. -/
def State.busWanted (s : State) : Bool :=
  s.arbs.any (fun e => !e.2.standing.isEmpty) || s.ringsPending || s.spine.exc || s.spine.reply.isSome

/-- R61: what must have held for 16 FCLK cycles. -/
def State.reef1Ok (s : State) : Bool :=
  (List.range 5).all (fun c => !s.isUp (6 + c) || (s.core c).quiet) &&
    !((List.range 4).any (fun c => s.mayDispatch && (s.choose (c + 1) []).isSome)) &&
    (List.range 5).all (fun p => !(s.place p).busy) && (List.range 6).all (fun p => !(s.job p).busy) && s.crypt.op.isNone &&
    !s.busWanted

def execReef1Entry (s : State) : Out :=
  .next (if s.aon && s.reg kLevel == 0 && s.reg kPhase == 0 && (s.flag (fk 0x40000000 0) || s.pmu.req1) && s.reef1Ok then
    ({ s with pmu := { s.pmu with req1 := false } } : State).setReg kLevel 1 else s)


/-! ### Full wakes (R67–R72) -/

/-- The domains of the wake set: the always-on ones, those of PMU_WAKE_SET, and 67 with a PLL (R69). -/
def State.wakeSet (s : State) : List Nat :=
  let w0 := s.reg (fk 0x40000008 7)
  let w1 := s.reg (fk 0x4000000C 0)
  let w2a := s.reg (fk 0x40000014 0)
  let w2b := s.reg (fk 0x40000014 5)
  (List.range 72).filter (fun d =>
    d ≤ 6 || d = 68 || (decide (7 ≤ d ∧ d < 32) && bit w0 (d - 7)) || (decide (32 ≤ d ∧ d < 64) && bit w1 (d - 32)) ||
      (decide (64 ≤ d ∧ d < 68) && bit w2a (d - 64)) || (decide (69 ≤ d) && bit w2b (d - 69)) ||
      (d == 67 && (bit w2a 1 || bit w2a 2)))

/-- R69: PMU_DOM_ON takes PMU_WAKE_SET; a pending value is dropped. -/
def State.loadDomOn (s : State) : State :=
  [(fk 0x40000020 7, fk 0x40000008 7), (fk 0x40000024 0, fk 0x4000000C 0), (fk 0x40000028 0, fk 0x40000014 0),
   (fk 0x40000028 5, fk 0x40000014 5)].foldl (fun s p => (s.setReg p.1 (s.reg p.2)).setShadow p.1 none) s

/-- R67, R68, R72: the events that start a wake from the level in force. -/
def State.wakeCause (s : State) : Nat := s.pmu.wakeEv &&& canWake (s.reg kLevel) &&& s.reg kHalStat

/-- R69, R70: a full wake starts. CAUSE shows a wake from Reef 3 or FURL (R366). -/
def State.fullWake (s : State) : State :=
  let set := s.wakeSet
  let lvl := s.reg kLevel
  let s1 : State := ((s.setReg kWakeCause (s.reg kHalStat)).setReg kPhase 2).loadDomOn
  let s2 : State := (List.range 72).foldl (fun s d => if set.contains d then s.onDom d else if s.domSt d == .retained then s.offDom d else s) s1
  let s3 : State := { s2 with
    pmu := { s2.pmu with wakeEv := 0 }
    spine := { s2.spine with banks := s2.spine.banks.filter (fun d => !set.contains d) } }
  if 3 ≤ lvl then ({ s3 with boot := { s3.boot with starting := true, accepting := false, full := false } } : State).setReg (fk 0x40000060 0) 2 else s3

def execFullWakeStart (s : State) : Out :=
  .next (if s.aon && decide (2 ≤ s.reg kLevel) && s.reg kPhase == 0 && decide (2 ≤ s.allow) && s.wakeCause != 0
    then s.fullWake else s)

/-- R69: the wake ends in SAIL. -/
def State.wakeEnd (s : State) : State :=
  let s1 : State := ((s.setReg kPhase 0).setReg kLevel 0).setReg kReefReq 0
  { s1 with spine := { s1.spine with exc := false } }

/-- R69: the last release, XT2_OK when domain 67 was released, and the lock of every PLL of the wake set. -/
def State.wakeDone (s : State) : Bool :=
  (List.range 72).all (fun d => s.domSt d != .rising && s.domSt d != .resuming) &&
    (!s.isUp 67 || s.flag (kClkStat 1)) && (!s.isUp 65 || s.flag (kClkStat 2)) && (!s.isUp 66 || s.flag (kClkStat 3))

def execWakeComplete (s : State) : Out := .next (if s.aon && s.reg kPhase == 2 && s.wakeDone then s.wakeEnd else s)

/-! ### WAKE pins (R73–R76) -/

def State.pin (s : State) (n : Nat) : Pin := Tab.get (fun _ => {}) s.pins n
def State.setPin (s : State) (n : Nat) (p : Pin) : State := { s with pins := Tab.set (fun _ => {}) s.pins n p }
def kPin (n lo : Nat) : Key := fk (0x40011000 + 4 * n) lo
def kPinStat : Key := fk 0x40011080 0
def kPinChat : Key := fk 0x40011084 0
def kPinMasked : Key := fk 0x40011088 0
def kPinIn : Key := fk 0x4001108C 0

/-- R74: the pin's event. -/
def State.pinEvent (s : State) (n : Nat) : State := (s.setReg kPinStat (setBit (s.reg kPinStat) n true)).halyard 0

/-- R73: how long a level of a pin must hold to qualify, in XT1 cycles; 0 is no filter. -/
def State.pinFilter (s : State) (n : Nat) : Nat := if s.reg (kPin n 4) = 0 then 0 else 2 ^ (s.reg (kPin n 4) - 1)

/-- R73–R75: a change of the pin's input has qualified; `level` is the ball. A masked pin ignores it, the 33rd edge of a frame
masks it, and otherwise MODE decides. A detector arms once it has been qualified inactive. Whether a pin with EN = 0 counts edges and
is masked the manual does not say: it raises no PIN, and its edges count, mask it and raise CHATTER as those of any pin do (DESIGN
CHOICE, log entry 139). -/
def State.pinEdge (s : State) (n : Nat) (level : Bool) : State :=
  let p := s.pin n
  let act := level != s.flag (kPin n 1)
  if p.masked.isSome || p.qual == some act then s else
  let s1 : State := s.setReg kPinIn (setBit (s.reg kPinIn) n act)
  let edges := p.edges + 1
  if p.qual.isSome && 32 < edges then
    (((s1.setReg kPinChat (setBit (s1.reg kPinChat) n true)).setReg kPinMasked (setBit (s1.reg kPinMasked) n true)).setPin n
      { armed := false, qual := none, edges := 0, masked := some 64 }).halyard 12
  else
    let mode := s.reg (kPin n 2)
    let fires := p.armed && s.flag (kPin n 0) && (act || mode == 2)
    let armed := if mode == 1 && act then false else p.armed || !act
    let s2 : State := s1.setPin n { p with armed := armed, qual := some act, edges := if p.qual.isSome then edges else p.edges }
    if fires then s2.pinEvent n else s2

def execWakePinEdge (pin : Fin 16) (level : Bool) (s : State) : Out := .next (if s.aon then s.pinEdge pin level else s)

/-- R75: the 64th frame boundary after the masking has come. -/
def execWakePinUnmask (pin : Fin 16) (s : State) : Out :=
  .next (if s.aon && (s.pin pin).masked == some 0 then
    (s.setPin pin {}).setReg kPinMasked (setBit (s.reg kPinMasked) pin false) else s)

/-- R76: any field of WAKE_PINn is written: the detector is unarmed and its mask is cleared. -/
def State.pinReset (s : State) (n : Nat) : State :=
  (s.setPin n {}).setReg kPinMasked (setBit (s.reg kPinMasked) n false)

/-- R75: a frame boundary: edges count anew and masks run down. -/
def State.pinBoundary (s : State) : State :=
  { s with pins := s.pins.map (fun e => (e.1, { e.2 with edges := 0, masked := e.2.masked.map (· - 1) })) }

end Sys2Proof.Machine
end

