-- ==== Sys2Proof/Machine/Rtc.lean ====
section
/-! DEFINITION. RTC (R100–R109): the calendar, its alarms, capture and load, and the backup supply. -/
namespace Sys2Proof.Machine

/-- R102: the next second: the calendar fields carry together and SUBSEC is 0. -/
def Rtc.nextSecond (r : Rtc) : Rtc :=
  if r.sec < 59 then { r with sub := 0, sec := r.sec + 1 }
  else if r.min < 59 then { r with sub := 0, sec := 0, min := r.min + 1 }
  else if r.hour < 23 then { r with sub := 0, sec := 0, min := 0, hour := r.hour + 1 }
  else if r.day < monthLen r.year r.month then { r with sub := 0, sec := 0, min := 0, hour := 0, day := r.day + 1 }
  else if r.month < 12 then { r with sub := 0, sec := 0, min := 0, hour := 0, day := 1, month := r.month + 1 }
  else { r with sub := 0, sec := 0, min := 0, hour := 0, day := 1, month := 1, year := (r.year + 1) % 256 }

/-- The time and date words of alarm n. -/
def kAlmTime (n lo : Nat) : Key := fk (0x40003020 + 0x10 * n) lo
def kAlmDate (n lo : Nat) : Key := fk (0x40003024 + 0x10 * n) lo

/-- R107: every unmasked field of alarm n equals the calendar. -/
def State.almMatch (s : State) (n : Nat) : Bool :=
  let r := s.rtc
  let eq := fun (mask v : Key) (x : Nat) => s.flag mask || s.reg v == x
  s.flag (kAlmDate n 31) && eq (kAlmTime n 7) (kAlmTime n 0) r.sec && eq (kAlmTime n 15) (kAlmTime n 8) r.min &&
    eq (kAlmTime n 23) (kAlmTime n 16) r.hour && eq (kAlmDate n 7) (kAlmDate n 0) r.day &&
    eq (kAlmDate n 15) (kAlmDate n 8) r.month && eq (kAlmDate n 19) (kAlmDate n 16) (wday r.year r.month r.day)

/-- R107, R108: alarm n matches: RTC_EVENT, and the halyard event while AON is powered. -/
def State.alarm (s : State) (n : Nat) : State :=
  if s.almMatch n then (s.setFlag (kRtcEvent n) true).halyard (1 + n) else s

/-- A second begins: the alarms are compared. -/
def State.alarms (s : State) : State := (s.alarm 0).alarm 1

/-- R102: SUBSEC wraps and a new second begins. -/
def execSecondRollover (s : State) : Out :=
  .next (if s.rtc.halted then s else State.alarms ({ s with rtc := s.rtc.nextSecond } : State))

/-- R103: XT1 stops while AON is unpowered: the RTC halts. -/
def execHalted (s : State) : Out :=
  .next (if s.aon then s else
    (({ s with rtc := { s.rtc with halted := true } } : State).setFlag (kRtcEvent 3) true).setFlag (kRtcStat 1) false)

/-- R103: a halted RTC resumes at the first XT1 edge. -/
def execRtcResume (s : State) : Out :=
  .next (if s.rtc.halted then ({ s with rtc := { s.rtc with halted := false } } : State).setFlag (kRtcStat 1) true else s)

/-- R100: BKP changes over between VSTORE and VBAK. -/
def execBkpSupplyChangeover (vbak : Bool) (s : State) : Out := .next (s.setFlag (kRtcStat 2) vbak)

/-- R103: XT1 clocks the RTC: while AON is powered once XT1 is the tick source, without AON while XT1 has not been found to stop. -/
def State.rtcOnXt1 (s : State) : Bool :=
  !s.rtc.halted && (!s.aon || (s.flag (kClkStat 0) && !s.flag (kClkStat 4)))

/-- R101, R31: every RTC field returns to its reset value, and RTC's ring is emptied. An XT1 that has stopped stays stopped, and one
that runs is counted again at once (R103). -/
def execBkpPor (s : State) : Out :=
  let keep := fun k : Nat => !decide (0x40003000 ≤ keyAddr k ∧ keyAddr k < 0x40004000)
  let s1 : State := { s.setRing 3 {} with
    rtc := { halted := s.rtc.halted }, regs := Tab.keep keep s.regs, crossing := s.crossing.filter (fun c => c.block != 3) }
  .next (s1.setFlag (kRtcStat 1) s.rtcOnXt1)

/-- R104: the snapshot of one XT1 edge. -/
def State.rtcCapture (s : State) : State :=
  let r := s.rtc
  let s1 : State := s.setReg (fk 0x40003010 0) r.sub
  let s2 : State := ((s1.setReg (fk 0x40003014 0) r.sec).setReg (fk 0x40003014 8) r.min).setReg (fk 0x40003014 16) r.hour
  (((s2.setReg (fk 0x40003018 0) r.year).setReg (fk 0x40003018 8) r.month).setReg (fk 0x40003018 16) r.day).setReg
    (fk 0x40003018 24) (wday r.year r.month r.day)

/-- R105: the staged fields enter the calendar, SUBSEC is 0, VALID is 1; the second so begun is compared (R107). -/
def State.rtcLoad (s : State) : State :=
  let r : Rtc := { s.rtc with
    sub := 0, sec := s.reg (fk 0x40003004 0), min := s.reg (fk 0x40003004 8), hour := s.reg (fk 0x40003004 16)
    year := s.reg (fk 0x40003008 0), month := s.reg (fk 0x40003008 8), day := s.reg (fk 0x40003008 16) }
  State.alarms (({ s with rtc := r } : State).setFlag (kRtcStat 0) true)

/-- One XT1 cycle: SUBSEC counts up to its last value; its wrap is SECOND_ROLLOVER. -/
def State.rtcCycle (s : State) : State :=
  if s.rtc.halted then s else { s with rtc := { s.rtc with sub := min 32767 (s.rtc.sub + 1) } }

end Sys2Proof.Machine
end

