-- ==== Sys2Proof/Machine/Harv.lean ====
section
/-! DEFINITION. HARV (R37–R57) and the part's power: the harvester states, maximum-power-point sampling, STORE_LOW, the load cut,
the gauge and its allowance, and the release of AON power-on reset. -/
namespace Sys2Proof.Machine

/-! ### The gauge (R51–R53) -/

/-- R51: GAUGE_ENERGY before it saturates, from GAUGE_VSTORE and STORE_CUT in mV and CAP_MF. -/
def gaugeEnergy (v cut cap : Nat) : Nat := if v ≤ cut then 0 else cap * (v * v - cut * cut) / 2000

/-- R51: GAUGE_HARVEST and GAUGE_LOAD in nW, from an energy in pJ over a number of XT1 cycles. -/
def gaugePower (e n : Nat) : Nat := min (e * 32768 / (n * 1000)) 1048575

/-- R52: the threshold Ek. -/
def State.allowE (s : State) (k : Nat) : Nat := s.reg (fk (0x4000101C + 4 * (k - 2)) 0)

/-- R52: the allowance from the energy and voltage of an update, the previous allowance, and PSU_PG. -/
def State.allowance (s : State) (energy v : Nat) (pg : Bool) : Nat :=
  if pg then 7 else
  let p := s.allow
  let a := [2, 3, 4, 5, 6].foldl (fun a k =>
    if s.allowE k + (if p < k then s.reg (fk 0x40001018 0) else 0) ≤ energy then k else a) 1
  let b := if v < 3000 then min a 5 else a
  if s.storeLow then min b 3 else b

/-- XT1 cycles of a sampling period. -/
def State.perCycles (s : State) (b : Bool) : Nat := s.reg (fk (if b then 0x40001008 else 0x40001004) 8) * 32768

/-- R42: an enabled input is due for a sample. -/
def State.sampleDue (s : State) (b : Bool) : Bool :=
  s.flag (fk 0x40001000 (ofBool b)) &&
    (if b then s.harv.sinceB else s.harv.sinceA).elim true (fun n => decide (s.perCycles b ≤ n))

/-- R42, R43: at a gauge update a due input starts its sample, HVA first, never both; not while FULL is 1 (R44). Whether HVA_ACT or
HVB_ACT reads 0 while SMP is 1 the manual does not say; the model leaves the flag as it was (DESIGN CHOICE, log entry 132). -/
def State.startSample (s : State) : State :=
  if s.harv.sampling.isSome || s.flag (kHarvStat 2) then s
  else if s.sampleDue false then
    ({ s with harv := { s.harv with sampling := some false, sinceA := some 0 } } : State).setFlag (kHarvStat 7) true
  else if s.sampleDue true then
    ({ s with harv := { s.harv with sampling := some true, sinceB := some 0 } } : State).setFlag (kHarvStat 8) true
  else s

/-- R51–R53: the values of one update are published together. When BELOW_OK changes, and from what, the manual does not say: the
model sets it at each update, from GAUGE_VSTORE below STORE_OK (DESIGN CHOICE, log entry 131). -/
def State.publish (s : State) (vstore harvested drawn cycles : Nat) : State :=
  let v := min vstore 8191
  let e := gaugeEnergy v (s.reg kCut * 10) (s.reg (fk 0x40001010 0))
  let w := ((harvested, drawn, cycles) :: s.harv.window).take 64
  let n := (w.map (·.2.2)).foldl (· + ·) 0
  let old := s.allow
  let new := s.allowance (min e 16777215) v s.serv.pg
  let s1 : State := { s with harv := { s.harv with
    window := w, sinceA := s.harv.sinceA.map (· + cycles), sinceB := s.harv.sinceB.map (· + cycles) } }
  let s2 : State := ((s1.setReg kVstore v).setReg kEnergy (min e 16777215)).setReg kStamp ((s.reg kStamp + 1) % 65536)
  let s3 : State := (s2.setReg (fk 0x40001084 0) (gaugePower ((w.map (·.1)).foldl (· + ·) 0) n)).setReg (fk 0x40001088 0)
    (gaugePower ((w.map (·.2.1)).foldl (· + ·) 0) n)
  let s4 : State := ((s3.setReg kAllow new).setFlag (kHarvStat 1) s.serv.pg).setFlag (kHarvStat 4) (decide (v < 3000))
  let s5 : State := if 16777215 < e then s4.setFlag (kHarvEvent 5) true else s4
  let s6 : State := if s.serv.pg && !s.vstbyOk then s5.setFlag (kHarvEvent 4) true else s5
  if old < new then s6.halyard 10 else if new < old then s6.halyard 11 else s6

/-- R195: at a gauge update the CAT controller lets bank 15 go if it alone powered it and no map word is still to be written; within
an entry sequence it keeps the bank until the sequence's switch-off. -/
def State.letGo15 (s : State) : State :=
  if s.cat.hold15 && s.cat.mapDue.isEmpty && !s.flag kRebuilding && s.pmu.entry.isNone then
    let s1 : State := { s with cat := { s.cat with hold15 := false } }
    if bit (s1.reg (fk 0x40000024 0)) 11 then s1 else s1.offDomHeld 43
  else s

/-- R80: while domain 04 is off, the tick source moves to XT1 at the first gauge update after its judgement. -/
def State.sourceToXt1 (s : State) : State :=
  if s.flag (kClkStat 0) && s.flag (kClkStat 4) then (s.setFlag (kClkStat 4) false).setFlag (kRtcStat 1) true else s

/-- R51: a gauge update: VSTORE in mV, the energy delivered and drawn in pJ, and the XT1 cycles since the previous one. Allowance 1
forces FURL (R64), allowance 2 demotes Reef 2 (R65). -/
def execGaugeUpdate (vstore : Nat) (harvested : Nat) (drawn : Nat) (cycles : Nat) (s : State) : Out :=
  if !s.aon then .next s else
  let s1 : State := (s.publish vstore harvested drawn cycles).startSample
  let s2 : State := if s1.domSt 4 == .off then s1.pinBoundary.sourceToXt1 else s1
  let s3 : State := s2.letGo15
  .next (if s3.allow = 1 then s3.forceFurl
    else if s3.allow = 2 && s3.reg kLevel == 2 && s3.reg kPhase == 0 then s3.demote
    else s3)

/-! ### Maximum-power-point tracking (R38, R42–R44) -/

/-- HVA_ACT and HVB_ACT: the converter operates; both idle while FULL is 1 (R44). -/
def State.setAct (s : State) : State :=
  let full := s.flag (kHarvStat 2)
  (s.setFlag (kHarvStat 5) (s.harv.hvaOn && !full)).setFlag (kHarvStat 6) (s.harv.hvbOn && !full)

/-- R42: what HARV_HVA_VOC (10 µV) or HARV_HVB_VOC (1 mV) reads for an open-circuit voltage in µV: the nearest unit, halves up. -/
def vocOf (input : Bool) (uv : Nat) : Nat := if input then min ((uv + 500) / 1000) 8191 else min ((uv + 5) / 10) 65535

/-- The VOC register of an input. -/
def kVoc (input : Bool) : Key := if input then fk 0x4000104C 0 else fk 0x40001048 0

/-- R42, R38: a sample of an open-circuit voltage in µV ends: its converter starts, goes on or stops by what the sample reads: HVA
starts at 18 mV and goes on down to 10 mV; HVB works from 0.40 V to 4.50 V. When HVB's input counts as outside its range between two
samples the manual does not say; the model judges it at the ends of samples only (DESIGN CHOICE, log entry 133). -/
def execMpptSampleEnd (input : Bool) (uv : Nat) (s : State) : Out :=
  if !(s.aon && s.harv.sampling == some input) then .next s else
  let v := vocOf input uv
  let s1 : State := ({ s with harv := { s.harv with sampling := none } } : State).setFlag (kHarvStat (7 + ofBool input)) false
  let h : Harv := if input then { s1.harv with hvbOn := decide (400 ≤ v ∧ v ≤ 4500) }
    else { s1.harv with hvaOn := decide ((if s1.harv.hvaOn then 1000 else 1800) ≤ v) }
  .next (State.setAct (({ s1 with harv := h } : State).setReg (kVoc input) v))

/-- R42, R44: the input voltage at which a converter that operates holds its input, in sixteenths of the unit of its VOC register:
VOC × FRAC, with the FRAC in effect and the VOC held. None while the converter draws nothing: off, sampling, or idle at FULL. -/
def State.regulatesAt (s : State) (input : Bool) : Option Nat :=
  if s.aon && (if input then s.harv.hvbOn else s.harv.hvaOn) && s.harv.sampling != some input && !s.flag (kHarvStat 2)
  then some (s.reg (kVoc input) * s.reg (fk (if input then 0x40001008 else 0x40001004) 0)) else none

/-- R45: the limit in mA at which the boost charger charges VSTORE from VSTBY: CHG_MA in STANDBY with CHG_EN set and FULL 0; none
where it does not run. -/
def State.chargesAt (s : State) : Option Nat :=
  if s.aon && s.harv.st == .standby && s.flag (fk 0x40001000 2) && !s.flag (kHarvStat 2) then some (s.reg (fk 0x4000100C 0)) else none

/-- R37, R38: the cold paths charge the store while the load is disconnected, and are idle while AON is powered. -/
def State.coldPaths (s : State) : Bool := s.harv.st == .empty || s.harv.st == .bare

/-- R38, R42: HVA_EN or HVB_EN has been written: clearing it stops the converter and a sample in hand, setting it makes the first
sample due at the next update. -/
def State.harvEn (s : State) (b was now : Bool) : State :=
  if was == now then s
  else if now then { s with harv := if b then { s.harv with sinceB := none } else { s.harv with sinceA := none } }
  else
    let s1 : State := { s with harv := if b then { s.harv with hvbOn := false } else { s.harv with hvaOn := false } }
    let s2 : State := if s1.harv.sampling = some b then
      ({ s1 with harv := { s1.harv with sampling := none } } : State).setFlag (kHarvStat (7 + ofBool b)) false else s1
    s2.setAct

/-- R45, R44: VSTORE reaches STORE_FULL: FULL is 1, the charger and both converters stop, and no sample is in hand. -/
def execFullRise (s : State) : Out :=
  .next (if s.aon then
    State.setAct (((({ s with harv := { s.harv with sampling := none } } : State).setFlag (kHarvStat 2) true).setFlag
      (kHarvStat 7) false).setFlag (kHarvStat 8) false) else s)

/-- R45, R42: FULL clears; the next update samples. Whether a converter that FULL stopped needs a sample of 18 mV to start again the
manual does not say; it goes on as it was before FULL (DESIGN CHOICE, log entry 134). -/
def execFullClear (s : State) : Out :=
  .next (if s.aon && s.flag (kHarvStat 2) then
    State.setAct (({ s with harv := { s.harv with sinceA := none, sinceB := none } } : State).setFlag (kHarvStat 2) false) else s)

/-! ### Store thresholds (R48–R50) -/

/-- R48: VSTORE has stayed below STORE_LOW for 250 µs while VSTBY_OK is 0. -/
def execStoreLow (s : State) : Out :=
  .next (if s.aon && !s.vstbyOk && !s.storeLow then
    ((({ s with harv := { s.harv with lowTicks := some 0 } } : State).setFlag (kHarvStat 3) true).setFlag (kHarvEvent 3) true).halyard 7
  else s)

/-- R48: STORE_LOW ends. -/
def State.lowEnds (s : State) : State :=
  ({ s with harv := { s.harv with lowTicks := none } } : State).setFlag (kHarvStat 3) false

def execStoreLowEnd (s : State) : Out := .next (if s.aon && s.storeLow then s.lowEnds else s)

/-- R50: the cut is decided; from here no catalog entry starts its first attempt. -/
def execLoadCut (s : State) : Out :=
  .next (if s.aon && s.harv.st == .harvest then { s with harv := { s.harv with cutDecided := true } } else s)

/-- What AON and every switched domain lose when the load switch opens: all but BKP with RTC's ring and the writes that cross into it
(R101), the keep cell, and what is kept without supply: catalog arrays and NOR. The harvester is then in BARE, or in EMPTY where the
keep cell holds nothing (R39, R40). -/
def State.powerLost (s : State) : State :=
  let keepReg := fun k : Nat => decide (0x40003000 ≤ keyAddr k ∧ keyAddr k < 0x40004000) || keyAddr k == 0x40001014
  let keepMem := fun a : Nat => decide (0x20000000 ≤ a ∧ a < 0x24000000) || decide (0x01000000 ≤ a ∧ a < 0x01800000)
  { pending := s.pending, fresh := s.fresh, regs := Tab.keep keepReg s.regs, shadow := []
    crossing := s.crossing.filter (fun c => c.block == 3), rings := Tab.keep (· == 3) s.rings
    gring := {}, dom := [], mem := Tab.keep keepMem s.mem
    harv := { st := if s.harv.kept then .bare else .empty, kept := s.harv.kept, loaded := s.harv.loaded }
    pmu := {}, pins := [], clk := {}, rtc := s.rtc, err := {}, cores := [], irqEdge := 0, slots := [], ten := {}
    cat := { ecc := s.cat.ecc }, dma := [], crypt := { signs := s.crypt.signs }, arbs := [], lock := {}, spine := {}
    cyn := { overflow := s.cyn.overflow }, bay := {}, adc := {}, sfu := [], tabWait := []
    boot := { bootBalls := s.boot.bootBalls, strapBalls := s.boot.strapBalls }, serv := { pg := s.serv.pg, alert := s.serv.alert, io := s.serv.io } }

/-- R50: the load switch opens once the entry whose first attempt has started is retired; the buffered writes are lost. A NOR
operation that stops leaves its target with any content (R381). -/
def execLoadSwitchOpen (s : State) : Out :=
  .next (if s.harv.cutDecided && s.harv.st == .harvest && !(s.cat.wb.any (·.started)) && !s.cat.mapDue.any (·.retires)
    then (let s1 : State := s.loseNor.powerLost; s1.setFlag (kRtcStat 1) s1.rtcOnXt1) else s)

/-! ### The keep cell and the load switch (Table 3-2, R40, R47) -/

/-- The keep cell's thresholds take their reset values. -/
def State.resetThresholds (s : State) : State :=
  ((s.setReg kCut 220).setReg kRearm 280).setReg kFull 500

/-- VSTORE rises through 1.20 V. -/
def execKeepCellLoad (s : State) : Out :=
  .next (if s.harv.kept then s else
    let s1 : State := s.resetThresholds
    { s1 with harv := { s1.harv with kept := true, loaded := true, st := if s1.harv.st == .empty then .bare else s1.harv.st } })

/-- VSTORE falls below 1.20 V: the fields are lost. Until the next load they hold what the manual does not state. -/
def execKeepCellLoss (s : State) : Out :=
  .next (if !s.harv.kept then s else
    let f := s.freeBits 10
    let g := f.2.freeBits 10
    let h := g.2.freeBits 10
    let s1 : State := ((h.2.setReg kCut f.1).setReg kRearm g.1).setReg kFull h.1
    { s1 with harv := { s1.harv with kept := false, st := if s1.harv.st == .bare then .empty else s1.harv.st } })

/-- VSTORE has held at or above STORE_REARM for 1 ms: the load switch closes. -/
def execLoadReconnect (s : State) : Out :=
  .next (if (s.harv.st == .bare || s.harv.st == .empty) && s.harv.kept then
    { s with harv := { s.harv with st := .harvest, por := true, porStby := false } } else s)

/-! ### VSTBY (R41, R66, R87) -/

/-- VSTBY has held at or above 3.10 V for 1 ms. From BARE or EMPTY the load switch closes and AON is held in power-on reset. A cut
that was decided and not yet carried out does not go on: the load leaves VSTORE. -/
def execStbyUp (s : State) : Out :=
  match s.harv.st with
  | .standby => .next s
  | .bare | .empty => .next { s with harv := { s.harv with st := .standby, por := true, porStby := true } }
  | .harvest =>
    let s1 : State := { s with harv := { s.harv with st := .standby, cutDecided := false } }
    .next (if s1.aon then ((s1.setFlag (kHarvStat 0) true).lowEnds).halyard 9 else s1)

/-- R66: the domains shed when VSTBY_OK falls. -/
def shedDomains : List Nat := [50, 51, 52, 53, 54, 55, 56, 57, 58, 59, 60, 61, 62, 63, 64, 66]

/-- R87: the system source moves to FIRC; FORCED reads 1 until SRC is next switched. -/
def State.forceFirc (s : State) : State := (s.setReg (fk 0x40002040 5) 0).setFlag (kClkStat 8) true

/-- VSTBY_OK falls: the load moves to VSTORE, the PMU sheds load, and STBY_LOST is raised. -/
def execStbyLost (s : State) : Out :=
  if s.harv.st != .standby then .next s else
  let s1 : State := { s with harv := { s.harv with st := .harvest } }
  if !s1.aon then .next s1 else
  let s2 : State := shedDomains.foldl (fun s d => s.offDom d) ((s1.setFlag (kHarvStat 0) false).setFlag (kHarvEvent 6) true)
  .next (s2.forceFirc.halyard 8)

/-! ### Power-on (R40, R366) -/

/-- The start reason: 0 START_EMPTY, 1 START_BARE, 2 START_STBY. -/
def Harv.startReason (h : Harv) : Nat := if h.porStby then 2 else if h.loaded then 0 else 1

/-- R40, R366, R369, R108: AON power-on reset is released: HARV_EVENT shows the reason, LOADED clears, the boot balls are sampled,
an RTC alarm that stands shows in PMU_HAL_STAT, and the domains of the reset PMU_DOM_ON come up. -/
def execAonPorRelease (boot : BitVec 2) (strap : BitVec 2) (s : State) : Out :=
  if !s.harv.por then .next s else
  let h := s.harv
  let s1 : State := { s with harv := { h with por := false, porStby := false, loaded := false } }
  let s2 : State := (s1.setFlag (kHarvEvent h.startReason) true).setFlag (kHarvStat 0) (h.st == .standby)
  let s3 : State := ((s2.setReg (fk 0x40000060 8) boot.toNat).setReg (fk 0x40000060 10) strap.toNat).setFlag (kClkStat 4) true
  let alarms := s3.reg (kRtcEvent 0) * 2 + s3.reg (kRtcEvent 1) * 4
  let s4 : State := s3.setReg kHalStat (s3.reg kHalStat ||| alarms)
  let s5 : State := startDomains.foldl (fun s d => s.onDom d) s4
  .next { s5 with boot := { s5.boot with
    bootBalls := boot.toNat, strapBalls := strap.toNat, starting := true, accepting := false, full := false, rstOutLow := true } }

end Sys2Proof.Machine
end

