-- ==== Sys2Proof/Machine/Clk.lean ====
section
/-! DEFINITION. CLK (R79–R90) and the frame tick with its beacon alignment (R91–R97, R243). The latch edge itself is in
Latch.lean. -/
namespace Sys2Proof.Machine

def kTickSirc : Key := kClkStat 4
def kSrcEff : Key := fk 0x40002040 5
def kPhaseFirc : Key := fk 0x40004018 0

/-- R83, R357: a CLK_EVENT bit, reported to ERR. -/
def State.clkEvent (s : State) (b : Nat) : State :=
  (s.setFlag (kClkEvent b) true).raise { cls := 0, source := 2, code := b + 1, detail := [b] }

/-- R97: FRAME loses its anchor in a change from `s0`; UNANCHORED is set where ANCHORED read 1 before and reads 0 now. A head, which
reads ANCHORED = 1 while the tick source is XT1, stays anchored through all but a move of that source. -/
def State.unanchor (s0 s : State) : State :=
  let s1 : State := s.setFlag (kFrameStat 0) false
  if s0.anchored && !s1.anchored then s1.setFlag (kFrameEvent 1) true else s1

/-! ### Sources -/

/-- R80: XT1 has counted 8,192 consecutive cycles. The tick source moves at the next tick. -/
def execXt1Judged (s : State) : Out := .next (if s.aon then s.setFlag (kClkStat 0) true else s)

/-- R83, R80, R103: a gap of XT1: before judgement nothing is shown; after it SIRC takes over, FRAME is unanchored, and the
calendar counts on SIRC. -/
def execXt1Fail (s : State) : Out :=
  .next (if s.aon && s.flag (kClkStat 0) then
    ((s.unanchor (((s.setFlag (kClkStat 0) false).setFlag kTickSirc true).clkEvent 0)).setFlag (kRtcEvent 2) true).setFlag
      (kRtcStat 1) false
  else s)

/-- R81: XT2 reaches its 65,536th counted edge. -/
def execXt2Ok (s : State) : Out := .next (if s.isUp 67 then s.setFlag (kClkStat 1) true else s)

/-- R82: a PLL's lock counter completes; `pll` names PLL1. -/
def execPllLock (pll : Bool) (s : State) : Out :=
  .next (if s.isUp (65 + ofBool pll) && s.flag (kClkStat 1) then s.setFlag (kClkStat (2 + ofBool pll)) true else s)

/-- R83: XT2 is not judged in time; a full wake in progress completes on FIRC. -/
def execXt2Fail (s : State) : Out :=
  if !s.isUp 67 || s.flag (kClkStat 1) then .next s else
  let s1 : State := s.clkEvent 1
  .next (if s1.reg kPhase = 2 then s1.wakeEnd else s1)

/-- R83: a locked PLL loses lock; the system source moves to FIRC if it was PLL0. -/
def State.pllLoss (s : State) (p : Nat) : State :=
  if !s.flag (kClkStat (2 + p)) then s else
  let s1 : State := (s.setFlag (kClkStat (2 + p)) false).clkEvent (2 + p)
  if p = 0 && s1.reg kSrcEff == 2 then s1.setReg kSrcEff 0 else s1

def execPllLockLoss (pll : Bool) (s : State) : Out := .next (s.pllLoss (ofBool pll))

/-- R83: a judged XT2 shows no edge for 1 µs. -/
def execXt2Stop (s : State) : Out :=
  .next (if s.isUp 67 && s.flag (kClkStat 1) then (((s.setFlag (kClkStat 1) false).clkEvent 1).pllLoss 0).pllLoss 1 else s)

/-- R89: a new SEL or DIV takes effect at the end of the output period in progress. -/
def execClkoutChange (s : State) : Out :=
  .next (if s.aon then { s with clk := { s.clk with outSel := s.reg (fk 0x40002014 0), outDiv := s.reg (fk 0x40002014 16) } } else s)

/-- Table 5-1, R86: the nominal frequency of PLL0's output, in Hz. -/
def State.pll0Hz (s : State) : Nat := 25000000 * s.reg (fk 0x4000200C 0) / s.reg (fk 0x4000200C 8)

/-- Table 5-1: the nominal frequency of SYS, in Hz, from the source in effect. -/
def State.sysHz (s : State) : Nat :=
  match s.reg kSrcEff with
  | 0 => 48000000
  | 1 => 96000000
  | _ => s.pll0Hz

/-- Table 5-2: the clocks derived from SYS. -/
inductive SysClock where
  | cclk | fclk | pclk | mclk | aclk
  deriving DecidableEq, Repr

/-- Table 5-2: the divisor of a derived clock that is in effect. -/
def State.divisor (s : State) : SysClock → Nat
  | .cclk => s.reg (fk 0x40002004 0)
  | .fclk => s.reg (fk 0x40002004 8)
  | .pclk => s.reg (fk 0x40002004 16)
  | .mclk => s.reg (fk 0x40002004 24)
  | .aclk => s.reg (fk 0x40002008 0)

/-- Table 5-2: the nominal frequency of a derived clock, in Hz. -/
def State.clockHz (s : State) (c : SysClock) : Nat := s.sysHz / s.divisor c

/-- R85: the ratios that software must keep; nothing checks them (log entry 140). -/
def State.ratiosKept (s : State) : Bool :=
  let d := s.divisor
  decide ((d .fclk = d .cclk ∨ d .fclk = 2 * d .cclk) ∧ (d .pclk = 2 * d .fclk ∨ d .pclk = 4 * d .fclk) ∧
    (d .mclk = 2 * d .fclk ∨ d .mclk = 4 * d .fclk) ∧ d .pclk ≤ d .aclk)

/-- Table 5-4: whether the clock of a selector code runs. SYS is FIRC or PLL0 as SRC_EFF says; CCLK and FCLK stop in Reef 1 (R61);
SIRC runs while it is the tick source (R80); a PLL's output runs while it is locked. The clocks of Reef 2 and deeper are off with
their sources. XT1 and the FMEAS_IN ball are the world's, and count as running while the part is powered (log entry 128); FMEAS_IN
reads 0 while VIO33 is absent (R406). -/
def State.clkRuns (s : State) (code : Nat) : Bool :=
  let sys := if s.reg kSrcEff = 2 then s.isUp 65 && s.flag (kClkStat 2) else s.isUp 68 && s.isUp 5
  s.aon && (match code with
    | 1 => true
    | 14 => s.serv.io.vio33
    | 2 => s.flag kTickSirc
    | 3 => s.isUp 67
    | 4 | 5 | 13 => s.isUp 68
    | 6 => s.isUp 65 && s.flag (kClkStat 2)
    | 7 => s.isUp 66 && s.flag (kClkStat 3)
    | 8 | 9 => sys && s.reg kLevel != 1
    | 10 | 11 | 12 => sys
    | 15 => s.domSt 4 == .up || s.domSt 4 == .retained || s.domSt 4 == .resuming
    | _ => false)

/-- R89: what the ball CLKOUT gives: low; the clock of a code divided by `n` and high for `high` of `n` input cycles; or the level of
the tick's pulse. -/
inductive ClkOut where
  | highZ
  | low
  | clock (code n high halves : Nat)
  | tick (level : Bool)
  deriving DecidableEq, Repr

/-- R89: an even divisor gives a high half of each period, an odd one n is high for (n + 1)/2 input cycles; `halves` is the high time
in half cycles of the input, so that a divisor of 1 shows the input clock itself. Code 15 is high for the XT1 cycle that each tick
opens. -/
def State.clkout (s : State) : ClkOut :=
  let n := s.clk.outDiv + 1
  if !s.serv.io.vio33 then .highZ
  else if s.clk.outSel = 0 || !s.clkRuns s.clk.outSel then .low
  else if s.clk.outSel = 15 then .tick s.clk.tickHigh
  else .clock s.clk.outSel n (if n % 2 = 0 then n / 2 else (n + 1) / 2) (if n = 1 then 1 else if n % 2 = 0 then n else n + 1)

/-! ### FMEAS (R90) -/

def kFmStat (i : Nat) : Key := fk 0x4000202C i
def kFmRes : Key := fk 0x40002028 0

/-- A write of START clears the result and starts, or restarts, a measurement. -/
def State.fmStart (s : State) : State :=
  (((s.setReg kFmRes 0).setFlag (kFmStat 0) false).setFlag (kFmStat 1) false).setFlag (kFmStat 2) true

/-- The window of WIN reference edges ends with a count of MEAS edges. With REF stopped the window never ends; a stopped MEAS counts
nothing. -/
def execFmeasDone (count : Nat) (s : State) : Out :=
  if !(s.aon && s.flag (kFmStat 2)) || !s.clkRuns (s.reg (fk 0x40002020 0)) then .next s else
  let n := if s.clkRuns (s.reg (fk 0x40002020 4)) then count else 0
  .next ((((s.setReg kFmRes (min n 0xFFFFFFFF)).setFlag (kFmStat 1) (decide (0xFFFFFFFF < n))).setFlag (kFmStat 0) true).setFlag
    (kFmStat 2) false)

/-! ### Ticks (R91, R92) -/

/-- FRAME's tick logic runs: domain 04 is released or its fast path is off in Reef 2 or Reef 3. -/
def State.tickLogic (s : State) : Bool :=
  s.aon && (s.domSt 4 == .up || s.domSt 4 == .retained || s.domSt 4 == .resuming)

/-- R91: a tick is placed. Its source moves to XT1 once that is judged (R80); pin masks run down (R75), STORE_LOW counts its ticks
(R49), the beacon ages (R97). The latch edge follows, unless the fast path is off (R92). -/
def execFrameTick (s : State) : Out :=
  if !s.tickLogic then .next s else
  let up := s.isUp 4
  let s1 : State := ((s.sourceToXt1.setReg kAge (min (s.reg kAge + 1) 15)).pinBoundary)
  let s2 : State := { s1 with
    harv := { s1.harv with lowTicks := s1.harv.lowTicks.map (· + 1) }
    clk := { s1.clk with
      move := 0, extended := false, tickDue := up, tickHigh := true
      missed := s1.clk.missed + ofBool (!up || s1.clk.tickDue) + ofBool (!up && s1.clk.tickDue) } }
  .next (if up then s2.headTick else s2.headTick.spineTick)

/-- R97: BEACON_AGE reaches 7. -/
def execUnanchored (s : State) : Out := .next (if s.aon && decide (7 ≤ s.reg kAge) then s.unanchor s else s)

/-! ### Beacons (R243, R95, R96) -/

/-- R95: the beacon anchors FRAME: PHASE takes the sub-cycle remainder of the slot-0 start. R244: the node is admitted. Whether the e
of this beacon enters FRAME_LAST_ERR the manual does not say; the model leaves the register as it was (DESIGN CHOICE, log entry 129). -/
def State.acquire (s : State) (e : Int) (per : Nat) : State :=
  let p := ((s.reg kPhaseFirc : Int) + e) % (per : Int)
  let s1 : State := { s with clk := { s.clk with extended := true } }
  (((s1.setReg kPhaseFirc (p.toNat % 4096)).setFlag (kFrameStat 0) true).setFlag (kFrameEvent 0) true).setFlag (kSpineStat 0) true

/-- R96: the error is added to PHASE; a whole period moves the tick by one cycle. -/
def State.correct (s : State) (e : Int) (per : Nat) : State :=
  let p : Int := (s.reg kPhaseFirc : Int) + e
  let q : Int := if (per : Int) ≤ p then p - per else if p < 0 then p + per else p
  let mv : Int := if (per : Int) ≤ p then 1 else if p < 0 then -1 else 0
  let s1 : State := (s.setReg (fk 0x40004024 0) (e % 65536).toNat).setReg kPhaseFirc (q.toNat % 4096)
  if mv = 0 then s1 else
  let s2 : State := { s1 with clk := { s1.clk with move := s1.clk.move + mv } }
  (s2.count (fk 0x40004028 0) 16 1).setFlag (kFrameEvent 2) true

/-- R266: the SPINE_BCN registers take the accepted beacon: HDR holds bytes 0 to 3, byte 0 lowest. -/
def State.takeBeacon (s : State) (bs : List Byte) : State :=
  let w := fun i => ofBe ((bs.drop i).take 4)
  let s1 : State := ((s.setReg (fk 0x4000A050 0) (leAt bs 0 4)).setReg (fk 0x4000A054 0) (w 4)).setReg (fk 0x4000A058 0) (w 8)
  (((s1.setReg (fk 0x4000A05C 0) (w 12)).setReg (fk 0x4000A060 0) (w 16)).setReg kAge 0).setFlag (kSpineStat 1) true

/-- R243: a valid beacon is judged: `e` is its error and `per` the FIRC96 cycles of one XT1 period. A head that has not stopped takes
it for a conflict (R262). While the tick source is SIRC, or ANCHOR_EN is 0, an accepted beacon gives FRAME no timing (R97). -/
def State.judgeBeacon (s : State) (bs : List Byte) (e : Int) (per : Nat) : State :=
  if s.flag kHead && !s.spine.headStop then
    ({ s with spine := { s.spine with headStop := true } } : State).setFlag (kSpineEvent 4) true
  else if s.flag (kFrameStat 0) && decide (192 < e.natAbs) then s.setFlag (kSpineEvent 6) true
  else
    let timing := !s.flag kTickSirc && s.flag (fk 0x40004000 0)
    let s1 : State := if !timing then s else if s.flag (kFrameStat 0) then s.correct e per else s.acquire e per
    s1.frameAccepted.takeBeacon bs

/-- R243, R263: beacons of 208 bits after their SD are received. -/
def execBeacon (frame : Rx 208) (e : Int) (per : Nat) (s : State) : Out :=
  if !s.tickLogic then .next s else
  match s.pickFrame frame (crc16Ok 26) with
  | (some f, s1) => .next (s1.judgeBeacon (beBytes f.toNat 26) e per)
  | (none, s1) => .next s1

end Sys2Proof.Machine
end

