-- ==== Sys2Proof/Machine/Views.lean ====
section
/-! DEFINITION. What registers show: RUNNING, XSYNC, the read-only fields that view other state, the CC's interrupt sources, and
the read of a register word (R4, R5, R21, R24, R33, R35, R36, R125). -/
namespace Sys2Proof.Machine

/-! ### Block status (R24) -/

/-- R389: an operation is in hand. -/
def State.norHand (s : State) : Bool := s.norOp.state != 0

/-- R24: the RUNNING bit that governs the STOPPED fields at an address; a block without an enable is never running. The scrubber runs
until the rewrite of its last word is done (R199). -/
def State.running (s : State) (b o : Nat) : Bool :=
  match b with
  | 0x02 => s.isUp 65
  | 0x09 => s.norHand
  | 0x0A => s.flag kSpineEn
  | 0x0B => s.flag kPairEn
  | 0x0E => (List.range 5).any (fun p => (s.place p).busy)
  | 0x0F => (List.range 6).any (fun p => (s.job p).busy)
  | 0x10 => if 0x020 ≤ o ∧ o < 0x060 then s.convRunning ((o - 0x20) / 0x10)
      else if 0x400 ≤ o ∧ o < 0xC00 then s.convRunning ((o - 0x400) / 0x200)
      else (List.range 4).any s.convRunning
  | 0x13 => if o < 0x80 then s.flag (fk (0x40013000 + o / 0x40 * 0x40) 0) else s.flag (fk 0x40013000 0) || s.flag (fk 0x40013040 0)
  | 0x15 => s.flag (fk 0x40015008 0) || (List.range 64).any (fun n => (s.slot n).state == 2)
  | 0x16 => s.crypt.op.isSome
  | 0x17 => if o < 0x8000 then s.bayRunning (o / 0x100) else s.bayRunning s.bay.lastBay
  | 0x18 => if o < 0x8000 then s.portRunning (o / 0x100) else s.portRunning s.bay.lastBayu
  | 0x1B => s.flag (fk 0x40017000 0) || s.cat.wb.any (fun e => e.origin == 2)
  | _ => false

/-- BLOCK_CFG_STAT.RUNNING: in ADC the converter last named, or all of them after a block-wide register (R324). -/
def State.runningStat (s : State) (b : Nat) : Bool :=
  if b = 0x10 then (if s.adc.last < 4 then s.convRunning s.adc.last else (List.range 4).any s.convRunning) else s.running b 0x8F80

/-- A key lies in a block. -/
def inBlock (b k : Nat) : Bool := decide (blockBase b ≤ keyAddr k ∧ keyAddr k < blockBase b + blockSize b)

/-- R21: FRAME writes of the block await the tick. -/
def State.pendingIn (s : State) (b : Nat) : Bool := s.shadow.any (fun e => inBlock b e.1)

/-- R34: a write to the block is crossing. -/
def State.xsync (s : State) (b : Nat) : Bool := s.crossing.any (fun c => c.block == b)

/-- R35: BLOCK_CFG_CTRL.VIEW. -/
def kView (b : Nat) : Key := fk (commonBase b + 4) 0

/-! ### Views -/

/-- A word from bits. -/
def bitWord (n : Nat) (p : Nat → Bool) : Nat := (List.range n).foldl (fun a i => a + ofBool (p i) * 2 ^ i) 0

/-- Table 7-10: STATE of a core. -/
def Core.stateCode (c : Core) : Nat :=
  match c.run with
  | .stopped => 0
  | .running => if c.tmode then 1 else 2
  | .wfe => 3
  | .wft => 4
  | .lockWait => 5
  | .halted => 6

/-- R305: a gang is DONE. -/
def State.gangDone (s : State) (g : Nat) : Bool :=
  (s.gangChannels g).all (fun n => !s.bayEn n || !(s.queued n || (s.bayCh n).st == 1 || (s.bayCh n).st == 3))

/-- R316: a channel has an event. -/
def State.bayHasEvent (s : State) (n : Nat) : Bool := (List.range 8).any (fun i => s.flag (kBayCh n 0x14 i))

/-- The words of an error record (Table 16-1). -/
def ErrRec.bytes (r : ErrRec) : List Byte :=
  [BitVec.ofNat 8 (r.cls + ofBool r.coal * 4 + ofBool r.handled * 8), BitVec.ofNat 8 r.source, BitVec.ofNat 8 r.tenant,
    BitVec.ofNat 8 r.count] ++ leBytes r.code 2 ++ leBytes r.seq 2 ++ leBytes r.address 4 ++ leBytes r.frame 4 ++
    leBytes r.stamp 4 ++ leBytes r.offset 4 ++ [BitVec.ofNat 8 r.segment] ++
    (List.range 7).map (fun i => BitVec.ofNat 8 (r.detail.getD i 0))

def ErrRec.word (r : ErrRec) (w : Nat) : Nat := leAt r.bytes (4 * w) 4

/-- R125: whether CC interrupt source n is pending. -/
def State.irqPending (s : State) (n : Nat) : Bool :=
  match n with
  | 0 => (s.reg kHalStat &&& s.reg kHalEn) != 0
  | 2 => s.err.active
  | 3 => s.reg (fk 0x40015308 0) != 0 || s.reg (fk 0x4001530C 0) != 0
  | 9 => (List.range 5).any (fun i => s.flag (kProbeEvent i))
  | 10 => (List.range 7).any (fun i => s.flag (kSpineEvent i))
  | 11 => (List.range 128).any s.bayHasEvent || s.flag (fk 0x40028060 0)
  | 12 => (List.range 2).any (fun p => !(Tab.get (fun _ => []) s.serv.cons p).isEmpty)
  | 13 => !s.serv.dgrams.isEmpty
  | 14 => (s.serv.gpioEvent &&& (s.reg (fk 0x40012018 0) + s.reg (fk 0x4001201C 0) * 2 ^ 32)) != 0
  | 15 => (List.range 4).any (fun i => s.flag (kClkEvent i))
  | 16 => s.flag (fk 0x40017020 0)
  | _ => bit s.irqEdge n

/-- CC_IRQ_PEND: pending and enabled. -/
def State.irqShown (s : State) : Nat := bitWord 17 (fun n => s.irqPending n && bit (s.reg (fk 0x40019024 0)) n)

/-- R61: what leaves Reef 1 stands: an enabled halyard event, an interrupt enabled at the CC, a core that no longer waits, or a bus
request. A frame tick leaves it at its latch edge, and an event or a transfer that comes in Reef 1 leaves it in its own step. -/
def State.reef1Due (s : State) : Bool :=
  (s.reg kHalStat &&& s.reg kHalEn) != 0 || s.irqShown != 0 || s.busWanted ||
    (List.range 5).any (fun c => s.isUp (6 + c) && !(s.core c).quiet)

/-- R61: the clocks resume and the level returns to SAIL. -/
def execReef1Exit (s : State) : Out := .next (if s.reef1Due then s.reef1Leave else s)

/-- The fields that view other state: the value at an offset of a block and a low bit, where it is not held in the register
itself. -/
def State.derived (s : State) (b o lo : Nat) : Option Nat :=
  match b, o with
  | 0x00, 0x030 => some (bitWord 32 s.isUp)
  | 0x00, 0x034 => some (bitWord 32 (fun i => s.isUp (32 + i)))
  | 0x00, 0x038 => some (bitWord 8 (fun i => s.isUp (64 + i)))
  | 0x00, 0xFF0 => some (0xEB64A110 + ofBool Config.extendedGrade)
  | 0x00, 0xFF4 => some (Config.serial.toNat % 2 ^ 32)
  | 0x00, 0xFF8 => some (Config.serial.toNat / 2 ^ 32)
  | 0x04, 0x01C => if lo = 0 then some (ofBool s.anchored) else if lo = 1 then some (s.reg kTickSirc) else none
  | 0x04, 0x508 => some ((List.range 4).foldl (fun a c => a + ((s.core (c + 1)).slot.getD 255) * 256 ^ c) 0)
  | 0x06, 0x010 =>
    if lo = 0 then some (s.lock.waits.filter (fun w => w.result.isNone)).length
    else if lo = 8 then some ((List.range 64).filter (fun n => (s.wfeMask n).isSome)).length
    else some (ofBool !s.waitCycle.isEmpty)
  | 0x08, 0x010 =>
    if lo = 0 then some s.cat.wb.length
    else if lo = 6 then some (ofBool (s.cat.wb.any (·.started) || s.cat.mapDue.any (·.retires)))
    else some (bitWord 16 (fun k => s.cat.wb.any (fun e => catDom e.off == 28 + k)))
  | 0x08, 0x014 => if lo = 2 then some ((List.range 8).filter (fun i => (s.mapFail i).isSome)).length else none
  | 0x09, 0x010 => if lo = 0 then some s.norOp.state else if lo = 8 then some (ofBool s.norHand) else some (ofBool s.boot.recLocked)
  | 0x0A, 0x040 => if lo = 2 then some (ofBool s.headActive) else none
  | 0x0B, 0x040 =>
    if lo = 0 then some s.spine.reports.length
    else if lo = 8 then some (bitWord 8 (fun q => !s.spine.reports.any (fun r => r.buf == q)))
    else some (min s.ticketsPending 255)
  | 0x0E, 0x000 => if lo = 0 then some (bitWord 5 (fun p => (s.place p).busy)) else some (ofBool s.ringsPending)
  | 0x1B, 0x010 => some (s.scrubPos / 8)
  | 0x0F, 0x000 =>
    if lo = 1 then some (bitWord 6 (fun p => (s.job p).busy))
    else if lo = 16 then some (bitWord 16 s.slotUsed) else none
  | 0x10, 0x010 => some (ofBool s.adc.refOk)
  | 0x12, 0x108 => if lo = 0 then some (ofBool s.serv.pg) else some (ofBool s.serv.alert)
  | 0x14, 0x004 =>
    some (match lo with
      | 0 => s.err.count
      | 8 => s.err.head
      | 16 => s.err.slotAt s.err.handled
      | 24 => ofBool s.err.active
      | 25 => ofBool (decide (s.err.handled < s.err.count))
      | _ => ofBool s.err.fatal.isSome)
  | 0x14, 0x008 => some s.err.lost
  | 0x14, 0x010 => some s.err.popped
  | 0x14, 0x014 => some s.err.stamp
  | 0x14, 0xE20 => if lo = 0 then some s.err.fatalResets else some (ofBool s.err.keepValid)
  | 0x16, 0x000 => if lo = 0 then some (ofBool s.crypt.op.isSome) else some (ofBool s.kekValid)
  | 0x16, 0x010 => some (bitWord 32 (fun t => (Tab.get (fun _ => none) s.crypt.keys t).isSome))
  | 0x16, 0x014 => some (bitWord 32 (fun t => (Tab.get (fun _ => none) s.crypt.keys (32 + t)).isSome))
  | 0x17, 0x8044 =>
    some (match lo with
      | 0 => bitWord 8 (fun g => (s.gangChannels g).any s.queued)
      | 8 => bitWord 8 (fun g => (s.gangChannels g).any (fun n => (s.bayCh n).st == 1))
      | 16 => bitWord 8 s.gangDone
      | _ => s.ramping)
  | 0x19, 0x28 => some s.irqShown
  | _, _ => none

/-- The same for the registers that repeat per instance. -/
def State.derivedRep (s : State) (b o lo : Nat) : Option Nat :=
  match b with
  | 0x04 =>
    if 0x100 ≤ o ∧ o < 0x500 ∧ o % 0x10 = 8 then
      let n := (o - 0x100) / 0x10
      some (match lo with
        | 0 => (s.slot n).state
        | 4 => s.effPrio n
        | 8 => (s.coreOf n).getD 0
        | _ => (s.slot n).cycleLast / 2)
    else none
  | 0x05 =>
    if o < 0x280 ∧ o % 0x20 = 0x10 then
      let a := s.arb (o / 0x20)
      some (match lo with
        | 0 => ofBool (s.arbFrozen (o / 0x20))
        | 1 => ofBool a.burst.isNone
        | 4 => a.burst.elim 15 (·.1)
        | _ => bitWord 11 (fun k => a.standing.any (fun r => r.k == k)))
    else none
  | 0x0E =>
    if 0x100 ≤ o ∧ o < 0x240 ∧ (o - 0x100) % 0x40 = 0x30 then
      let p := s.place ((o - 0x100) / 0x40)
      if lo = 0 then some (ofBool p.busy) else some (if p.busy then p.tag else 0)
    else none
  | 0x10 =>
    if 0x020 ≤ o ∧ o < 0x060 ∧ o % 0x10 = 4 then
      let c := (o - 0x20) / 0x10
      some (match lo with
        | 0 => (s.conv c).entry
        | 16 => ofBool (s.convRunning c)
        | 17 => ofBool (s.conv c).waiting
        | _ => (s.adc.fifo.filter (fun f => f.1 == c)).length)
    else none
  | 0x14 =>
    if 0x040 ≤ o ∧ o < 0x060 then
      some (if s.err.handled < s.err.count then (s.err.recAt s.err.handled).word ((o - 0x40) / 4) else 0)
    else if 0x400 ≤ o ∧ o < 0x800 then some ((s.err.recIn ((o - 0x400) / 32)).word ((o - 0x400) % 32 / 4))
    else if 0xE00 ≤ o ∧ o < 0xE20 then some (s.err.keep.elim 0 (fun r => r.word ((o - 0xE00) / 4)))
    else none
  | 0x15 =>
    if 0x200 ≤ o ∧ o < 0x300 then
      let t := (o - 0x200) / 4
      some (match lo with
        | 0 => s.tenState t
        | 2 => ofBool (s.keyLoaded t)
        | _ => (s.slotsOf t).length)
    else if 0x400 ≤ o ∧ o < 0x510 then some (leAt s.ten.rpt (o - 0x400) 4)
    else none
  | 0x16 => if 0x400 ≤ o ∧ o < 0x600 then some (leAt s.crypt.buf (o - 0x400) 4) else none
  | 0x17 =>
    if o < 0x8000 ∧ o % 0x100 = 0x10 then
      let n := o / 0x100
      let c := s.bayCh n
      some (match lo with
        | 0 => c.st
        | 3 => ofBool (s.queued n)
        | 4 => ofBool (s.bayRunning n)
        | 8 => c.retriesLeft
        | 12 => ofBool (s.prsActive n)
        | 13 => ofBool (s.fltActive n)
        | 14 => ofBool c.prs.masked.isSome
        | 15 => ofBool c.flt.masked.isSome
        | _ => c.trips)
    else if 0x8050 ≤ o ∧ o < 0x8060 then some (bitWord 32 (fun i => s.bayHasEvent (32 * ((o - 0x8050) / 4) + i)))
    else none
  | 0x18 =>
    if o < 0x8000 then
      let n := o / 0x100
      match o % 0x100 with
      | 0x0C => some (s.port n).head
      | 0x18 => some (match lo with
          | 0 => (s.port n).rx.length
          | 8 => (s.port n).tx.length
          | 16 => ofBool (s.portRunning n)
          | _ => ofBool (s.rxAdmitted n))
      | _ => none
    else none
  | 0x19 | 0x1A =>
    if o % 0x100 = 0 then
      let c := if b = 0x19 then 0 else o / 0x100 + 1
      some (match lo with
        | 0 => (s.core c).stateCode
        | 8 => (s.core c).slot.elim 0 s.slotTenant
        | _ => ofBool (s.core c).inTrap)
    else none
  | _ => none

/-- R4, R21: what a read of a field returns. -/
def State.fieldView (s : State) (b o : Nat) (f : Fld) : Nat :=
  let k := fk (blockBase b + o) f.lo
  match f.ty with
  | .wo => 0
  | .rw =>
    match f.cls with
    | .frame => if s.flag (kView b) then s.reg k else (s.pendingVal k).getD (s.reg k)
    | _ => ((s.derived b o f.lo).orElse (fun _ => s.derivedRep b o f.lo)).getD (s.reg k)
  | _ => ((s.derived b o f.lo).orElse (fun _ => s.derivedRep b o f.lo)).getD (s.reg k)

/-- A ring's status word. -/
def Ring.stat (r : Ring) (nextAt lostAt : Nat) : Nat := r.valid + r.next * 2 ^ nextAt + r.lost * 2 ^ lostAt

/-- R35, R36: a word of the common area; `none` outside it. -/
def State.commonWord (s : State) (b a : Nat) : Option Nat :=
  let c := commonBase b
  if a = c then some (ofBool (s.pendingIn b) + ofBool (s.runningStat b) * 2 + ofBool (s.xsync b) * 4)
  else if a = c + 4 then some (s.reg (kView b))
  else if a = c + 8 then some ((s.ring b).stat 4 8)
  else if c + 0x10 ≤ a ∧ a < c + 0x30 then some (Tab.get (fun _ => 0) (s.ring b).slots ((a - c - 0x10) / 4))
  else if a = 0x40000DF8 then some (s.gring.stat 8 16)
  else if 0x40000E00 ≤ a ∧ a < 0x40000F00 then some (Tab.get (fun _ => 0) s.gring.slots ((a - 0x40000E00) / 4))
  else none

/-- The word that a read of a register returns, without what the read does. -/
def State.wordView (s : State) (a : Nat) : Nat :=
  match blockOf a with
  | none => 0
  | some b =>
    match s.commonWord b a with
    | some w => w
    | none =>
      let o := a - blockBase b
      ((regDef b o).getD []).foldl (fun w f => w + bits (s.fieldView b o f) 0 f.w * 2 ^ f.lo) 0

end Sys2Proof.Machine
end

