-- ==== Sys2Proof/Machine/Bus.lean ====
section
/-! DEFINITION. The register bus: what a write of a register does (R18–R36): the checks of each field, the clamp report, latch
classes, the crossing into XT1, and the action of each register; and what a read does. -/
namespace Sys2Proof.Machine

/-! ### Ranges that depend on another field (R28) -/

/-- The value a coupled bound is computed from: what this write has just given the field, else the value last written. -/
def State.boundVal (s : State) (ws : List (Key × Nat)) (k : Key) : Nat := ((ws.find? (fun w => w.1 == k)).map (·.2)).getD (s.last k)

/-- The legal range of a field whose bound depends on another. -/
def State.depRange (s : State) (ws : List (Key × Nat)) (b o lo v : Nat) : Rng :=
  let get := fun (oo l : Nat) => s.boundVal ws (fk (blockBase b + oo) l)
  match b, o, lo with
  | 0x01, 0x014, 0 => .rg 220 (min 250 (get 0x014 10 - 40))
  | 0x01, 0x014, 10 => .rg (max 260 (get 0x014 0 + 40)) (min 340 (get 0x014 20 - 20))
  | 0x01, 0x014, 20 => .rg (max 300 (get 0x014 10 + 20)) 520
  | 0x01, 0x01C, _ => .rg 0 (get 0x020 0)
  | 0x01, 0x020, _ => .rg (get 0x01C 0) (get 0x024 0)
  | 0x01, 0x024, _ => .rg (get 0x020 0) (get 0x028 0)
  | 0x01, 0x028, _ => .rg (get 0x024 0) (get 0x02C 0)
  | 0x01, 0x02C, _ => .rg (get 0x028 0) 16777215
  | 0x02, 0x000, _ => if 3 ≤ v then .enumOf [0, 1, 2] else .rg 0 (if s.vstbyOk then 2 else 1)
  | 0x02, 0x00C, 0 => .rg 16 (min 64 (8 * get 0x00C 8))
  | 0x02, 0x00C, 8 => .rg (max 2 ((get 0x00C 0 + 7) / 8)) 15
  | 0x03, 0x008, 16 => .rg 1 (monthLen (get 0x008 0) (get 0x008 8))
  | 0x04, 0x004, _ => if s.flag kSpineEn then .rg 32 32 else .rg 8 512
  | 0x08, _, _ =>
    let base := get (o / 8 * 8) 16
    let n := get (o / 8 * 8) 0
    if o % 8 = 0 && lo = 0 then
      .zeroOr 6 (((List.range 21).filter (fun m => decide (6 ≤ m ∧ base * 65536 + 64 * 2 ^ m ≤ catTop))).getLastD 6)
    else if o % 8 = 0 then .rg 0 (min 1007 ((catTop - (if n = 0 then 0 else 64 * 2 ^ n)) / 65536))
    else if lo = 0 then .rg 0 (1008 - get o 16)
    else .rg 0 (1008 - get o 0)
  | 0x0A, 0x000, _ =>
    let k := fk 0x40004004 0
    if s.reg k = 32 && s.last k = 32 then .rg 0 1 else .clear
  | 0x0B, 0x00C, _ => .rg 0 (2 ^ get 0x00C 24 - 1)
  | 0x10, _, 6 => .rg (0x10000000 / 64) (min (0x107FFFC0 / 64) ((0x10800000 - 4 * 2 ^ get (o + 4) 0) / 64))
  | 0x10, _, 0 => .rg 4 (((List.range 15).filter (fun l => decide (4 ≤ l ∧ get (o - 4) 6 * 64 + 4 * 2 ^ l ≤ 0x10800000))).getLastD 4)
  | 0x1B, _, _ => .rg (get 0x004 0 + 1) 1024
  | _, _, _ => .any

/-! ### Field checks (R25, Table 2-1) -/

/-- The check of a value against a range: the value written, if any, and the action code reported, if any. -/
def Rng.check (r : Rng) (v : Nat) : Option Nat × Option Nat :=
  match r with
  | .any | .dep => (some v, none)
  | .clear => (some 0, if v = 0 then none else some 0)
  | .enumOf l => if l.contains v then (some v, none) else (none, some 2)
  | .rg lo hi => if v < lo then (some lo, some 0) else if hi < v then (some hi, some 1) else (some v, none)
  | .zeroOr lo hi => if v = 0 then (some 0, none) else if v < lo then (some lo, some 0) else if hi < v then (some hi, some 1)
      else (some v, none)

/-- Table 2-1 for one field of a write: RO is ignored; a W1C field takes its ones; a STOPPED field of a running block refuses. -/
def State.checkField (s : State) (ws : List (Key × Nat)) (b o : Nat) (f : Fld) (v : Nat) : Option Nat × Option Nat :=
  match f.ty with
  | .ro => (none, none)
  | .w1c => (some v, none)
  | _ =>
    if f.cls == .stopped && s.running b o then (none, some 3)
    else match f.rng with
      | .dep => (s.depRange ws b o f.lo v).check v
      | r => r.check v

/-- The outcome of a register write: field values and report entries, in ascending bit order (R27). -/
structure Checked where
  ws : List (Key × Nat) := []
  entries : List Nat := []
  deriving DecidableEq, Repr

/-- R29, R30: the FIELD of an entry for a field or, without a number, for its block. -/
def entryField (b : Nat) (f : Fld) : Nat := (fieldId b f).getD (b * 1024 + 0x3FF)

/-- One field joins the outcome: the value it takes and the action reported, of the value asked for. -/
def Checked.add (c : Checked) (b o : Nat) (f : Fld) (v : Nat) (r : Option Nat × Option Nat) : Checked where
  ws := c.ws ++ (r.1.elim [] (fun x => [(fk (blockBase b + o) f.lo, x)]))
  entries := c.entries ++ (r.2.elim [] (fun a => [rptEntry (entryField b f) a v]))

/-- One field is checked and joins the outcome. -/
def State.checkInto (s : State) (b o : Nat) (c : Checked) (f : Fld) (v : Nat) : Checked :=
  c.add b o f v (s.checkField c.ws b o f v)

/-- The bits of a field as a mask. -/
def Fld.mask (f : Fld) : Nat := (2 ^ f.w - 1) * 2 ^ f.lo

/-- R26, R30: the action-4 entry of a write that sets a reserved bit. -/
def reservedEntry (b : Nat) (fl : List Fld) (v : Nat) : Option Nat :=
  match (List.range 32).find? (fun i => bit v i && !fl.any (fun f => decide (f.lo ≤ i ∧ i < f.lo + f.w))) with
  | none => none
  | some i =>
    let nos := fl.filterMap (fieldId b)
    match nos with
    | [] => some (rptEntry (b * 1024 + 0x3FF) 4 (i + 32))
    | n :: t => some (rptEntry (t.foldl min n) 4 i)

/-- R28: the registers that hold two coupled fields of which only the later one is bounded by the earlier: every write of one
carries both (RTC's staged date, SCRUB_RANGE, PROBE_PAIR). -/
def pairedReg (b o : Nat) : Bool :=
  (b == 0x03 && o == 0x008) || (b == 0x0B && o == 0x00C) || (b == 0x1B && o == 0x004)

/-- The value an RW field holds for a write of some of its bytes: the value last written, or the buffer's word (R209). -/
def State.held (s : State) (b o : Nat) (f : Fld) : Nat :=
  if b = 0x16 && decide (0x400 ≤ o) then leAt s.crypt.buf (o - 0x400) 4 else s.last (fk (blockBase b + o) f.lo)

/-- R25–R27: the checks of a word write; `mask` has the bits that are written (log entry 12). A partly written RW field keeps its
other bits. A coupled field of a register that carries both is checked at every write of it, with its own value where the write
does not bring it (R28). -/
def State.checkWord (s : State) (b o v mask : Nat) : Checked :=
  let fl := (regDef b o).getD []
  let c := fl.foldl (fun c f =>
    if f.mask &&& mask = 0 && !(f.rng == .dep && pairedReg b o) then c else
    let old := match f.ty with
      | .rw => s.held b o f * 2 ^ f.lo
      | _ => 0
    s.checkInto b o c f (bits ((v &&& mask) + (old - (old &&& mask))) f.lo f.w)) ({} : Checked)
  { c with entries := c.entries ++ (reservedEntry b fl (v &&& mask)).toList }

/-! ### What registers do (the owning chapters) -/

/-- The value a write brings to the field at a low bit, if it brings one. -/
def wroteAt (ws : List (Key × Nat)) (lo : Nat) : Option Nat := (ws.find? (fun w => keyLo w.1 == lo)).map (·.2)

/-- A 1 has been written to the bit at `lo`. -/
def wrote1 (ws : List (Key × Nat)) (lo : Nat) : Bool := wroteAt ws lo == some 1

/-- Zero the counters at some keys. -/
def State.zero (s : State) (ks : List Key) : State := ks.foldl (fun s k => s.setReg k 0) s

def State.pmuAct (s : State) (o : Nat) (ws : List (Key × Nat)) : State :=
  match o with
  | 0x010 => (wroteAt ws 0).elim s s.reefReq
  | 0x048 => (wroteAt ws 0).elim s (fun v => { s with pmu := { s.pmu with wakeEv := s.pmu.wakeEv - (s.pmu.wakeEv &&& v) } })
  | 0x064 => if wrote1 ws 31 then
      { s with boot := { s.boot with warmDue := some (s.boot.warmDue.getD (2, (wroteAt ws 0).getD 0)) } } else s
  | _ => s

def State.harvAct (s0 s : State) (o : Nat) (ws : List (Key × Nat)) : State :=
  if o = 0 then [false, true].foldl (fun s b => (wroteAt ws (ofBool b)).elim s (fun v =>
    s.harvEn b (s0.flag (fk 0x40001000 (ofBool b))) (v == 1))) s
  else s

/-- R104, R105: LOAD is bit 0 of RTC_CTRL, CAPTURE bit 1; a write of both acts in bit order, so the snapshot holds the loaded time. -/
def State.rtcAct (s : State) (o : Nat) (ws : List (Key × Nat)) : State :=
  if o = 0 then
    let s1 : State := if wrote1 ws 0 then s.rtcLoad else s
    if wrote1 ws 1 then s1.rtcCapture else s1
  else s

def State.wakeAct (s : State) (o : Nat) (ws : List (Key × Nat)) : State := if o < 0x40 && !ws.isEmpty then s.pinReset (o / 4) else s

def State.clkAct (s : State) (o : Nat) (ws : List (Key × Nat)) : State := if o = 0x020 && wrote1 ws 31 then s.fmStart else s

def State.frameAct (s : State) (o : Nat) (ws : List (Key × Nat)) : State :=
  if o = 0 && wroteAt ws 0 == some 0 then s.unanchor s
  else if o = 0x504 && wrote1 ws 0 then
    s.zero ((List.range 64).flatMap (fun n => [fk (0x4000410C + 0x10 * n) 0, fk (0x4000410C + 0x10 * n) 16]))
  else s

def State.arbAct (s : State) (o : Nat) (ws : List (Key × Nat)) : State :=
  if o = 0x300 && wrote1 ws 0 then s.zero ((List.range 20).flatMap (fun i => [kArb i 0x14 0, kArb i 0x14 16])) else s

def State.lockAct (s : State) (o : Nat) (ws : List (Key × Nat)) : State :=
  if o = 0x020 && wrote1 ws 0 then s.zero [fk 0x40006014 0, fk 0x40006014 16, fk 0x4000601C 0] else s

def State.memctlAct (s : State) (o : Nat) (ws : List (Key × Nat)) : State :=
  if o = 0x084 && wrote1 ws 0 then
    s.zero ((List.range 17).flatMap (fun n => [fk (0x40007040 + 4 * n) 0, fk (0x40007040 + 4 * n) 16])) else s

def State.catAct (s : State) (o : Nat) (ws : List (Key × Nat)) : State :=
  if o = 0x028 && wrote1 ws 0 then s.zero [kCatPoisons, kCatCorr, kCatUncorr, kCatRefused] else s

def State.norAct (s : State) (o : Nat) (ws : List (Key × Nat)) : State :=
  if o = 0x008 then (wroteAt ws 0).elim s (fun op => s.norStart op (wrote1 ws 8))
  else if o = 0x01C && wrote1 ws 0 then { s with boot := { s.boot with recLocked := true } }
  else s

def State.spineAct (s : State) (o : Nat) (ws : List (Key × Nat)) : State :=
  if o = 0 then
    let s1 : State := if wroteAt ws 0 == some 0 then s.setFlag (kSpineStat 0) false else s
    if (wroteAt ws 1).isSome then { s1 with spine := { s1.spine with headStop := false, headBase := 0, headRun := false } } else s1
  else if o = 0x078 && wrote1 ws 0 then
    s.zero [fk 0x4000A070 0, fk 0x4000A070 16, fk 0x4000A074 0, fk 0x4000A074 16]
  else s

def State.probeAct (s : State) (o : Nat) (ws : List (Key × Nat)) : State :=
  match o with
  | 0x004 =>
    let s1 : State := if wrote1 ws 8 then s.setFlag kWakeSeq true else s
    if wrote1 ws 9 then s1.setFlag kSleepSeq true else s1
  | 0x010 => (wroteAt ws 0).elim s s.rptPost
  | 0x014 => if wrote1 ws 0 then s.chunkDrop else s
  | 0x058 => if wrote1 ws 0 then
      s.zero [fk 0x4000B050 0, fk 0x4000B050 16, fk 0x4000B054 0, fk 0x4000B054 16] else s
  | _ => s

def State.dmaAct (s : State) (core o : Nat) (ws : List (Key × Nat)) : State :=
  if o = 0x008 && wrote1 ws 0 then s.zero [fk 0x4000E004 0, fk 0x4000E004 16]
  else if 0x100 ≤ o ∧ o < 0x240 ∧ (o - 0x100) % 0x40 = 0x20 ∧ wrote1 ws 0 then s.dmaGo core ((o - 0x100) / 0x40)
  else s

def State.sfuAct (s : State) (o : Nat) (ws : List (Key × Nat)) : State :=
  if o = 0x010 && wrote1 ws 0 then s.zero [fk 0x4000F004 0, fk 0x4000F004 16, fk 0x4000F008 0] else s

/-- R322: the staged DELAY of an entry. -/
def State.stagedDelay (s : State) (c e : Nat) : Option Nat :=
  (s.adc.staged.find? (fun x => x.1 == 64 * c + e)).map (·.2)

/-- R322, R324: word 1 only stages, word 0 commits the staged DELAY with itself; EN starts and stops. -/
def State.adcAct (s0 s : State) (o : Nat) (ws : List (Key × Nat)) : State :=
  if o = 0x014 && wrote1 ws 0 then s.zero ((List.range 4).map (fun c => fk (0x40010028 + 0x10 * c) 0))
  else if 0x020 ≤ o ∧ o < 0x060 ∧ o % 0x10 = 0 then
    (wroteAt ws 0).elim s (fun v => s.convEnable ((o - 0x20) / 0x10) (v == 1))
  else if 0x400 ≤ o ∧ o < 0xC00 then
    let c := (o - 0x400) / 0x200
    let e := (o - 0x400) % 0x200 / 8
    let k := fk (seqAddr c e + 4) 0
    if o % 8 = 4 then
      let s1 : State := s.setReg k (s0.reg k)
      (wroteAt ws 0).elim s1 (fun v => { s1 with adc := { s1.adc with
        staged := Tab.insert s1.adc.staged (64 * c + e) v } })
    else if o % 8 = 0 then (s.stagedDelay c e).elim s (fun v => s.setReg k v)
    else s
  else s

def State.xramAct (s : State) (o : Nat) (ws : List (Key × Nat)) : State :=
  if o = 0x008 && wrote1 ws 0 then s.zero [fk 0x40018000 0] else s

/-- R398, R397: PSU_EN drives its ball. R397: the LED word is written by LED_SHIFT. -/
def State.gpioAct (s : State) (o : Nat) (ws : List (Key × Nat)) : State :=
  if o = 0x100 then (wroteAt ws 0).elim s (fun v => { s with serv := { s.serv with psuBall := v == 1 } }) else s

/-- The frames of a console buffer that an END has closed. -/
def closedPart (l : List Nat) : List Nat := ((l.reverse.dropWhile (· != 0xC0))).reverse

/-- R274: EN of a console port goes to 1: its receiver starts, so that the frame in progress begins anew; or to 0. -/
def State.consAct (s0 s : State) (o : Nat) : State :=
  let p := o / 0x40
  let k := fk (0x40013000 + 0x40 * p) 0
  if o % 0x40 ≠ 0 || s0.reg k == s.reg k then s
  else if s.flag k then { s with serv := { s.serv with
    consRx := setBit s.serv.consRx p true
    cons := Tab.set (fun _ => []) s.serv.cons p (closedPart (Tab.get (fun _ => []) s.serv.cons p)) } }
  else { s with serv := { s.serv with consRx := setBit s.serv.consRx p false } }

/-- R359, R360, R362: ERR_DONE and ERR_POP. A DEVICE_FATAL record that is done starts its reset. -/
def State.errDone (s : State) : State :=
  let e := s.err
  if e.count ≤ e.handled then s else
  let r := e.recAt e.handled
  let due := r.cls == 3 && e.fatal.elim false (fun f => f.1 == r.stamp)
  let e1 : Err := { (e.setAt e.handled { r with handled := true }) with handled := e.handled + 1, active := false }
  let e2 : Err := if s.flag (fk 0x40014000 1) then { e1.pop 1 with popped := e1.popped } else e1
  let s1 : State := { s with err := e2 }
  if due then { s1 with boot := { s1.boot with warmDue := some (s1.boot.warmDue.getD (3, 0)) } } else s1.errKick

def State.errAct (s : State) (o : Nat) (ws : List (Key × Nat)) : State :=
  match o with
  | 0x000 => s.errKick
  | 0x00C => if wrote1 ws 0 then s.errDone else s
  | 0x010 => (wroteAt ws 0).elim s (fun n => { s.setReg (fk 0x40014010 0) 0 with err := s.err.pop n })
  | 0xE20 => if wrote1 ws 8 then { s with err := { s.err with keepValid := false } } else s
  | _ => s

/-- R164: TEN_RESET with GO = 1. -/
def State.tenGo (s : State) (t cause : Nat) : State :=
  if s.ten.reset.isSome then s.setFlag (fk 0x40015304 16) true else s.settle (s.resetStart t cause)

def State.tenAct (s : State) (o : Nat) (ws : List (Key × Nat)) : State :=
  match o with
  | 0x300 => if wrote1 ws 31 then s.tenGo ((wroteAt ws 0).getD 0) 0 else s
  | 0x310 => (wroteAt ws 0).elim s s.postEvent
  | _ => s

def State.cryptAct (s : State) (o : Nat) (ws : List (Key × Nat)) : State :=
  if o = 0x004 then (wroteAt ws 0).elim s (fun op => s.cryptCmd op ((wroteAt ws 8).getD 0) ((wroteAt ws 16).getD 0))
  else if 0x020 ≤ o ∧ o < 0x040 then (wroteAt ws 0).elim s (fun v => s.kekWrite ((o - 0x20) / 4) v)
  else if o = 0x044 && wrote1 ws 0 then s.zero [fk 0x40016040 0, fk 0x40016040 16]
  else if 0x400 ≤ o ∧ o < 0x600 then (wroteAt ws 0).elim s (fun v => (s.setReg (fk (0x40016000 + o) 0) 0).bufWrite (o - 0x400) v)
  else s

/-- R295, R303, R306: a channel's commands and EN, the gangs' commands. -/
def State.bayAct (s : State) (o : Nat) (ws : List (Key × Nat)) : State :=
  if o < 0x8000 then
    let n := o / 0x100
    let s1 : State := { s with bay := { s.bay with lastBay := n } }
    match o % 0x100 with
    | 0x00 => if wroteAt ws 0 == some 0 then s1.bayDisable n else s1
    | 0x08 =>
      let s2 : State := if wrote1 ws 0 then s1.setBayCh n { s1.bayCh n with startReq := true } else s1
      let s3 : State := if wrote1 ws 1 then s2.setBayCh n { s2.bayCh n with stopReq := true } else s2
      if wrote1 ws 2 then s3.bayRestart n else s3
    | _ => s1
  else if o = 0x8040 then
    { s with bay := { s.bay with gangStart := s.bay.gangStart ||| (wroteAt ws 0).getD 0,
                                 gangStop := s.bay.gangStop ||| (wroteAt ws 8).getD 0 } }
  else s

def State.bayuAct (s : State) (o : Nat) (ws : List (Key × Nat)) : State :=
  if o < 0x8000 then
    let n := o / 0x100
    let s1 : State := { s with bay := { s.bay with lastBayu := n } }
    match o % 0x100 with
    | 0x00 => (wroteAt ws 0).elim s1 (fun v => s1.portEnable n (v == 1))
    | 0x14 => (wroteAt ws 0).elim s1 (fun v => s1.portTx n v)
    | _ => s1
  else if o = 0x8040 && wrote1 ws 0 then
    s.zero ((List.range 128).flatMap (fun n => [kBayu n 0x1C 0, kBayu n 0x1C 8, kBayu n 0x1C 16, kBayu n 0x1C 24]) ++
      (List.range 8).map (fun g => fk (0x40038010 + 4 * g) 0))
  else s

/-- R141, R125: CNT_CLR of a core, IRQ_ACK of the CC. -/
def State.coreAct (s : State) (base : Nat) (o : Nat) (ws : List (Key × Nat)) : State :=
  if o = 0x20 && wrote1 ws 0 then s.zero [fk (base + 0x08) 0, fk (base + 0x0C) 0, fk (base + 0x10) 0]
  else if o = 0x2C then (wroteAt ws 0).elim s (fun v => { s with irqEdge := s.irqEdge - (s.irqEdge &&& v) })
  else s

/-- The action of a write to a register of a block; `s0` is the state before the fields were set. -/
def State.blockAct (s0 s : State) (core b o : Nat) (ws : List (Key × Nat)) : State :=
  match b with
  | 0x00 => s.pmuAct o ws
  | 0x01 => s0.harvAct s o ws
  | 0x02 => s.clkAct o ws
  | 0x03 => s.rtcAct o ws
  | 0x04 => s.frameAct o ws
  | 0x05 => s.arbAct o ws
  | 0x06 => s.lockAct o ws
  | 0x07 => s.memctlAct o ws
  | 0x08 => s.catAct o ws
  | 0x09 => s.norAct o ws
  | 0x0A => s.spineAct o ws
  | 0x0B => s.probeAct o ws
  | 0x0E => s.dmaAct core o ws
  | 0x0F => s.sfuAct o ws
  | 0x10 => s0.adcAct { s with adc := { s.adc with
      last := if 0x020 ≤ o ∧ o < 0x060 then (o - 0x20) / 0x10 else if 0x400 ≤ o ∧ o < 0xC00 then (o - 0x400) / 0x200 else 4 } } o ws
  | 0x11 => s.wakeAct o ws
  | 0x12 => s.gpioAct o ws
  | 0x13 => s0.consAct s o
  | 0x14 => s.errAct o ws
  | 0x15 => s.tenAct o ws
  | 0x16 => s.cryptAct o ws
  | 0x17 => s.bayAct o ws
  | 0x18 => s.bayuAct o ws
  | 0x19 => s.coreAct 0x40019000 o ws
  | 0x1A => s.coreAct (0x4001A000 + 0x100 * (o / 0x100)) (o % 0x100) ws
  | 0x1C => s.xramAct o ws
  | _ => s

/-! ### Writes taking effect (R19, R20, R34) -/

/-- One checked field value takes effect: a FRAME field goes into its shadow, a W1C field loses its ones, a WO field loads
nothing. -/
def State.applyField (s : State) (w : Key × Nat) : State :=
  match fldOf w.1 with
  | none => s
  | some f =>
    match f.ty with
    | .ro => s
    | .w1c => s.setReg w.1 (s.reg w.1 - (s.reg w.1 &&& w.2))
    | .wo => if f.cls == .frame then s.setShadow w.1 (some w.2) else s
    | .rw => if f.cls == .frame then s.setShadow w.1 (some w.2) else s.setReg w.1 w.2

/-- A write takes effect: its fields, then the register's action. -/
def State.takeWrite (s : State) (core b addr : Nat) (ws : List (Key × Nat)) : State :=
  s.blockAct (ws.foldl State.applyField s) core b (addr - blockBase b) ws

/-- R22: pending shadow values of a block are dropped. With none of CLK's fields held any more, no switch is pending (R84). -/
def State.discard (s : State) (b : Nat) : State :=
  let s1 : State := { s with shadow := Tab.keep (fun k => !inBlock b k) s.shadow }
  if b = 0x02 then s1.setFlag (kClkStat 7) false else s1

/-- R21, R22, Table 2-3: a write of BLOCK_CFG_CTRL takes effect: VIEW, and DISCARD of what has been written before it. -/
def State.ctrlWrite (s : State) (b v : Nat) : State :=
  let s1 : State := s.setReg (kView b) (v % 2)
  if bit v 1 then s1.discard b else s1

/-- R34: the oldest write of a block that is crossing into XT1 takes effect. -/
def State.crossOne (s : State) (b : Nat) : State :=
  match s.crossing.find? (fun c => c.block == b) with
  | none => s
  | some c =>
    let s1 : State := { s with crossing := s.crossing.erase c }
    if c.addr = commonBase b + 4 then s1.ctrlWrite b ((c.writes.head?.map (·.2)).getD 0) else s1.takeWrite 0 b c.addr c.writes

/-- R33, R34: every write of the block that is crossing takes effect. -/
def State.flushXt1 (s : State) (b : Nat) : State := s.crossing.foldl (fun s _ => s.crossOne b) s

/-- R35, R36: a write to the common area; reserved bits are ignored without a report (R26), and an offset at which Table 2-3 has
no register is none of it. In an XT1 block a write of CFG_CTRL crosses behind the writes before it (R33, R34); the rings stand on
the side where the checks are made, so their CLR acts among the checks in the order of issue (log entry 93). `none` outside it. -/
def State.commonWrite (s : State) (b a v : Nat) : Option State :=
  let c := commonBase b
  if a = c + 4 then some (if crossesXt1 b then { s with crossing := s.crossing ++ [{ block := b, addr := a, writes := [(kView b, v)] }] }
    else s.ctrlWrite b v)
  else if a = c + 8 then some (if bit v 31 then s.setRing b {} else s)
  else if a = 0x40000DF8 then some (if bit v 31 then { s with gring := {} } else s)
  else if (c ≤ a ∧ a < c + 0x30 ∧ ¬(c + 0xC ≤ a ∧ a < c + 0x10)) ∨ (0x40000E00 ≤ a ∧ a < 0x40000F00) then some s
  else none

/-- R202: the alias page steers to the issuing core's place. -/
def aliasAddr (core a : Nat) : Nat := if 0x4000E800 ≤ a ∧ a < 0x4000E840 then a - 0x4000E800 + placePage core else a

/-- Report entries in order (R31). -/
def State.reportAll (s : State) (b : Nat) (es : List Nat) : State := es.foldl (fun s e => s.report b e) s

/-- A write of a register word by a core (0 for the CC and Cyntoux); `mask` has the bits that are written. A register whose own
converter, core or bay group is off takes nothing (log entry 19). -/
def State.busWriteMask (s : State) (core addr v mask : Nat) : State :=
  let a := aliasAddr core addr
  match blockOf a with
  | none => s
  | some b =>
    if !(s.addrOn a && s.isUp 5) then s else
    match s.commonWrite b a (v &&& mask) with
    | some s1 => s1
    | none =>
      let c := s.checkWord b (a - blockBase b) v mask
      let s1 : State := s.reportAll b c.entries
      if crossesXt1 b then
        (if c.ws.isEmpty then s1 else { s1 with crossing := s1.crossing ++ [{ block := b, addr := a, writes := c.ws }] })
      else if s.regOn a then s1.takeWrite core b a c.ws
      else s1

/-- A whole-word write. -/
def State.busWrite (s : State) (core addr v : Nat) : State := s.busWriteMask core addr v 0xFFFFFFFF

/-- A read of a register word by a core: it stalls until the block's crossing writes have taken effect (R34); a read of
BAYU_CHn_RX pops (R311); the FCLK cycles of FRAME_POS are not timed here and read as a free value (log entry 13). -/
def State.busRead (s : State) (core addr : Nat) : Nat × State :=
  let a := aliasAddr core addr
  match blockOf a with
  | none => (0, s)
  | some b =>
    let s1 : State := if crossesXt1 b then s.flushXt1 b else s
    if b = 0x18 && decide (a - 0x40030000 < 0x8000) && a % 0x100 = 0x10 then s1.portRx ((a - 0x40030000) / 0x100)
    else if a = 0x40004014 then
      let f := s1.freeBits 13
      (bits (s1.wordView a) 0 16 + f.1 * 65536, f.2)
    else (s1.wordView a, s1)

/-- The command's own register write: the writes of an XT1 block that were crossing take effect with it (log entry 10). -/
def State.regCommand (s : State) (addr v : Nat) : State :=
  let s1 : State := s.busWrite 0 addr v
  match blockOf addr with
  | some b => if crossesXt1 b then s1.flushXt1 b else s1
  | none => s1

end Sys2Proof.Machine
end

