-- ==== Sys2Proof/Machine/Actions.lean ====
section
/-! DEFINITION. The commands that are a write or a read of one register: each is that access on the register bus, and the write
of an XT1 block takes effect with it (R34, log entry 10). Their effects stand in Bus.lean and the owning families. -/
namespace Sys2Proof.Machine

/-- R25: a write of any register. -/
def execRegisterWrite (addr value : Word) (s : State) : Out := .next (s.busWrite 0 addr.toNat value.toNat)

/-- R22. -/
def execDiscard (block : BitVec 6) (s : State) : Out := .next (s.regCommand (commonBase block.toNat + 4) (s.reg (kView block.toNat) % 2 + 2))

/-- R31: the CLR bit of a block's ring, or of the global ring. -/
def execClr (block : Option (BitVec 6)) (s : State) : Out :=
  .next (s.regCommand (block.elim 0x40000DF8 (fun b => commonBase b.toNat + 8)) (2 ^ 31))

/-- R34: the oldest write of a block that is crossing takes effect. -/
def execXsyncComplete (block : BitVec 6) (s : State) : Out := .next (s.crossOne block.toNat)

def execPmuReefReq (value : Word) (s : State) : Out := .next (s.regCommand 0x40000010 value.toNat)
def execWakePinWrite (pin : Fin 16) (value : Word) (s : State) : Out := .next (s.regCommand (0x40011000 + 4 * pin) value.toNat)
def execStart (value : Word) (s : State) : Out := .next (s.regCommand 0x40002020 (setBit value.toNat 31 true))
/-- R104: RTC_CTRL.CAPTURE is bit 1. -/
def execCapture (s : State) : Out := .next (s.regCommand 0x40003000 2)
/-- R105: RTC_CTRL.LOAD is bit 0. -/
def execLoad (s : State) : Out := .next (s.regCommand 0x40003000 1)
def execIrqAck (sources : BitVec 17) (s : State) : Out := .next (s.regCommand 0x4001902C sources.toNat)
def execCntClr (core : Fin 5) (s : State) : Out := .next (s.regCommand (coreBase core + 0x20) 1)

/-- R145: INIT stands in a register with the slot's configuration, which keeps the values last written. -/
def execInit (slot : Fin 64) (s : State) : Out :=
  let a := 0x40004100 + 0x10 * slot.val
  .next (s.regCommand a (s.last (fk a 0) + s.last (fk a 8) * 2 ^ 8 + s.last (fk a 12) * 2 ^ 12 + s.last (fk a 15) * 2 ^ 15 + 2 ^ 16))

def execFrameOvrClr (s : State) : Out := .next (s.regCommand 0x40004504 1)
def execTenResetGo (tenant : Fin 64) (s : State) : Out := .next (s.regCommand 0x40015300 (tenant + 2 ^ 31))
def execTenEventPost (tenant : Fin 64) (s : State) : Out := .next (s.regCommand 0x40015310 tenant)

/-- R202: a core writes GO of a place. -/
def execGo (core : Fin 5) (place : Fin 5) (s : State) : Out := .next (s.busWrite core (placePage place + 0x20) 1)
def execDmaCntClr (s : State) : Out := .next (s.regCommand 0x4000E008 1)

/-! ### CRYPT (R207, R208) -/

def execUnwrap (slot : Fin 64) (s : State) : Out := .next (s.regCommand 0x40016004 (1 + slot * 256))
def execClearKey (slot : Fin 64) (s : State) : Out := .next (s.regCommand 0x40016004 (2 + slot * 256))
def execSha256 (len : Fin 1024) (s : State) : Out := .next (s.regCommand 0x40016004 (3 + len * 65536))
def execVerifyImage (s : State) : Out := .next (s.regCommand 0x40016004 4)
def execVerifyUnlock (s : State) : Out := .next (s.regCommand 0x40016004 5)
def execSignAttest (s : State) : Out := .next (s.regCommand 0x40016004 6)
def execRandom (s : State) : Out := .next (s.regCommand 0x40016004 7)
def execAttestPub (s : State) : Out := .next (s.regCommand 0x40016004 8)
def execKek (word : Fin 8) (value : Word) (s : State) : Out := .next (s.regCommand (0x40016020 + 4 * word) value.toNat)
def execCryptCntClr (s : State) : Out := .next (s.regCommand 0x40016044 1)

/-! ### Counters -/

def execMemctlCntClr (s : State) : Out := .next (s.regCommand 0x40007084 1)
def execCatCntClr (s : State) : Out := .next (s.regCommand 0x40008028 1)
def execXramClr (s : State) : Out := .next (s.regCommand 0x40018008 1)
def execArbCntClr (s : State) : Out := .next (s.regCommand 0x40005300 1)
def execLockCntClr (s : State) : Out := .next (s.regCommand 0x40006020 1)
def execSpineCntClr (s : State) : Out := .next (s.regCommand 0x4000A078 1)
def execProbeCntClr (s : State) : Out := .next (s.regCommand 0x4000B058 1)
def execBayuCntClr (s : State) : Out := .next (s.regCommand 0x40038040 1)
def execAdcCntClr (s : State) : Out := .next (s.regCommand 0x40010014 1)
def execSfuCntClr (s : State) : Out := .next (s.regCommand 0x4000F010 1)

/-! ### PROBE (R256–R258) -/

def execProbeRptPost (buf : Fin 8) (s : State) : Out := .next (s.regCommand 0x4000B010 buf)
def execSetWake (s : State) : Out := .next (s.regCommand 0x4000B004 0x100)
def execSetSleep (s : State) : Out := .next (s.regCommand 0x4000B004 0x200)
def execProbeChunkRel (s : State) : Out := .next (s.regCommand 0x4000B014 1)

/-! ### BAY and BAYU (R295, R303, R306, R310, R311) -/

/-- The address of a bay channel's register. -/
def bayAddr (n o : Nat) : Nat := 0x40020000 + 0x100 * n + o

def execChannelStart (chan : Fin 128) (s : State) : Out := .next (s.regCommand (bayAddr chan 8) 1)
def execChannelStop (chan : Fin 128) (s : State) : Out := .next (s.regCommand (bayAddr chan 8) 2)
def execRestart (chan : Fin 128) (s : State) : Out := .next (s.regCommand (bayAddr chan 8) 4)
def execGangCmdStart (gangs : BitVec 8) (s : State) : Out := .next (s.regCommand 0x40028040 gangs.toNat)
def execGangCmdStop (gangs : BitVec 8) (s : State) : Out := .next (s.regCommand 0x40028040 (gangs.toNat * 256))
def execBayuTx (chan : Fin 128) (data : Byte) (s : State) : Out := .next (s.regCommand (0x40030014 + 0x100 * chan) data.toNat)
def execBayuRx (chan : Fin 128) (s : State) : Out :=
  .next (if s.addrOn (0x40030010 + 0x100 * chan) then (s.busRead 0 (0x40030010 + 0x100 * chan)).2 else s)

/-! ### ADC (R322) -/

def execSeqEntryWrite (conv : Fin 4) (entry : Fin 64) (value : Word) (s : State) : Out :=
  .next (s.regCommand (seqAddr conv entry) value.toNat)

/-! ### ERR (R357, R359, R360) -/

/-- R357: a block raises a record. -/
def execErrRecord (cls : Fin 4) (source : Byte) (tenant : Fin 64) (code : BitVec 16) (seq : BitVec 16) (address : Word)
    (offset : Word) (segment : Fin 8) (detail : List Byte) (s : State) : Out :=
  .next (s.raise { cls := cls, source := source.toNat, tenant := tenant, code := code.toNat, seq := seq.toNat,
                   address := address.toNat, offset := offset.toNat, segment := segment,
                   detail := (detail.take 7).map (·.toNat) })

def execErrDone (s : State) : Out := .next (s.regCommand 0x4001400C 1)
def execErrPopWrite (count : BitVec 6) (s : State) : Out := .next (s.regCommand 0x40014010 count.toNat)

/-- R367: PMU_RESET_CTRL with WARM and its REASON. -/
def execWarm (reason : Byte) (s : State) : Out := .next (s.regCommand 0x40000064 (reason.toNat + 2 ^ 31))

/-! ### NORCTL (R378, R382) -/

def execEraseSector (s : State) : Out := .next (s.regCommand 0x40009008 1)
def execEraseBlock (s : State) : Out := .next (s.regCommand 0x40009008 2)
def execProgram (andProgram : Bool) (s : State) : Out := .next (s.regCommand 0x40009008 (3 + ofBool andProgram * 256))
def execRecLock (s : State) : Out := .next (s.regCommand 0x4000901C 1)

end Sys2Proof.Machine
end

