-- ==== Sys2Proof/Machine/Operands.lean ====
section
/-! DEFINITION. The operand fields of an EKI instruction word (R120, Table 7-4). `x` is the word without its major opcode: bits
[25:0]. -/
namespace Sys2Proof.Machine

/-- [25:22]: rd of formats R, I, M, A and U; ra of format B. -/
def wD (x : Nat) : Nat := bits x 22 4
/-- [21:18]: ra of formats R, I, M and A; rb of format B. -/
def wA (x : Nat) : Nat := bits x 18 4
/-- [17:14]: rb of formats R and A. -/
def wB (x : Nat) : Nat := bits x 14 4
/-- func [13:0] of format R. -/
def wFunc (x : Nat) : Nat := bits x 0 14
/-- imm18 [17:0] of formats I and B. -/
def wImm18 (x : Nat) : Nat := bits x 0 18
/-- imm18, sign-extended. -/
def sImm18 (x : Nat) : Word := sext 18 (wImm18 x)
/-- seg [17:15] and the sign-extended imm15 [14:0] of format M. -/
def wSegM (x : Nat) : Nat := bits x 15 3
def sImm15 (x : Nat) : Word := sext 15 (bits x 0 15)
/-- seg [13:11] and the sign-extended imm11 [10:0] of format A. -/
def wSegA (x : Nat) : Nat := bits x 11 3
def sImm11 (x : Nat) : Word := sext 11 (bits x 0 11)
/-- imm26 of format J, sign-extended. -/
def sImm26 (x : Nat) : Word := sext 26 (bits x 0 26)
/-- imm22 of format U. -/
def wImm22 (x : Nat) : Nat := bits x 0 22
/-- The whole word of an instruction: its major opcode and the rest. -/
def ekiWord (op x : Nat) : Word := BitVec.ofNat 32 (op * 2 ^ 26 + x)

end Sys2Proof.Machine
end

