-- ==== Sys2Proof/Machine/Flags.lean ====
section
/-! DEFINITION. EKI has no flag register (Table 7-1): a comparison is an operand of a branch or a result of SLT. What the
instructions compute from two registers stands here: the comparisons (R122 Branches) and the ALU functions (R122 ALU). -/
namespace Sys2Proof.Machine

/-- R122: the conditions of BEQ, BNE, BLT, BGE, BLTU and BGEU, in the order of their opcodes. -/
inductive Cond where
  | eq | ne | lt | ge | ltu | geu
  deriving DecidableEq, Repr

def Cond.holds (k : Cond) (a b : Word) : Bool :=
  match k with
  | .eq => a == b
  | .ne => a != b
  | .lt => a.slt b
  | .ge => !a.slt b
  | .ltu => a.ult b
  | .geu => !a.ult b

/-- A truth value as a register holds it. -/
def ofCond (b : Bool) : Word := if b then 1#32 else 0#32

/-- R122: shifts use the low 5 bits of the amount. -/
def shl5 (a b : Word) : Word := a <<< (b.toNat % 32)
def shr5 (a b : Word) : Word := a >>> (b.toNat % 32)
def sar5 (a b : Word) : Word := a.sshiftRight (b.toNat % 32)

/-- R122 Division: signed quotient and remainder, rounded towards zero; a divisor of 0 and the overflow are defined. -/
def divS (a b : Word) : Word := if b = 0#32 then 0xFFFFFFFF#32 else BitVec.ofInt 32 (a.toInt.tdiv b.toInt)
def remS (a b : Word) : Word := if b = 0#32 then a else BitVec.ofInt 32 (a.toInt.tmod b.toInt)
def divU (a b : Word) : Word := if b = 0#32 then 0xFFFFFFFF#32 else BitVec.ofNat 32 (a.toNat / b.toNat)
def remU (a b : Word) : Word := if b = 0#32 then a else BitVec.ofNat 32 (a.toNat % b.toNat)

/-- R122 ALU: the function that func[5:0] selects; `none` is reserved. -/
def aluFn (func : Nat) (a b : Word) : Option Word :=
  match func with
  | 0 => some (a + b)
  | 1 => some (a - b)
  | 2 => some (a &&& b)
  | 3 => some (a ||| b)
  | 4 => some (a ^^^ b)
  | 5 => some (shl5 a b)
  | 6 => some (shr5 a b)
  | 7 => some (sar5 a b)
  | 8 => some (ofCond (a.slt b))
  | 9 => some (ofCond (a.ult b))
  | 10 => some (a * b)
  | 11 => some (BitVec.ofInt 32 ((a.toInt * b.toInt).ediv (2 ^ 32)))
  | 12 => some (BitVec.ofNat 32 (a.toNat * b.toNat / 2 ^ 32))
  | 13 => some (divS a b)
  | 14 => some (divU a b)
  | 15 => some (remS a b)
  | 16 => some (remU a b)
  | 17 => some (if a.slt b then a else b)
  | 18 => some (if a.slt b then b else a)
  | 19 => some (if a.ult b then a else b)
  | 20 => some (if a.ult b then b else a)
  | _ => none

end Sys2Proof.Machine
end

