-- ==== Sys2Proof/Machine/EkiMem.lean ====
section
/-! DEFINITION. How an EKI instruction runs and reaches memory: the instruction boundary, the fetch, loads with store-buffer
forwarding, stores, atomics (R115–R118, R123, R127–R135). -/
namespace Sys2Proof.Machine

/-- How an instruction's own work ends: the state after it, a wait with nothing changed, or a trap with CAUSE's code and segment
and TVAL. -/
inductive Ex where
  | fin (s : State)
  | wait
  | trap (code seg tval : Nat) (s : State)
  deriving DecidableEq, Repr

/-- R121: RSVD_OP. -/
def State.rsvd (s : State) : Ex := .trap 3 0 0 s

/-- The instruction is done: the core changes and goes on behind it. -/
def State.fin (s : State) (c : Nat) (f : Core → Core) : Ex :=
  .fin (s.setCore c { f (s.core c) with pc := (s.core c).pc + 4#32 })

/-- A general register of a core. -/
def State.gr (s : State) (c r : Nat) : Word := (s.core c).getG r

/-- The tenant of the context on a core. -/
def State.coreTenant (s : State) (c : Nat) : Nat := s.ctxTenant (s.ctxOf c)

/-! ### Draining -/

/-- R132: a register store by byte lanes; 8 bytes are two words. -/
def State.storeReg (s : State) (c a n v : Nat) : State :=
  if n = 8 then (s.busWrite c a (v % 2 ^ 32)).busWrite c (a + 4) (v / 2 ^ 32)
  else s.busWriteMask c (a / 4 * 4) (v * 2 ^ (8 * (a % 4))) ((2 ^ (8 * n) - 1) * 2 ^ (8 * (a % 4)))

/-- R221: a store to a cleat word by its context; what LOCK refuses is a bus error of a store that has left the buffer. -/
def State.storeCleat (s : State) (c : Nat) (e : SbEnt) : State :=
  let o := e.addr - 0x50000000
  let r := if e.size = 4 then s.cleatStore (o / 16) (o % 16 / 4) e.ctx e.data e.tmode else s.lockErr
  if r.1 = .busErr then r.2.storeErr c e else r.2

/-- R130: one entry drains to its target, `none` when it must wait. -/
def State.drainEntry (s : State) (c : Nat) (e : SbEnt) : Option State :=
  if s.busErrAt { typ := e.typ } e.addr true then some (s.storeErr c e)
  else match regionOf e.addr with
    | .regs => some (s.storeReg c e.addr e.size e.data)
    | .cleat _ => some (s.storeCleat c e)
    | _ => s.drainEnt c e

/-- R130: the oldest entry drains. -/
def State.drainOne (s : State) (c : Nat) : Option State :=
  match (s.core c).sb with
  | [] => none
  | e :: rest => (s.drainEntry c e).map (fun s1 => s1.setCore c { s1.core c with sb := rest })

/-- R130: the oldest store-buffer entry of a core drains. -/
def execStoreDrain (core : Fin 5) (s : State) : Out :=
  .next (if s.isUp (6 + core) then (s.drainOne core).getD s else s)

/-- The first `n` store-buffer entries have drained; `none` when one must wait. -/
def State.drainFirst (s : State) (c : Nat) : Nat → Option State
  | 0 => some s
  | n + 1 => (s.drainOne c).bind (fun s1 => s1.drainFirst c n)

/-- R132–R134: the store buffer is empty; `none` when an entry must wait. -/
def State.drained (s : State) (c : Nat) : Option State := s.drainFirst c (s.core c).sb.length

/-- R133: the entries that a preempted context left behind drain before its successor's first access. -/
def State.drainForeign (s : State) (c : Nat) : Option State :=
  s.drainFirst c ((s.core c).sb.filter (fun e => e.ctx != s.ctxOf c)).length

/-! ### Loads -/

/-- How a load ends. -/
inductive LdRes where
  | data (v : Nat) (s : State)
  | wait
  | fault (code : Nat) (s : State)
  /-- The read stalls at LOCK. -/
  | lock (s : State)
  deriving DecidableEq, Repr

/-- R131: the store-buffer entries that overlap a load, each with its position. -/
def sbOverlap (sb : List SbEnt) (a n : Nat) : List (Nat × SbEnt) :=
  ((List.range sb.length).zip sb).filter (fun e => rangesMeet e.2.addr e.2.size a n)

/-- R135: a load that uses the data cache. -/
def State.cacheable (_ : State) (sg : Seg) (a : Nat) : Bool :=
  sg.typ = 1 && decide (sg.cache < 2) && (match regionOf a with | .spar _ | .rom | .nor => true | _ => false)

/-- `n` bytes of the catalog, in one 64-bit word (R187). -/
def State.loadCat (s : State) (c a n : Nat) : LdRes :=
  let off := a - 0x20000000
  match s.catRead (s.coreReq c) (off / 8 * 8) with
  | (.data bs, s1) => .data (leAt bs (off % 8) n) s1
  | (.poisoned, s1) => .fault 5 s1
  | (.busErr, s1) => .fault 0x0A s1
  | (.wait, _) => .wait

/-- A read of a register, by byte lanes of its word; 8 bytes are two words. -/
def State.loadReg (s : State) (c a n : Nat) : LdRes :=
  let r := s.busRead c (a / 4 * 4)
  if n = 8 then
    let q := r.2.busRead c (a + 4)
    .data (r.1 + q.1 * 2 ^ 32) q.2
  else .data (bits r.1 (8 * (a % 4)) (8 * n)) r.2

/-- R221: a load of a cleat word. -/
def State.loadCleat (s : State) (c a n : Nat) : LdRes :=
  let o := a - 0x50000000
  if n = 4 then
    match s.cleatLoad (o / 16) (o % 16 / 4) (s.ctxOf c) (s.core c).tmode with
    | (.data v, s1) => .data v s1
    | (.busErr, s1) => .fault 0x0A s1
    | (.stall, s1) => .lock s1
  else .fault 0x0A s.lockErr.2

/-- The bytes behind a load that no store-buffer entry covers (R118, R135); a line in the core's eviction buffer is served from
there (R178). -/
def State.loadMem (s : State) (c : Nat) (sg : Seg) (a n : Nat) : LdRes :=
  if s.busErrAt sg a false then .fault 0x0A s
  else if s.cacheable sg a then
    match (s.core c).line (lineOf a), (s.core c).evicted (lineOf a) with
    | some l, _ => .data (leAt l.data (a - l.addr) n) (s.setCore c ((s.core c).putLine l))
    | none, some l => .data (leAt l.data (a - l.addr) n) s
    | none, none =>
      if regionOf a = .nor then
        (if s.norBusy then .wait else
          let r := s.norRead (lineOf a) 32
          .data (leAt r.1 (a % 32) n) (r.2.install c { addr := lineOf a, dirty := false, data := r.1 }))
      else
        let s1 := s.readMiss c (lineOf a)
        .data (((s1.core c).line (lineOf a)).elim 0 (fun l => leAt l.data (a % 32) n)) s1
  else match regionOf a with
    | .cat _ => s.loadCat c a n
    | .regs => s.loadReg c a n
    | .cleat _ => s.loadCleat c a n
    | .table => .data (ofLe (s.tableBytes a n).1) (s.tableBytes a n).2
    | .nor => if s.norBusy then .wait else .data (ofLe (s.norRead a n).1) (s.norRead a n).2
    | _ => .data (ofLe (s.ncRead a n).1) (s.ncRead a n).2

/-- R131, R132: a load whose checks have passed: forwarded from one entry that contains it, or from memory once every overlapping
entry has drained; a DEVICE load and an access to a cleat first wait until the buffer is empty. -/
def State.load (s : State) (c : Nat) (sg : Seg) (a n : Nat) : LdRes :=
  if sg.typ = 2 || (match regionOf a with | .cleat _ => true | _ => false) then
    match s.drained c with
    | none => .wait
    | some s1 => s1.loadMem c sg a n
  else
    match sbOverlap (s.core c).sb a n with
    | [] => s.loadMem c sg a n
    | l =>
      if l.length = 1 && l.all (fun e => decide (e.2.addr ≤ a ∧ a + n ≤ e.2.addr + e.2.size)) then
        .data (l.headD (0, { addr := 0, size := 0, data := 0, segNo := 0, off := 0, typ := 0, cache := 0, tmode := false, ctx := 0 })
            |> fun e => bits e.2.data (8 * (a - e.2.addr)) (8 * n))
          (s.count (fk (coreBase c + 0x10) 0) 16 1)
      else
        match s.drainFirst c ((l.map (·.1)).foldl max 0 + 1) with
        | none => .wait
        | some s1 => (s1.count (fk (coreBase c + 0x0C) 0) 16 1).loadMem c sg a n

/-- `n` doublewords from an address, as one load each, oldest first. -/
def State.loadDwords (s : State) (c : Nat) (sg : Seg) (a : Nat) : Nat → LdRes
  | 0 => .data 0 s
  | n + 1 =>
    match s.load c sg a 8 with
    | .data v s1 =>
      match s1.loadDwords c sg (a + 8) n with
      | .data w s2 => .data (v + w * 2 ^ 64) s2
      | r => r
    | r => r

/-- R115, R117: the segment, offset and first failing check of a data access. -/
def State.dataCheck (s : State) (c seg : Nat) (off : Word) (need n : Nat) (align : Bool) : Seg × Option Nat :=
  let sg := (s.core c).dataSet.getD seg {}
  (sg, checkSeg sg (s.core c).tmode (s.coreTenant c) need off.toNat n align)

/-- A load of `n` bytes at an offset: its checks, its data, and what the core makes of it. A read that stalls at LOCK keeps PC at
the load and names its register (R132). -/
def State.loadOp (s : State) (c seg : Nat) (off : Word) (n rd : Nat) (f : Nat → Core → Core) : Ex :=
  match s.dataCheck c seg off 8 n true with
  | (_, some code) => .trap code seg off.toNat s
  | (sg, none) =>
    match s.load c sg (sg.base + off.toNat) n with
    | .data v s1 => s1.fin c (f v)
    | .wait => .wait
    | .fault code s1 => .trap code seg off.toNat s1
    | .lock s1 => .fin (s1.setCore c { s1.core c with run := .lockWait, waitRd := rd })

/-! ### Stores -/

/-- R130: a store enters the buffer; with four entries in it, the oldest drains first. -/
def State.storeBuf (s : State) (c : Nat) (e : SbEnt) : Option State :=
  let s1 := if (s.core c).sb.length < 4 then some s else s.drainOne c
  s1.map (fun s1 => s1.setCore c { s1.core c with sb := (s1.core c).sb ++ [e] })

/-- A store of `n` bytes at an offset: it enters one entry of the buffer (R130); one to the cleat region waits until the buffer is
empty (R132). -/
def State.storeOp (s : State) (c seg : Nat) (off : Word) (n v : Nat) : Ex :=
  match s.dataCheck c seg off 4 n true with
  | (_, some code) => .trap code seg off.toNat s
  | (sg, none) =>
    let a := sg.base + off.toNat
    let e : SbEnt := { addr := a, size := n, data := v % 2 ^ (8 * n), segNo := seg, off := off.toNat, typ := sg.typ,
                       cache := sg.cache, tmode := (s.core c).tmode, ctx := s.ctxOf c }
    let first := match regionOf a with | .cleat _ => s.drained c | _ => some s
    match first.bind (fun s1 => s1.storeBuf c e) with
    | none => .wait
    | some s1 => s1.fin c id

/-! ### Atomics (R134) -/

/-- An atomic on a word: `f` is the new word, if one is written; `swap` is ACAS's operands, the only atomic LOCK takes (R221). -/
def State.atomicOp (s : State) (c seg : Nat) (off : Word) (rd : Nat) (f : Word → Option Word) (swap : Option (Word × Word)) : Ex :=
  match s.dataCheck c seg off 13 4 true with
  | (_, some code) => .trap code seg off.toNat s
  | (sg, none) =>
    let a := sg.base + off.toNat
    match s.drained c with
    | none => .wait
    | some s1 =>
      if s1.busErrAt sg a true then .trap 0x0A seg off.toNat s1
      else match regionOf a, swap with
        | .spar _, _ =>
          let s2 := s1.snoopAll true noCore (lineOf a)
          let old := BitVec.ofNat 32 (s2.rdLe a 4)
          let s3 := match f old with
            | some v => s2.wrLe a 4 v.toNat
            | none => s2
          s3.fin c (fun x => x.setG rd old)
        | .cleat _, some (expected, v) =>
          let o := a - 0x50000000
          match s1.cleatSwap (o / 16) (o % 16 / 4) (s1.ctxOf c) expected.toNat v.toNat (s1.core c).tmode with
          | (.data old, s2) => s2.fin c (fun x => x.setG rd (BitVec.ofNat 32 old))
          | (_, s2) => .trap 0x0A seg off.toNat s2
        | .cleat _, none => .trap 0x0A seg off.toNat s1.lockErr.2
        | _, _ => .trap 0x0A seg off.toNat s1

/-! ### The fetch and the instruction boundary -/

/-- R135: the instruction cache takes a line; a set holds two, the least recently used goes. -/
def Core.icTake (c : Core) (l : Line) : Core :=
  let others := c.ic.filter (fun x => x.addr != l.addr)
  let same := others.filter (fun x => x.addr / 32 % 256 == l.addr / 32 % 256)
  let keep := match same with
    | _ :: v :: _ => others.filter (fun x => x.addr != v.addr)
    | _ => others
  { c with ic := l :: keep }

/-- R117, R118: the fetch: its checks, then the line it brings into the instruction cache. The word itself is the command's. -/
def State.fetch (s : State) (c : Nat) : LdRes :=
  let x := s.core c
  let sg := x.codeSeg
  let a := sg.base + x.pc.toNat
  match checkSeg sg x.tmode (s.coreTenant c) 2 x.pc.toNat 4 false with
  | some code => .fault code s
  | none =>
    match x.ic.find? (fun l => l.addr == lineOf a) with
    | some l => .data 0 (s.setCore c (x.icTake l))
    | none =>
      if s.busErrAt sg a false then .fault 0x0A s
      else match regionOf a with
        | .cat _ => s.loadCat c a 4
        | .nor =>
          if s.norBusy then .wait else
          let r := s.norRead (lineOf a) 32
          .data 0 (r.2.setCore c ((r.2.core c).icTake { addr := lineOf a, dirty := false, data := r.1 }))
        | .spar _ | .rom | .xram | .pcache =>
          let r := s.ncRead (lineOf a) 32
          .data 0 (r.2.setCore c ((r.2.core c).icTake { addr := lineOf a, dirty := false, data := r.1 }))
        | _ => .data 0 s

/-! ### The CC's interrupt (R124, R125) -/

/-- R123–R125, R129: the CC takes the lowest-numbered source that shows in CC_IRQ_PEND: it ends a WFE first (R136), where a pending
imprecise error then comes before it, and no source is taken (17); else it enters at VBASE + 0x100 with INT set and IE cleared.
`none` when nothing is taken. -/
def State.takeInterrupt (s : State) : Option (Nat × State) :=
  let x := s.core 0
  if !(s.isUp 6 && x.ie && !x.tmode && (x.run == .wfe || (x.run == .running && !x.impDue))) then none else
  (findIdx? (fun n => bit s.irqShown n) (List.range 17)).map fun n =>
    let x1 : Core := if x.run = .wfe then { x.endWait (BitVec.ofNat 32 x.evsrc) with evpend := false, evsrc := 0 } else x
    let s1 := s.setCore 0 x1
    if x1.impDue then (17, s1.takeImp 0) else
    let w := s1.wordAtPc 0
    let cause := BitVec.ofNat 32 (2 ^ 31 + n)
    (n, (s1.logTrap 0 cause x1.pc w true).setCore 0 { x1.enter cause 0#32 w (x1.vbase + 0x100#32) with ie := false })

/-- R129: at the boundary before an instruction that does not trap, the CC takes an interrupt that shows. -/
def State.boundary (s : State) (c : Nat) : Option State := if c = 0 then s.takeInterrupt.map (·.2) else none

/-- R129: the instruction boundary, then the instruction: a core that is powered, running and (a tenant core) has a context takes
a pending imprecise error first, then a trap of the fetch or of `body`; an interrupt of the CC comes before an instruction that
would go on. The word is the trap's TINST. -/
def State.eki (s : State) (core : Fin 5) (op : Nat) (x : BitVec 26) (body : Nat → Nat → State → Ex) : Out :=
  let c := core.val
  if !(s.isUp (6 + c) && (s.core c).run == .running && (c == 0 || (s.core c).slot.isSome)) then .next s
  else if (s.core c).impDue then .next (s.settle (s.takeImp c))
  else match s.drainForeign c with
    | none => .next ((s.boundary c).getD s)
    | some s0 =>
      match s0.fetch c with
      | .data _ s1 =>
        match body c x.toNat s1 with
        | .fin s2 => .next ((s.boundary c).getD s2)
        | .wait => .next ((s.boundary c).getD s)
        | .trap code seg tval s2 => .next (s.settle (s2.trap c code seg tval (ekiWord op x.toNat)))
      | .fault code s1 => .next (s.settle (s1.trap c code 0 (s.core c).pc.toNat (ekiWord op x.toNat)))
      | _ => .next ((s.boundary c).getD s)

end Sys2Proof.Machine
end

