-- ==== Sys2Proof/Machine/Eki.lean ====
section
/-! DEFINITION. The EKI instructions (R110–R140, Table 7-5). Each command is one instruction of one core; the word it carries
stands for the one the core fetches at its PC (log entry 48). -/
namespace Sys2Proof.Machine

/-- Unused fields must be 0 (R121, R122). -/
def State.guardEki (s : State) (ok : Bool) (e : Ex) : Ex := if ok then e else s.rsvd

/-! ### Arithmetic (R122) -/

/-- R122: the ALU function of func[5:0]. -/
def execAlu (core : Fin 5) (x : BitVec 26) (s : State) : Out :=
  s.eki core 0x00 x fun c x s =>
    match aluFn (wFunc x) (s.gr c (wA x)) (s.gr c (wB x)) with
    | some v => s.fin c (·.setG (wD x) v)
    | none => s.rsvd

/-- An immediate instruction: rd takes a value computed from g[ra]. -/
def State.immOp (s : State) (c x : Nat) (v : Word) : Ex := s.fin c (·.setG (wD x) v)

/-- imm18, zero-extended. -/
def zImm18 (x : Nat) : Word := BitVec.ofNat 32 (wImm18 x)

def execAddi (core : Fin 5) (x : BitVec 26) (s : State) : Out :=
  s.eki core 0x01 x fun c x s => s.immOp c x (s.gr c (wA x) + sImm18 x)
def execAndi (core : Fin 5) (x : BitVec 26) (s : State) : Out :=
  s.eki core 0x02 x fun c x s => s.immOp c x (s.gr c (wA x) &&& zImm18 x)
def execOri (core : Fin 5) (x : BitVec 26) (s : State) : Out :=
  s.eki core 0x03 x fun c x s => s.immOp c x (s.gr c (wA x) ||| zImm18 x)
def execXori (core : Fin 5) (x : BitVec 26) (s : State) : Out :=
  s.eki core 0x04 x fun c x s => s.immOp c x (s.gr c (wA x) ^^^ zImm18 x)
def execSlti (core : Fin 5) (x : BitVec 26) (s : State) : Out :=
  s.eki core 0x05 x fun c x s => s.immOp c x (ofCond ((s.gr c (wA x)).slt (sImm18 x)))

/-- R122: SHI. -/
def execShi (core : Fin 5) (x : BitVec 26) (s : State) : Out :=
  s.eki core 0x07 x fun c x s =>
    let a := s.gr c (wA x)
    let n := BitVec.ofNat 32 (bits x 0 5)
    s.guardEki (bits x 7 11 = 0 && bits x 5 2 != 3)
      (s.immOp c x (match bits x 5 2 with | 0 => shl5 a n | 1 => shr5 a n | _ => sar5 a n))

def execLui (core : Fin 5) (x : BitVec 26) (s : State) : Out :=
  s.eki core 0x08 x fun c x s => s.immOp c x (BitVec.ofNat 32 (wImm22 x * 1024))
def execAddpc (core : Fin 5) (x : BitVec 26) (s : State) : Out :=
  s.eki core 0x0A x fun c x s => s.immOp c x ((s.core c).pc + sext 22 (wImm22 x))

/-! ### Loads and stores (R122, R130–R133) -/

/-- The offset of format M. -/
def State.offM (s : State) (c x : Nat) : Word := s.gr c (wA x) + sImm15 x
/-- The offset of format A. -/
def State.offA (s : State) (c x : Nat) : Word := s.gr c (wA x) + sImm11 x

/-- A load of `n` bytes into rd. -/
def State.loadTo (s : State) (c x n : Nat) (f : Nat → Word) : Ex :=
  s.loadOp c (wSegM x) (s.offM c x) n (wD x) (fun v k => k.setG (wD x) (f v))

def execLdw (core : Fin 5) (x : BitVec 26) (s : State) : Out :=
  s.eki core 0x0C x fun c x s => s.loadTo c x 4 (BitVec.ofNat 32)
def execLdh (core : Fin 5) (x : BitVec 26) (s : State) : Out :=
  s.eki core 0x0D x fun c x s => s.loadTo c x 2 (sext 16)
def execLdhu (core : Fin 5) (x : BitVec 26) (s : State) : Out :=
  s.eki core 0x0E x fun c x s => s.loadTo c x 2 (BitVec.ofNat 32)
def execLdb (core : Fin 5) (x : BitVec 26) (s : State) : Out :=
  s.eki core 0x0F x fun c x s => s.loadTo c x 1 (sext 8)
def execLdbu (core : Fin 5) (x : BitVec 26) (s : State) : Out :=
  s.eki core 0x10 x fun c x s => s.loadTo c x 1 (BitVec.ofNat 32)

def execStw (core : Fin 5) (x : BitVec 26) (s : State) : Out :=
  s.eki core 0x11 x fun c x s => s.storeOp c (wSegM x) (s.offM c x) 4 (s.gr c (wD x)).toNat
def execSth (core : Fin 5) (x : BitVec 26) (s : State) : Out :=
  s.eki core 0x12 x fun c x s => s.storeOp c (wSegM x) (s.offM c x) 2 (s.gr c (wD x)).toNat
def execStb (core : Fin 5) (x : BitVec 26) (s : State) : Out :=
  s.eki core 0x13 x fun c x s => s.storeOp c (wSegM x) (s.offM c x) 1 (s.gr c (wD x)).toNat

/-- R122: LDD fills g[rd] and g[rd+1]; rd is even. -/
def execLdd (core : Fin 5) (x : BitVec 26) (s : State) : Out :=
  s.eki core 0x14 x fun c x s => s.guardEki (wD x % 2 = 0)
    (s.loadOp c (wSegM x) (s.offM c x) 8 (wD x)
      (fun v k => (k.setG (wD x) (BitVec.ofNat 32 v)).setG (wD x + 1) (BitVec.ofNat 32 (v / 2 ^ 32))))

/-- R122: STD stores g[rd] and g[rd+1]; rd is even. -/
def execStd (core : Fin 5) (x : BitVec 26) (s : State) : Out :=
  s.eki core 0x15 x fun c x s => s.guardEki (wD x % 2 = 0)
    (s.storeOp c (wSegM x) (s.offM c x) 8 ((s.gr c (wD x)).toNat + (s.gr c (wD x + 1)).toNat * 2 ^ 32))

/-! ### Atomics (R122, R134) -/

def execAadd (core : Fin 5) (x : BitVec 26) (s : State) : Out :=
  s.eki core 0x16 x fun c x s =>
    s.atomicOp c (wSegA x) (s.offA c x) (wD x) (fun old => some (old + s.gr c (wB x))) none
def execAswp (core : Fin 5) (x : BitVec 26) (s : State) : Out :=
  s.eki core 0x17 x fun c x s =>
    s.atomicOp c (wSegA x) (s.offA c x) (wD x) (fun _ => some (s.gr c (wB x))) none
def execAcas (core : Fin 5) (x : BitVec 26) (s : State) : Out :=
  s.eki core 0x18 x fun c x s =>
    s.atomicOp c (wSegA x) (s.offA c x) (wD x) (fun old => if old = s.gr c (wD x) then some (s.gr c (wB x)) else none)
      (some (s.gr c (wD x), s.gr c (wB x)))

/-! ### Control flow (R122) -/

/-- The core goes on at an offset; PC is a multiple of 4 (R117). -/
def State.jump (s : State) (c : Nat) (pc : Word) (f : Core → Core) : Ex := .fin (s.setCore c { f (s.core c) with pc := pc })

/-- A conditional branch: the target is PC + 4 × imm18. -/
def State.branch (s : State) (c x : Nat) (k : Cond) : Ex :=
  if k.holds (s.gr c (wD x)) (s.gr c (wA x)) then s.jump c ((s.core c).pc + sImm18 x * 4#32) id else s.fin c id

def execBeq (core : Fin 5) (x : BitVec 26) (s : State) : Out := s.eki core 0x1A x fun c x s => s.branch c x .eq
def execBne (core : Fin 5) (x : BitVec 26) (s : State) : Out := s.eki core 0x1B x fun c x s => s.branch c x .ne
def execBlt (core : Fin 5) (x : BitVec 26) (s : State) : Out := s.eki core 0x1C x fun c x s => s.branch c x .lt
def execBge (core : Fin 5) (x : BitVec 26) (s : State) : Out := s.eki core 0x1D x fun c x s => s.branch c x .ge
def execBltu (core : Fin 5) (x : BitVec 26) (s : State) : Out := s.eki core 0x1E x fun c x s => s.branch c x .ltu
def execBgeu (core : Fin 5) (x : BitVec 26) (s : State) : Out := s.eki core 0x1F x fun c x s => s.branch c x .geu

def execJmp (core : Fin 5) (x : BitVec 26) (s : State) : Out :=
  s.eki core 0x20 x fun c x s => s.jump c ((s.core c).pc + sImm26 x * 4#32) id
def execCall (core : Fin 5) (x : BitVec 26) (s : State) : Out :=
  s.eki core 0x21 x fun c x s => s.jump c ((s.core c).pc + sImm26 x * 4#32) (·.setG 15 ((s.core c).pc + 4#32))

/-- R122: JALR; both are formed from the registers before it. -/
def execJalr (core : Fin 5) (x : BitVec 26) (s : State) : Out :=
  s.eki core 0x22 x fun c x s =>
    s.jump c ((s.gr c (wA x) + sImm18 x) &&& 0xFFFFFFFC#32) (·.setG (wD x) ((s.core c).pc + 4#32))

/-- R133: FENCE FULL, STORE and IFETCH. -/
def execFence (core : Fin 5) (x : BitVec 26) (s : State) : Out :=
  s.eki core 0x23 x fun c x s => s.guardEki (decide (x < 3))
    (match s.drained c with
     | none => .wait
     | some s1 => s1.fin c (fun k => if x = 2 then { k with ic := [] } else k))

def execSyscall (core : Fin 5) (x : BitVec 26) (s : State) : Out :=
  s.eki core 0x24 x fun _ x s => s.guardEki (wD x = 0 && wA x = 0) (.trap 7 0 (wImm18 x) s)
def execBrk (core : Fin 5) (x : BitVec 26) (s : State) : Out :=
  s.eki core 0x25 x fun _ x s => s.guardEki (wD x = 0 && wA x = 0) (.trap 8 0 (wImm18 x) s)

/-! ### Waiting and events (R136, R137) -/

/-- R137: LOCK records when a WFE wait of a run-table context began. -/
def State.noteWfe (s : State) (c : Nat) : State :=
  match (s.core c).slot with
  | some n => ({ s with lock := { s.lock with order := s.lock.order + 1 } } : State).setSlot n
      { s.slot n with wfeOrder := some s.lock.order }
  | none => s

/-- R136: WFE takes a pending event or waits, with PC at the WFE. -/
def execWfe (core : Fin 5) (x : BitVec 26) (s : State) : Out :=
  s.eki core 0x26 x fun c x s => s.guardEki (wA x = 0 && wImm18 x = 0)
    (if (s.core c).evpend then
      s.fin c (fun k => { k.setG (wD x) (BitVec.ofNat 32 k.evsrc) with evpend := false, evsrc := 0 })
    else .fin ((s.noteWfe c).setCore c { s.core c with run := .wfe, waitRd := wD x }))

/-- R137: WFT; a count of 0 ends it at once. -/
def execWft (core : Fin 5) (x : BitVec 26) (s : State) : Out :=
  s.eki core 0x27 x fun c x s => s.guardEki (wImm18 x = 0)
    (if bits (s.gr c (wA x)).toNat 0 16 = 0 then s.fin c (·.setG (wD x) 0#32)
     else .fin (s.setCore c { s.core c with run := .wft, waitRd := wD x }))

/-- R137: the count of a WFT has elapsed. -/
def execWftTimeout (core : Fin 5) (s : State) : Out :=
  .next (if s.isUp (6 + core) && (s.core core).run == .wft then s.setCore core ((s.core core).endWait 0#32) else s)

/-- R137: SEV; a slot number above 63 is invalid. -/
def execSev (core : Fin 5) (x : BitVec 26) (s : State) : Out :=
  s.eki core 0x28 x fun c x s => s.guardEki (wImm18 x = 0)
    (let n := bits (s.gr c (wA x)).toNat 0 8
     if n < 64 && (!(s.core c).tmode || s.slotTenant n == s.coreTenant c) then
       (s.event n 0).fin c (·.setG (wD x) 0#32)
     else s.fin c (·.setG (wD x) 1#32))

/-! ### Control registers (R112, R113) -/

/-- Table 7-1: a control register's content. CYCLE counts clock cycles, which the model does not have: a free value. -/
def State.mfcVal (s : State) (c i : Nat) : Word × State :=
  let k := s.core c
  match i with
  | 0 => (BitVec.ofNat 32 k.status, s)
  | 1 => (k.epc, s)
  | 2 => (k.cause, s)
  | 3 => (k.tval, s)
  | 4 => (k.tinst, s)
  | 5 => (k.vbase, s)
  | 6 => (BitVec.ofNat 32 (s.freeBits 32).1, (s.freeBits 32).2)
  | 7 => (BitVec.ofNat 32 s.frameNum, s)
  | 8 => (BitVec.ofNat 32 (s.coreTenant c + 256 * c), s)
  | 9 => (BitVec.ofNat 32 k.evmask, s)
  | 10 => (k.scratch0, s)
  | 11 => (k.scratch1, s)
  | _ => (BitVec.ofNat 32 c, s)

def execMfc (core : Fin 5) (x : BitVec 26) (s : State) : Out :=
  s.eki core 0x29 x fun c x s =>
    let i := wImm18 x
    s.guardEki (wA x = 0 && decide (i < 13) && (!(s.core c).tmode || [6, 7, 8, 9, 12].contains i))
      (let r := s.mfcVal c i; r.2.fin c (·.setG (wD x) r.1))

/-- Table 7-1: a control register takes a value; MODE, the read-only registers and undefined bits do not change, and only the
CC has IE, whose PMODE cannot be set (R111). -/
def Core.mtc (k : Core) (cc : Bool) (i : Nat) (v : Word) : Core :=
  let n := v.toNat
  match i with
  | 0 => { k with pmode := !cc && bit n 1, inTrap := bit n 2, ie := cc && bit n 3, evpend := bit n 4, useT := bit n 5 }
  | 1 => { k with epc := v }
  | 2 => { k with cause := v &&& 0x80000FFF#32 }
  | 3 => { k with tval := v }
  | 4 => { k with tinst := v }
  | 5 => { k with vbase := v &&& 0x00FFFFFC#32 }
  | 9 => { k with evmask := bits n 0 6 }
  | 10 => { k with scratch0 := v }
  | 11 => { k with scratch1 := v }
  | _ => k

def execMtc (core : Fin 5) (x : BitVec 26) (s : State) : Out :=
  s.eki core 0x2A x fun c x s =>
    let i := wImm18 x
    s.guardEki (wD x = 0 && decide (i < 13) && (!(s.core c).tmode || i == 9))
      (s.fin c (·.mtc (c == 0) i (s.gr c (wA x))))

/-! ### LDSEG, TRET, SFUQ, CACHE, PRFM -/

/-- A 16-byte or 32-byte descriptor read by a core through its data segments, aligned to its size. -/
def State.loadDesc (s : State) (c seg : Nat) (off : Word) (n : Nat) (k : List Byte → State → Ex) : Ex :=
  match s.dataCheck c seg off 8 n true with
  | (_, some code) => .trap code seg off.toNat s
  | (sg, none) =>
    match s.loadDwords c sg (sg.base + off.toNat) (n / 8) with
    | .data v s1 => k (leBytes v n) s1
    | .fault code s1 => .trap code seg off.toNat s1
    | .wait => .wait
    | .lock _ => .wait

/-- R116. -/
def execLdseg (core : Fin 5) (x : BitVec 26) (s : State) : Out :=
  s.eki core 0x2B x fun c x s => s.guardEki (!(s.core c).tmode && decide (wD x < 8))
    (s.loadDesc c (wSegM x) (s.offM c x) 16 (fun d s1 => s1.fin c (fun k => { k with mset := k.mset.set (wD x) (segOf d) })))

/-- R126. -/
def execTret (core : Fin 5) (x : BitVec 26) (s : State) : Out :=
  s.eki core 0x2C x fun c x s => s.guardEki (x = 0 && !(s.core c).tmode)
    (.fin (s.setCore c { (s.core c).tret with pc := (s.core c).epc &&& 0xFFFFFFFC#32 }))

/-- R138. -/
def execSfuq (core : Fin 5) (x : BitVec 26) (s : State) : Out :=
  s.eki core 0x2D x fun c x s =>
    s.loadDesc c (wSegM x) (s.offM c x) 32 (fun d s1 => match s1.drained c with
      | none => .wait
      | some s1 =>
      let r := s1.sfuOffer c d (s1.core c).dataSet (s1.coreTenant c) (s1.ctxOf c) (s1.core c).tmode
      r.2.fin c (·.setG (wD x) (BitVec.ofNat 32 r.1)))

/-- R122: a CACHE operation on the line of an address. -/
def State.cacheOp (s : State) (c op la : Nat) : State :=
  let k := s.core c
  match op, k.line la with
  | 0, some l => if l.dirty then (s.writeBack l).setCore c { k with dc := k.dc.map (fun y => if y.addr = la then { y with dirty := false } else y) } else s
  | 1, some l => (if l.dirty then s.writeBack l else s).setCore c (k.dropLine la)
  | 2, some _ => s.setCore c (k.dropLine la)
  | 3, _ => s.setCore c { k with ic := k.ic.filter (fun y => y.addr != la) }
  | _, none => s
  | _, _ => s

/-- R122: CACHE checks the R right and the limit of the byte it names; it never traps MISALIGN. -/
def execCache (core : Fin 5) (x : BitVec 26) (s : State) : Out :=
  s.eki core 0x2E x fun c x s => s.guardEki (decide (wD x < 4) && (wD x != 2 || !(s.core c).tmode))
    (match s.dataCheck c (wSegM x) (s.offM c x) 8 1 false with
     | (_, some code) => .trap code (wSegM x) (s.offM c x).toNat s
     | (sg, none) => (s.cacheOp c (wD x) (lineOf (sg.base + (s.offM c x).toNat))).fin c id)

/-- R122: PRFM brings the line into the data cache, or does nothing. -/
def State.prefetch (s : State) (c : Nat) (sg : Seg) (a : Nat) : State :=
  if s.busErrAt sg a false || !s.cacheable sg a || ((s.core c).line (lineOf a)).isSome || (regionOf a == .nor && s.norBusy) then s
  else match s.loadMem c sg (lineOf a) 4 with
    | .data _ s1 => s1
    | _ => s

def execPrfm (core : Fin 5) (x : BitVec 26) (s : State) : Out :=
  s.eki core 0x2F x fun c x s => s.guardEki (wD x = 0)
    (match s.dataCheck c (wSegM x) (s.offM c x) 8 1 false with
     | (_, some _) => s.fin c id
     | (sg, none) => (s.prefetch c sg (sg.base + (s.offM c x).toNat)).fin c id)

/-- Table 7-5: the 44 codes with a name. -/
def majorDefined (op : Nat) : Bool :=
  decide (op < 0x30) && !([0x06, 0x09, 0x0B, 0x19].contains op)

/-- R121: a reserved major opcode traps RSVD_OP. A code that Table 7-5 names has its own command, and nothing happens here. -/
def execReservedMajorOpcode (core : Fin 5) (opcode : BitVec 6) (x : BitVec 26) (s : State) : Out :=
  if majorDefined opcode.toNat then .next s else s.eki core opcode.toNat x fun _ _ s => s.rsvd

/-! ### Accesses of LOCK (R221–R231) -/

/-- The context of a core that may reach LOCK now: LOCK is released, the core runs and has a context. -/
def State.lockReach (s : State) (c : Nat) : Bool :=
  s.isUp 48 && s.isUp (6 + c) && (s.core c).run == .running && (c == 0 || (s.core c).slot.isSome)

/-- R118: the CLEAT segment through which a core's program reaches a cleat word: its number and the offset within it. Where no
segment of the set in use covers the word, the access comes from s6 with offset 0 (log entry 95). -/
def State.cleatSeg (s : State) (c cleat word : Nat) : Nat × Nat :=
  let a := 0x50000000 + 16 * cleat + 4 * word
  let set := (s.core c).dataSet
  ((List.range 8).find? (fun k =>
    let g := set.getD k {}
    g.typ == 4 && decide (g.base ≤ a ∧ a + 3 ≤ g.base + g.limit))).elim (6, 0) (fun k => (k, a - (set.getD k {}).base))

/-- A store to a cleat word as it leaves the store buffer (R130, R221). -/
def State.cleatEnt (s : State) (c cleat word v : Nat) : SbEnt :=
  { addr := 0x50000000 + 16 * cleat + 4 * word, size := 4, data := v, segNo := (s.cleatSeg c cleat word).1,
    off := (s.cleatSeg c cleat word).2, typ := 4, cache := 0, tmode := (s.core c).tmode, ctx := s.ctxOf c }

/-- R127: a load or atomic of a cleat word that completes as BUS_ERR traps. -/
def State.cleatTrap (s : State) (c cleat word : Nat) : State :=
  let g := s.cleatSeg c cleat word
  s.settle (s.trap c 0x0A g.1 g.2 (s.wordAtPc c))

/-- R224: an STW to VALUE reaches LOCK; what LOCK refuses is an imprecise bus error of the core (R127). -/
def execCleatValueWrite (core : Fin 5) (cleat : Fin 256) (value : Word) (s : State) : Out :=
  .next (if s.lockReach core then s.storeCleat core (s.cleatEnt core cleat 0 value.toNat) else s)

/-- Table 10-3: an ACAS to VALUE reaches LOCK. -/
def execCleatAcas (core : Fin 5) (cleat : Fin 256) (expected value : Word) (s : State) : Out :=
  if !s.lockReach core then .next s else
  match s.cleatSwap cleat 0 (s.ctxOf core) expected.toNat value.toNat (s.core core).tmode with
  | (.data _, s1) => .next s1
  | (_, s1) => .next (s1.cleatTrap core cleat 0)

/-- R227: a WAIT read reaches LOCK: it returns its data at once, traps, or stalls the core. -/
def execCleatWaitRead (core : Fin 5) (cleat : Fin 256) (rd : Fin 16) (s : State) : Out :=
  if !s.lockReach core then .next s else
  match s.cleatLoad cleat 1 (s.ctxOf core) (s.core core).tmode with
  | (.stall, s1) => .next (s1.setCore core { s1.core core with run := .lockWait, waitRd := rd })
  | (.data v, s1) => .next (s1.setCore core { (s1.core core).setG rd (BitVec.ofNat 32 v) with pc := (s1.core core).pc + 4#32 })
  | (.busErr, s1) => .next (s1.cleatTrap core cleat 1)

/-- R231: an STW to LEASE reaches LOCK. -/
def execCleatLeaseWrite (core : Fin 5) (cleat : Fin 256) (s : State) : Out :=
  .next (if s.lockReach core then s.storeCleat core (s.cleatEnt core cleat 2 0) else s)

end Sys2Proof.Machine
end

