-- ==== Sys2Proof/Machine/Boot.lean ====
section
/-! DEFINITION. Start-up (R366–R388): the firmware store's records and images, the configuration image, the keeper snapshot,
ROM's boot flow and warm path, and the warm reset. What ROM and Cyntoux do is one step (log entry 55). -/
namespace Sys2Proof.Machine

/-! ### The firmware store (R374–R377) -/

/-- Bytes of the NOR at an offset. -/
def State.norBytes (s : State) (off n : Nat) : List Byte := s.rdBytes (norBase + off) n
/-- A little-endian number in the NOR. -/
def State.norLe (s : State) (off n : Nat) : Nat := s.rdLe (norBase + off) n
def allZero (l : List Byte) : Bool := l.all (· == 0#8)

/-- R375: a boot record that is valid: GEN and ACTIVE. -/
def bootRecord (r : List Byte) : Option (Nat × Nat) :=
  if leAt r 0 4 = 0xB0C4EB64 && decide (byteAt r 8 ≤ 1) && allZero ((r.drop 9).take 19) && leAt r 28 4 = crc32c (r.take 28)
  then some (leAt r 4 4, byteAt r 8) else none

def State.bootCopy (s : State) (i : Nat) : Option (Nat × Nat) := bootRecord (s.norBytes (0x1000 * i) 32)

/-- R371: the slot that the valid record with the higher GEN names; with equal ones copy 0, with none slot A. -/
def State.activeSlot (s : State) : Nat :=
  match s.bootCopy 0, s.bootCopy 1 with
  | some a, some b => if a.1 < b.1 then b.2 else a.2
  | some a, none => a.2
  | none, some b => b.2
  | none, none => 0

/-- Table 17-5: where a slot lies and its size: 0 A, 1 B, 2 Recovery. -/
def slotPlace (k : Nat) : Nat × Nat :=
  if k = 0 then (0x30000, 0x300000) else if k = 1 then (0x330000, 0x300000) else (0x630000, 0x1C0000)

/-- SYS_IDENT.REV (Table 0-4). -/
def sysRev : Nat := 0xA1

/-- R376: a slot's image passes every check. -/
def State.imageOk (s : State) (k : Nat) : Bool :=
  let p := slotPlace k
  let h := s.norBytes p.1 256
  let len := leAt h 12 4
  leAt h 0 4 = 0xEB641AC0 && leAt h 4 2 = 1 && decide (byteAt h 6 ≤ sysRev) && byteAt h 7 = 0 && len % 256 = 0 &&
    decide (256 ≤ len ∧ len ≤ p.2 - 256) && allZero ((h.drop 16).take 16) && allZero (h.drop 128) &&
    sha256 (toNats (s.norBytes (p.1 + 256) len)) == toNats ((h.drop 32).take 32) &&
    ecdsaVerify (natBe (sha256 (toNats (h.take 64)))) (Config.imagePub.toNat / 2 ^ 256) (Config.imagePub.toNat % 2 ^ 256)
      (natBe (toNats ((h.drop 64).take 32))) (natBe (toNats ((h.drop 96).take 32)))

/-- R377: the records of the configuration image, TYPE and content; `fuel` bounds their number. -/
def configRecs : Nat → List Byte → List (Nat × List Byte)
  | 0, _ => []
  | n + 1, l =>
    if l.length < 4 then [] else
    let len := leAt l 2 2
    (leAt l 0 2, (l.drop 4).take len) :: configRecs n (l.drop (4 + len))

def confOff : Nat := 0x10000

/-- R377: the records of a valid configuration image, with its CRC. -/
def State.configImage (s : State) : Option (Nat × List (Nat × List Byte)) :=
  let h := s.norBytes confOff 16
  let len := leAt h 4 4
  if leAt h 0 4 = 0xC0F1EB64 && allZero (h.drop 12) && decide (len ≤ 0x20000 - 16) then
    let body := s.norBytes (confOff + 16) len
    if leAt h 8 4 = crc32c body then some (leAt h 8 4, configRecs (len / 4 + 1) body) else none
  else none

/-- Address and value pairs of 8 bytes each. -/
def pairsOf (l : List Byte) : List (Nat × Nat) := (List.range (l.length / 8)).map (fun i => (leAt l (8 * i) 4, leAt l (8 * i + 4) 4))

/-- R14: below allowance 6 a pair does not assert PSU_EN (log entry 150). -/
def State.psuHeld (s : State) (p : Nat × Nat) : Nat := if p.1 = 0x40012100 ∧ s.allow < 6 then p.2 - p.2 % 2 else p.2

/-- Register pairs applied in order, each as a write under R25. -/
def State.applyPairs (s : State) (ps : List (Nat × Nat)) : State := ps.foldl (fun s p => s.regCommand p.1 (s.psuHeld p)) s

/-- R207: Cyntoux writes the KEK into CRYPT_KEK, its first byte most significant in word 0. -/
def State.writeKek (s : State) : State :=
  match s.boot.kek with
  | some k => (List.range 8).foldl (fun s w => s.regCommand (0x40016020 + 4 * w) (ofBe ((k.drop (4 * w)).take 4))) s
  | none => s

/-- R377: one record of the configuration image. -/
def State.applyRec (s : State) (r : Nat × List Byte) : State :=
  match r.1 with
  | 1 => s.applyPairs (pairsOf r.2)
  | 2 => ({ s with boot := { s.boot with kek := some (r.2.take 32) } } : State).writeKek
  | 3 => { s with boot := { s.boot with
      grants := s.boot.grants ++ (List.range (r.2.length / 2)).map (fun i => (byteAt r.2 (2 * i), byteAt r.2 (2 * i + 1))) } }
  | _ => s

/-! ### Registers that ROM writes -/

/-- The value a register's read-write fields were last given. -/
def State.rwWord (s : State) (a : Nat) : Nat :=
  match blockOf a with
  | none => 0
  | some b => ((regDef b (a - blockBase b)).getD []).foldl (fun w f =>
      if f.ty = .rw then w + s.last (fk a f.lo) % 2 ^ f.w * 2 ^ f.lo else w) 0

/-- A write of some bits of a register, the others as last written. -/
def State.rwSet (s : State) (a v mask : Nat) : State :=
  s.regCommand a (s.rwWord a - s.rwWord a % 2 ^ 32 + ((s.rwWord a &&& (0xFFFFFFFF - mask)) ||| (v &&& mask)))

/-- PMU_BOOT_INFO bits. -/
def kBootSlot : Key := fk 0x40000068 0
def kFallback : Key := fk 0x40000068 2
def kSnapBad : Key := fk 0x40000068 3
def kStrapBad : Key := fk 0x40000068 4
def kConfigBad : Key := fk 0x40000068 5
def kBootCause : Key := fk 0x40000060 0

/-! ### The probe directory (R251) -/

/-- Cyntoux writes a tenant's directory entry equal to its CAT_TENt_BKT. -/
def State.writeDir (s : State) (t : Nat) : State :=
  if !s.isUp 2 then s else
  let n := s.last (fk (0x40008100 + 8 * t) 0)
  s.wrLe (0x12004100 + 8 * t) 8 (ofBool (n ≠ 0) + n * 2 + s.last (fk (0x40008100 + 8 * t) 16) * 64)

/-- The banks that hold a tenant's bucket array. -/
def State.bucketBanks (s : State) (t : Nat) : List Nat :=
  let n := s.last (fk (0x40008100 + 8 * t) 0)
  let base := s.last (fk (0x40008100 + 8 * t) 16) * 65536
  if n = 0 then [] else
  (List.range 16).filter (fun b => decide (base < (b + 1) * 0x400000 ∧ b * 0x400000 < base + 64 * 2 ^ n))

/-- R251, R370 step 5: the whole directory; DARK_SET names the banks of the bucket arrays (log entry 58). -/
def State.writeDirectory (s : State) : State :=
  if !s.isUp 2 then s else
  let dark := bitWord 16 (fun b => (List.range 64).any (fun t => (s.bucketBanks t).contains b))
  (List.range 64).foldl (fun s t => s.writeDir t) (s.wrLe 0x12004000 8 dark)

/-! ### The keeper snapshot (R384–R387) -/

def snapBase : Nat := 0x23FFC000

/-- The registers the snapshot saves: those outside AON and BKP with a read-write field away from its reset value, by address
(log entry 59). -/
def State.snapRegs (s : State) : List (Nat × Nat) :=
  let as := (s.regs.map (fun e => keyAddr e.1)).eraseDups.filter (fun a =>
    match blockOf a with
    | some b => blockDoms b != [] && ((regDef b (a - blockBase b)).getD []).any (fun f =>
        f.ty = .rw && s.last (fk a f.lo) != f.reset)
    | none => false)
  (as.take 504).map (fun a => (a, s.rwWord a))

/-- R384: the content of the snapshot; Cyntoux's private state beyond the map-fail list is not given: free bytes. -/
def State.snapshot (s : State) (level : Nat) : List Byte × State :=
  let ps := s.snapRegs
  let f := s.freeBytes (0xD00 - 64)
  let gen := (s.rdLe (snapBase + 4) 4 + 1) % 2 ^ 32
  let body := ps.flatMap (fun p => leBytes p.1 4 ++ leBytes p.2 4)
  let pairs := body ++ List.replicate (0xFC0 - body.length) 0#8
  let head := leBytes 0x5EA7EB64 4 ++ leBytes gen 4 ++ leBytes ps.length 2 ++ [0#8, 0#8] ++ leBytes s.frameNum 4 ++
    leBytes level 1 ++ [0#8, 0#8, 0#8] ++ leBytes s.boot.configCrc 4 ++ List.replicate 36 0#8
  let rest := pairs ++ s.rdBytes 0x12004000 0x300 ++ s.rdBytes 0x12003F00 64 ++ f.1 ++
    s.rdBytes (s.reg (fk 0x40015000 13) * 8192) 0x2000
  (head ++ leBytes (crc32c (head ++ rest)) 4 ++ rest, f.2)

/-- A catalog offset in the snapshot's 16 KiB. -/
def inSnap (off : Nat) : Bool := decide (snapOff ≤ off ∧ off < snapOff + 0x4000)

/-- R198, R200: words of the snapshot's area have been written anew: they read without error, and scrubber rewrites of them that have
not started are dropped. -/
def State.snapFresh (s : State) : State :=
  { s with cat := { s.cat with
    ecc := Tab.keep (fun w => !inSnap (8 * w)) s.cat.ecc
    wb := s.cat.wb.filter (fun x => !(x.origin == 2 && !x.started && inSnap x.off)) } }

/-- R385: Cyntoux writes the snapshot; its 2,048 posted words are one step, accepted and verified (log entry 60). With bank 15
off they are refused and the older snapshot stays. -/
def State.writeSnapshot (s : State) (level : Nat) : State :=
  if s.isUp 43 && s.isUp 5 then ((s.snapshot level).2.wrBytes snapBase (s.snapshot level).1).snapFresh else s

/-- R387: the snapshot is valid: bank 15 is readable, MAGIC, PAIRS and the CRC check. -/
def State.snapValid (s : State) : Bool :=
  let h := s.rdBytes snapBase 0x3C
  s.isUp 43 && leAt h 0 4 = 0x5EA7EB64 && decide (leAt h 8 2 ≤ 504) &&
    s.cat.ecc.all (fun e => !(decide (snapOff / 8 ≤ e.1) && decide (2 ≤ e.2))) &&
    s.rdLe (snapBase + 0x3C) 4 = crc32c (h ++ s.rdBytes (snapBase + 0x40) 0x3FC0)

/-- R387, R196: the snapshot is applied: its pairs in order, the directory, the descriptor table, and, while SUMMARY_VALID is 0,
the map-fail list. -/
def State.applySnapshot (s : State) : State :=
  let n := s.rdLe (snapBase + 8) 2
  let s1 : State := s.applyPairs (pairsOf (s.rdBytes (snapBase + 0x40) (8 * n)))
  let s2 : State := if s1.isUp 2 then s1.wrBytes 0x12004000 (s1.rdBytes (snapBase + 0x1000) 0x300) else s1
  let s3 : State := if s2.isUp 2 && !s2.flag kSummaryValid then s2.wrBytes 0x12003F00 (s2.rdBytes (snapBase + 0x1300) 64) else s2
  let a := s3.reg (fk 0x40015000 13) * 8192
  if s3.sparOk a then s3.ncWriteN a (s3.rdBytes (snapBase + 0x2000) 0x2000) else s3

/-! ### ROM's boot flow (R370, R371) -/

/-- R370 step 1: PMU_DOM_ON requests NOR and CONS, with VSTBY also SGM0, SGM1 and the bay groups. -/
def State.bootStep1 (s : State) : State :=
  let v := s.vstbyOk
  let s1 : State := s.rwSet 0x40000024 (2 ^ 12 + (if v then 0xFF800000 else 0)) (2 ^ 12 + (if v then 0xFF800000 else 0))
  s1.rwSet 0x40000028 (2 ^ 5 + ofBool v) (2 ^ 5 + ofBool v)

/-- The values that the image's pairs give a register, the last one. -/
def pairFor (recs : List (Nat × List Byte)) (a : Nat) : Option Nat :=
  ((recs.filter (fun r => r.1 = 1)).flatMap (fun r => pairsOf r.2)).foldl (fun o p => if p.1 = a then some p.2 else o) none

/-- The shelf address: record type 4 of the image, or with STRAP0 = 1 the SHELF_ID byte (R399); `none` keeps EN at 0. -/
def State.shelfAddress (s : State) (recs : List (Nat × List Byte)) (shelfId : Option Byte) : Option (Option Nat) :=
  if bit s.boot.strapBalls 0 then shelfId.bind (fun b => if b.toNat ≤ 62 then some (some b.toNat) else none)
  else some ((recs.find? (fun r => r.1 == 4)).map (fun r => byteAt r.2 0))

/-- R370 step 2, R392: shelf address, termination, EXT, the SGMII addresses, and SPINE_CTRL.EN (log entry 57). -/
def State.bootStep2 (s : State) (recs : List (Nat × List Byte)) (shelfId : Option Byte) : State :=
  let s1 : State := match pairFor recs 0x4000C004 with | some v => s.regCommand 0x4000C004 v | none => s
  let s2 : State := match pairFor recs 0x4000D004 with | some v => s1.regCommand 0x4000D004 v | none => s1
  let ext := ofBool (bit s.boot.strapBalls 1) * 2 ^ 6
  let term := ((pairFor recs 0x4000A000).getD 0) &&& 0x300
  match s2.shelfAddress recs shelfId with
  | none => s2.rwSet 0x4000A000 (term + ext) 0x340
  | some a =>
    let s3 : State := match a with | some n => s2.regCommand 0x4000A004 n | none => s2
    (s3.rwSet 0x4000A000 (term + ext) 0x340).rwSet 0x4000A000 1 1

/-- R371: the slot that runs and whether ROM fell back: 3 is ROM alone. -/
def State.chooseSlot (s : State) : Nat × Bool :=
  match s.boot.bootBalls with
  | 1 => if s.imageOk 2 then (2, false) else (3, false)
  | 2 => (3, false)
  | _ =>
    let a := s.activeSlot
    if s.imageOk a then (a, false) else if s.imageOk (1 - a) then (1 - a, true) else if s.imageOk 2 then (2, true) else (3, true)

/-- R371: what the choice leaves in PMU_BOOT_INFO and in Cyntoux: FALLBACK and STRAP_BAD describe the most recent start (log entry
151). ROM's own VERSION and digest are not given: free values. -/
def State.bootStep3 (s : State) : State :=
  let c := s.chooseSlot
  let s1 : State := (((s.setReg kBootSlot c.1).setFlag kFallback c.2).setFlag kStrapBad (s.boot.bootBalls == 3))
  let p := slotPlace c.1
  if c.1 = 3 then
    let v := s1.freeBits 32
    let d := v.2.freeBytes 32
    { d.2 with boot := { d.2.boot with version := v.1, digest := d.1 } }
  else { s1 with boot := { s1.boot with version := s1.norLe (p.1 + 8) 4, digest := s1.norBytes (p.1 + 32) 32 } }

/-- R370 step 4, R387: the configuration image, then the snapshot if it is valid and its CONFIG_CRC is that of the image. Of an invalid
image nothing is applied; the CONFIG_CRC that a snapshot then saves the manual does not state: it is free (R384). -/
def State.bootStep4 (s : State) : State :=
  match s.configImage with
  | none =>
    let f := s.freeBits 32
    ({ f.2 with boot := { f.2.boot with grants := [], kek := none, configCrc := f.1 } } : State).setFlag kConfigBad true
  | some (crc, recs) =>
    let s0 : State := ({ s with boot := { s.boot with grants := [], kek := none, configCrc := crc } } : State).setFlag kConfigBad false
    let s1 : State := recs.foldl State.applyRec s0
    if s1.snapValid && s1.rdLe (snapBase + 0x14) 4 == crc then s1.applySnapshot else s1

/-- R370 step 6: Cyntoux accepts commands and releases RSTOUT_N. -/
def State.accept (s : State) : State :=
  { s with boot := { s.boot with starting := false, accepting := true, full := false, rstOutLow := false } }

/-- Steps 2 to 6. ROM sets REC but in ROM-only mode, which SLOT 3 shows, on a part that is not debug-locked (R382, log entry 160). -/
def State.bootRest (s : State) (shelfId : Option Byte) : State :=
  let recs := (s.configImage.map (·.2)).getD []
  let s1 : State := ((s.bootStep2 recs shelfId).bootStep3).bootStep4
  let s2 : State := { s1 with boot := { s1.boot with
    recLocked := s1.boot.recLocked || s1.reg kBootSlot != 3 || s1.debugLocked } }
  (s2.writeDirectory.rwSet 0x4000B000 3 3).accept

/-- R370: on a start with CAUSE 0 or 1, or one that left the warm path, ROM takes step 1, and, once the NOR is released, steps 2
to 6. `shelfId` is what the SHELF_ID memory answers; without VIO33 there is no bus to it and no acknowledgement (log entry 156). -/
def execRomBoot (shelfId : Option Byte) (s : State) : Out :=
  if !(s.aon && s.isUp 6 && s.isUp 5 && s.boot.starting && (s.reg kBootCause != 2 || s.boot.full)) then .next s
  else .next (if s.isUp 44 then s.bootRest (if s.serv.io.vio33 then shelfId else none) else s.bootStep1)

/-- R387, R382: on a start with CAUSE 2 ROM restores the snapshot and accepts commands, or sets SNAP_BAD and boots in full. -/
def execWarmPath (s : State) : Out :=
  if !(s.aon && s.isUp 6 && s.isUp 5 && s.boot.starting && s.reg kBootCause == 2 && !s.boot.full) then .next s
  else if s.snapValid then
    let s1 : State := s.applySnapshot.writeKek
    let s2 : State := if s1.isUp 44 && !(s1.reg kBootSlot == 3 && !s1.debugLocked) then
      { s1 with boot := { s1.boot with recLocked := true } } else s1
    .next (s2.rwSet 0x4000B000 1 1).accept
  else .next { s.setFlag kSnapBad true with boot := { s.boot with full := true } }

/-! ### The warm reset (R367–R369) -/

/-- R367: RST_N has qualified low, or is high again. -/
def execRstN (low : Bool) (s : State) : Out :=
  if !s.aon then .next { s with boot := { s.boot with rstLow := low } }
  else if low then .next { s with boot := { s.boot with rstLow := true, warmDue := some (s.boot.warmDue.getD (1, 0)) } }
  else .next { s with boot := { s.boot with rstLow := false } }

/-- R362: a DEVICE_FATAL record has seen its second latch edge. -/
def execFatalResetDue (s : State) : Out :=
  match s.err.fatal with
  | some (_, edges) => .next (if 2 ≤ edges then { s with boot := { s.boot with warmDue := some (s.boot.warmDue.getD (3, 0)) } } else s)
  | none => .next s

/-- R368: the AON registers and rings take their reset values, but for those that survive. -/
def State.resetAon (s : State) : State :=
  let keep := fun k : Nat =>
    let a := keyAddr k
    !(decide (a < 0x40001000 ∨ 0x40002000 ≤ a ∧ a < 0x40003000)) || a == 0x40000048 || decide (0x40000100 ≤ a ∧ a < 0x40000200) ||
      a == 0x40000068 || a == 0x40002044 || k == kClkStat 0 || k == kClkStat 4
  { (s.setRing 0x00 {}).setRing 0x02 {} with
    regs := Tab.keep keep s.regs
    shadow := Tab.keep keep s.shadow
    crossing := s.crossing.filter (fun c => c.block != 0x00)
    gring := {}
    pmu := {}
    clk := {} }

/-- R368 step 1: every switched domain switches off, but for FAB, FRAME and the banks that the started entry needs; entries not
started are lost; a NOR operation stops (step 3). -/
def State.warmStart (s : State) (src reason : Nat) : State :=
  let front := s.cat.wb.filter (·.started)
  let due := s.cat.mapDue.filter (·.retires)
  let held := if front.isEmpty && due.isEmpty then [] else 43 :: front.map (fun e => catDom e.off)
  let s0 : State := { s with cat := { s.cat with wb := front, mapDue := due } }
  let s1 : State := (List.range 72).reverse.foldl (fun s d =>
    if d = 4 || d = 5 || held.contains d then s else s.offDom d) s0
  { s1 with
    boot := { s1.boot with warmDue := some (src, reason), inReset := true, rstOutLow := true, wdtLow := s1.boot.wdtLow || src == 3
                           accepting := false, starting := false }
    cyn := s1.cyn.lose
    serv := { s1.serv with unlocked := false, challenge := none, unlockFails := 0 } }

def execWarmResetStart (s : State) : Out :=
  match s.boot.warmDue with
  | some (src, reason) => .next (if s.aon && !s.boot.inReset then s.warmStart src reason else s)
  | none => .next s

/-- R368 steps 2 and 4, R366, R369: the started entry has retired and RST_N is high: the domains held switch off, AON takes its
reset values, the balls are sampled, and the start with CAUSE 1 begins. -/
def execWarmResetEnd (boot strap : BitVec 2) (s : State) : Out :=
  if !(s.aon && s.boot.inReset && !s.boot.rstLow && s.cat.wb.isEmpty && s.cat.mapDue.isEmpty) then .next s else
  let d := s.boot.warmDue.getD (0, 0)
  let s1 : State := ((List.range 72).foldl (fun s d => s.offDom d) s).resetAon
  let s2 : State := { s1 with
    err := { s1.err with fatal := none }
    boot := { s1.boot with warmDue := none, inReset := false, bootBalls := boot.toNat, strapBalls := strap.toNat, starting := true
                           full := false } }
  let s3 : State := (((s2.setReg kBootCause 1).setReg (fk 0x40000060 4) d.1).setReg (fk 0x40000060 8) boot.toNat).setReg
    (fk 0x40000060 10) strap.toNat
  let s4 : State := s3.setReg (fk 0x40000060 16) (if d.1 = 2 then d.2 else 0)
  .next (startDomains.foldl (fun s d => s.onDom d) s4)

/-- R369: 1 ms after the start of a warm reset caused by DEVICE_FATAL. -/
def execWdtOutNRelease (s : State) : Out := .next { s with boot := { s.boot with wdtLow := false } }

end Sys2Proof.Machine
end

