-- ==== Sys2Proof/Machine/Serv.lean ====
section
/-! DEFINITION. The service ports (R390–R402): Ethernet frames, consoles, GPIO and shelf control, JTAG, trace. Command packets go
on in Cyn.lean. -/
namespace Sys2Proof.Machine

/-! ### Ethernet (R390–R393) -/

/-- CRC-32 of IEEE 802.3: reflected, polynomial 0x04C11DB7. -/
def crc32Bit (c : Nat) : Nat := if c % 2 = 1 then Nat.xor (c / 2) 0xEDB88320 else c / 2
def crc32 (l : List Byte) : Nat :=
  Nat.xor (l.foldl (fun c b => (List.range 8).foldl (fun c _ => crc32Bit c) (Nat.xor c b.toNat)) 0xFFFFFFFF) 0xFFFFFFFF

/-- The register address of an SGMII port. -/
def sgmBase (p : Nat) : Nat := 0x4000C000 + 0x1000 * p
def kSgmIp (p : Nat) : Key := fk (sgmBase p + 4) 0
def kSgmLink (p : Nat) : Key := fk (sgmBase p + 0x40) 0
def kSgmDrop (p : Nat) : Key := fk (sgmBase p + 0x44) 0

/-- R391: a port's MAC address. -/
def macOf (p : Nat) : List Byte := BitVec.ofNat 8 (if p = 0 then 2 else 6) :: 0xEB#8 :: beBytes (Config.serial.toNat % 2 ^ 32) 4

def broadcast : List Byte := List.replicate 6 0xFF#8

/-- Big-endian number of `k` bytes at a position. -/
def beAt (l : List Byte) (i k : Nat) : Nat := ofBe ((l.drop i).take k)

/-- R391: a received frame, FCS included, is kept. -/
def frameKept (p : Nat) (f : List Byte) : Bool :=
  let n := f.length
  let t := beAt f 12 2
  decide (64 ≤ n ∧ n ≤ 1518) && leAt f (n - 4) 4 = crc32 (f.take (n - 4)) && (t = 0x0800 || t = 0x0806) &&
    (f.take 6 == macOf p || (f.take 6 == broadcast && t == 0x0806))

/-- The ones' complement checksum of IPv4, ICMP and UDP. -/
def ipSum (l : List Byte) : Nat :=
  let s := ((List.range ((l.length + 1) / 2)).map (fun i => byteAt l (2 * i) * 256 + byteAt l (2 * i + 1))).foldl (· + ·) 0
  let f := fun x : Nat => x % 65536 + x / 65536
  f (f (f s))

/-- A checksum field for bytes in which it counts as 0. -/
def ipCheck (l : List Byte) : Nat := 65535 - ipSum l

/-- The IPv4 packet of a frame, cut to its total length. -/
def ipOf (f : List Byte) : List Byte := ((f.drop 14).take (f.length - 18)).take (beAt f 16 2)

/-- R392: version 4, IHL 5, header checksum, no fragment, and the destination is the port's address. -/
def State.ipOk (s : State) (p : Nat) (f : List Byte) : Bool :=
  let q := ipOf f
  beAt f 12 2 = 0x0800 && byteAt q 0 = 0x45 && decide (20 ≤ beAt q 2 2 ∧ beAt q 2 2 ≤ f.length - 18) && ipSum (q.take 20) = 65535 &&
    beAt q 6 2 % 0x4000 = 0 && beAt q 16 4 = s.reg (kSgmIp p)

/-- R392: an ARP request for the port's address. -/
def State.isArp (s : State) (p : Nat) (f : List Byte) : Bool :=
  beAt f 12 2 = 0x0806 && beAt f 14 8 = 0x0001080006040001 && beAt f 38 4 = s.reg (kSgmIp p)

/-- R392: an ICMP echo request to the port. -/
def State.isEcho (s : State) (p : Nat) (f : List Byte) : Bool :=
  let q := ipOf f
  s.ipOk p f && byteAt q 9 = 1 && decide (28 ≤ q.length) && beAt q 20 2 = 0x0800 && ipSum (q.drop 20) = 65535

/-- The UDP pseudo-header and datagram. -/
def udpSum (q : List Byte) : Nat := ipSum ((q.drop 12).take 8 ++ [0#8, 17#8] ++ (q.drop 24).take 2 ++ q.drop 20)

/-- R392: a datagram that reaches Cyntoux. -/
def State.isCommand (s : State) (p : Nat) (f : List Byte) : Bool :=
  let q := ipOf f
  s.ipOk p f && byteAt q 9 = 17 && beAt q 22 2 = 47120 && decide (8 ≤ beAt q 24 2 ∧ beAt q 24 2 ≤ q.length - 20) &&
    (beAt q 26 2 = 0 || udpSum (q.take (20 + beAt q 24 2)) = 65535)

/-- A port receives and sends: its domain is released, its link is up, and PLL1, which clocks its SerDes (R390), is locked (log entry 154). -/
def State.sgmUp (s : State) (p : Nat) : Bool := s.isUp (63 + p) && s.flag (kSgmLink p) && s.flag (kClkStat 3)

/-- R393: a port sends a frame; while its address is 0 it sends nothing. -/
def State.ethSend (s : State) (p : Nat) (f : List Byte) : State :=
  if s.reg (kSgmIp p) = 0 || !s.sgmUp p then s else
  let g := f ++ List.replicate (60 - f.length) 0#8
  { s with serv := { s.serv with ethOut := Tab.set (fun _ => []) s.serv.ethOut p (g ++ leBytes (crc32 g) 4) } }

/-- R393: an IPv4 packet with TTL 64, DF and identification 0. -/
def ipPacket (proto src dst : Nat) (body : List Byte) : List Byte :=
  let h1 := [0x45#8, 0#8] ++ beBytes (20 + body.length) 2 ++ [0#8, 0#8, 0x40#8, 0#8, 64#8, BitVec.ofNat 8 proto]
  let h2 := beBytes src 4 ++ beBytes dst 4
  h1 ++ beBytes (ipCheck (h1 ++ [0#8, 0#8] ++ h2)) 2 ++ h2 ++ body

/-- An Ethernet II frame without its FCS. -/
def ethFrame (dst src : List Byte) (ty : Nat) (body : List Byte) : List Byte := dst ++ src ++ beBytes ty 2 ++ body

/-- R391, R392: a frame is dropped and counted unless it is one that the port or Cyntoux answers; those have their own rows. A port
that takes a frame makes a bus request, which leaves Reef 1 (R61; log entry 155). -/
def execEthernetFrame (port : Bool) (frame : List Byte) (s0 : State) : Out :=
  let p := ofBool port
  let s : State := if s0.sgmUp p && frameKept p frame then s0.reef1Leave else s0
  if !s.sgmUp p then .next s
  else if frameKept p frame && (s.isArp p frame || s.isEcho p frame || s.isCommand p frame) then .next s
  else .next (s.count (kSgmDrop p) 16 1)

/-- R392: an ARP request for SGMn_IP is answered. -/
def execArpRequest (port : Bool) (frame : List Byte) (s : State) : Out :=
  let p := ofBool port
  .next (if s.sgmUp p && frameKept p frame && s.isArp p frame then
    s.reef1Leave.ethSend p (ethFrame ((frame.drop 6).take 6) (macOf p) 0x0806
      (beBytes 0x0001080006040002 8 ++ macOf p ++ (frame.drop 38).take 4 ++ (frame.drop 22).take 10))
  else s)

/-- R392: an echo request is answered with the same data. -/
def execIcmpEcho (port : Bool) (frame : List Byte) (s : State) : Out :=
  let p := ofBool port
  let q := ipOf frame
  let body := q.drop 24
  let icmp := [0#8, 0#8] ++ beBytes (ipCheck ([0#8, 0#8, 0#8, 0#8] ++ body)) 2 ++ body
  .next (if s.sgmUp p && frameKept p frame && s.isEcho p frame then
    s.reef1Leave.ethSend p (ethFrame ((frame.drop 6).take 6) (macOf p) 0x0800 (ipPacket 1 (beAt q 16 4) (beAt q 12 4) icmp))
  else s)

/-- R390: the partner's ability is known: MODE 0, or 1000 Mbit/s at full duplex, comes up; any other partner is rejected. -/
def execLinkUp (port : Bool) (full1000 : Bool) (s : State) : Out :=
  let p := ofBool port
  if !(s.isUp (63 + p) && s.flag (kClkStat 3)) then .next s
  else if s.flag (fk (sgmBase p) 0) && !full1000 then .next (s.setFlag (fk (sgmBase p + 0x40) 1) true)
  else .next (s.setFlag (kSgmLink p) true)

/-- R393: the link goes down; what has not been sent is discarded. -/
def execLinkDown (port : Bool) (s : State) : Out :=
  let p := ofBool port
  .next (({ s with serv := { s.serv with ethOut := Tab.erase s.serv.ethOut p } } : State).setFlag (kSgmLink p) false)

/-! ### Consoles (R394, R395) -/

def State.consBuf (s : State) (p : Nat) : List Nat := Tab.get (fun _ => []) s.serv.cons p
def State.setCons (s : State) (p : Nat) (l : List Nat) : State :=
  { s with serv := { s.serv with cons := Tab.set (fun _ => []) s.serv.cons p l } }
def kConsDrop (p : Nat) : Key := fk (0x40013010 + 0x40 * p) 0
def kSlipErr (p : Nat) : Key := fk (0x40013010 + 0x40 * p) 16

/-- R394: with SYNC = 0, the BCLK cycle after the falling edge of a start bit at which a console's receiver samples bit `k`; with
SYNC = 1 the host's SCK clocks each bit. -/
def State.consSampleAt (s : State) (p k : Nat) : Option Nat :=
  let div := s.reg (fk (0x40013000 + 0x40 * p) 16)
  if s.flag (fk (0x40013000 + 0x40 * p) 1) then none else some (div / 2 + k * div)

/-- R395: a byte enters the 2 KiB buffer, or is discarded and counted; its bus request leaves Reef 1 (R61; log entry 155). While VIO33
is absent RXD and SCK read 0 (R406), so that no byte arrives. -/
def execConsoleByte (port : Bool) (data : Byte) (s0 : State) : Out :=
  let p := ofBool port
  if !(s0.isUp 69 && bit s0.serv.consRx p && s0.serv.io.vio33) then .next s0 else
  let s : State := s0.reef1Leave
  let l := s.consBuf p
  let s1 : State := if (l.filter (· < 256)).length < 2048 then s.setCons p (l ++ [data.toNat])
    else (if l.getLast? = some 256 then s else s.setCons p (l ++ [256])).count (kConsDrop p) 16 1
  .next (s1.halyard 14)

/-- R274: the SLIP content of a frame; `none` when it is malformed. -/
def slipDecode : List Nat → Option (List Byte)
  | [] => some []
  | 0xDB :: 0xDC :: t => (slipDecode t).map (0xC0#8 :: ·)
  | 0xDB :: 0xDD :: t => (slipDecode t).map (0xDB#8 :: ·)
  | 0xDB :: _ => none
  | b :: t => if b < 256 then (slipDecode t).map (BitVec.ofNat 8 b :: ·) else none

/-- R274: a frame as it is sent: END, the escaped bytes, END. -/
def slipEncode (l : List Byte) : List Byte :=
  [0xC0#8] ++ l.flatMap (fun b => if b = 0xC0#8 then [0xDB#8, 0xDC#8] else if b = 0xDB#8 then [0xDB#8, 0xDD#8] else [b]) ++ [0xC0#8]

def State.consSend (s : State) (p : Nat) (l : List Byte) : State :=
  if s.isUp 69 then { s with serv := { s.serv with consOut := Tab.set (fun _ => []) s.serv.consOut p (slipEncode l) } } else s

/-! ### GPIO and shelf control (R396, R397) -/

/-- R396: an input changes level; a pin whose interrupt is enabled sets its event (log entry 66). While VIO33 is absent every input
reads 0 (R406). -/
def execGpioEvent (pin : Fin 64) (ball : Bool) (s : State) : Out :=
  if !s.isUp 5 then .next s else
  let level := ball && s.serv.io.vio33
  let was := bit s.serv.gpioIn pin
  let en := bit (s.reg (fk (0x40012018 + 4 * (pin / 32)) 0)) (pin % 32)
  .next { s with serv := { s.serv with
    gpioIn := setBit s.serv.gpioIn pin level
    gpioEvent := if en && was != level then setBit s.serv.gpioEvent pin true else s.serv.gpioEvent } }

/-- R397, R398: PSU_PG has qualified at a level; a rise ends the wait for it. The ball is of the AON ring. -/
def execPsuPg (level : Bool) (s : State) : Out :=
  .next <| if !s.aon then s else { s with serv := { s.serv with pg := level, pgWait := if level then none else s.serv.pgWait } }

/-- R397: PSU_ALERT_N; its assertion raises PSU_ALERT. -/
def execPsuAlert (asserted : Bool) (s : State) : Out :=
  let s1 : State := { s with serv := { s.serv with alert := asserted } }
  .next (if asserted && !s.serv.alert then s1.halyard 13 else s1)

/-- R397: SHELF_LED0–1 have been written with a value, and the tick has come. -/
def execLedShift (value : Dword) (s : State) : Out :=
  .next (if s.isUp 5 then { s with serv := { s.serv with led := value.toNat, ledOut := some value.toNat } } else s)

/-- R397: a falling edge is counted for the frame; without VIO33 the input reads 0 and has none (R406). -/
def execFanTachEdge (fan : Fin 4) (s : State) : Out :=
  .next (if s.isUp 5 && s.serv.io.vio33 then { s with serv := { s.serv with
    tachNow := Tab.set (fun _ => 0) s.serv.tachNow fan (Tab.get (fun _ => 0) s.serv.tachNow fan + 1) } } else s)

/-! ### JTAG (R400) -/

/-- An instruction is in force. -/
def State.jtag (s : State) (t : Tap) : Out := .next (if s.aon then { s with serv := { s.serv with tap := t } } else s)

/-- R400: `cells` is the boundary register driven, `sampled` what the balls showed, which the boundary register captures. -/
def execExtest (cells sampled : Nat) (s : State) : Out :=
  s.jtag { ir := 0x00, dr := sampled, cells := cells, sampled := sampled, drive := true, hiz := false }
def execSamplePreload (cells sampled : Nat) (s : State) : Out :=
  s.jtag { ir := 0x01, dr := sampled, cells := cells, sampled := sampled, drive := false, hiz := false }
/-- R8, R400: the IDCODE register captures its value. -/
def execIdcode (s : State) : Out := s.jtag { s.serv.tap with ir := 0x02, dr := idcode, drive := false, hiz := false }
/-- CLAMP, HIGHZ and BYPASS select the bypass bit, which captures 0 (IEEE 1149.1). -/
def execClamp (s : State) : Out := s.jtag { s.serv.tap with ir := 0x03, dr := 0, drive := true, hiz := false }
def execHighz (s : State) : Out := s.jtag { s.serv.tap with ir := 0x04, dr := 0, drive := false, hiz := true }

/-- R400, R401: DEBUG acts as BYPASS unless the Ebzin is unlocked and domain 70 is released; what it captures then the manual does not
state: it is free. -/
def execJtagDebug (s : State) : Out :=
  if !s.debugLocked && s.isUp 70 then
    (s.freeBits 32).2.jtag { s.serv.tap with ir := 0x10, dr := (s.freeBits 32).1, drive := false, hiz := false }
  else s.jtag { s.serv.tap with ir := 0x1F, dr := 0, drive := false, hiz := false }

/-- R400: BYPASS and every code that Table 18-3 does not list. -/
def execBypass (code : BitVec 5) (s : State) : Out :=
  if [0x00, 0x01, 0x02, 0x03, 0x04, 0x10].contains code.toNat then .next s
  else s.jtag { s.serv.tap with ir := 0x1F, dr := 0, drive := false, hiz := false }

def execTrstN (s : State) : Out := s.jtag {}

/-! ### Trace (R402) -/

/-- Payload words of a kind. -/
def traceWords (kind : Nat) : Option Nat :=
  match kind with
  | 1 => some 2
  | 2 => some 4
  | 3 => some 1
  | 4 => some 2
  | _ => none

/-- A packet: its header word with TRC_CTL as bit 16, then its payload. -/
def tracePkt (source kind : Nat) (payload : List Nat) : List Nat :=
  (2 ^ 16 + source * 2 ^ 13 + kind * 2 ^ 8 + payload.length) :: payload

/-- R402: a packet enters the FIFO, behind an overflow packet if packets have been dropped, or is dropped. -/
def execTracePacket (source : Fin 6) (kind : BitVec 5) (payload : List (BitVec 16)) (s : State) : Out :=
  if !(s.isUp 71 && !s.debugLocked && traceWords kind.toNat == some payload.length) then .next s else
  let lost := if s.serv.traceDropped = 0 then [] else tracePkt source 31 [min s.serv.traceDropped 65535]
  let new := lost ++ tracePkt source kind.toNat (payload.map (·.toNat))
  .next (if s.serv.trace.length + new.length ≤ 64
    then { s with serv := { s.serv with trace := s.serv.trace ++ new, traceDropped := 0 } }
    else { s with serv := { s.serv with traceDropped := s.serv.traceDropped + 1 } })

end Sys2Proof.Machine
end

