-- ==== Sys2Proof/Machine/CynBase.lean ====
section
/-! DEFINITION. What Cyntoux's commands share (R268–R291): replies and their routes, mailbox events (R160), status codes, field
lists (R284, R425), sized parameters (R271), and how a command that executes ends. -/
namespace Sys2Proof.Machine

/-! ### Status codes (Table 12-6) -/

def stOk : Nat := 0x0000
def stOkClamped : Nat := 0x0001
def stBadOpcode : Nat := 0x0100
def stBadLength : Nat := 0x0101
def stBadCrc : Nat := 0x0102
def stNotPermitted : Nat := 0x0103
def stBusy : Nat := 0x0104
def stNotReady : Nat := 0x0105
def stNotErased : Nat := 0x0200
def stVerifyFail : Nat := 0x0201
def stImageRejected : Nat := 0x0202
def stPoisoned : Nat := 0x0300
def stDeferred : Nat := 0x0301
def stNotFound : Nat := 0x0302
def stTenantResetting : Nat := 0x0400
def stTenantUnknown : Nat := 0x0401
def stEnergyRefused : Nat := 0x0500
def stWaitBroken : Nat := 0x0600
def stOwnerReset : Nat := 0x0601
def stBayLocked : Nat := 0x0700

/-- R291: the statuses that a command which did not complete can carry. -/
def failCodes : List Nat :=
  [stBadOpcode, stBadLength, stBadCrc, stNotPermitted, stBusy, stNotReady, stNotErased, stVerifyFail, stImageRejected, stPoisoned,
   stDeferred, stNotFound, stTenantResetting, stTenantUnknown, stEnergyRefused, stWaitBroken, stOwnerReset, stBayLocked]

/-- A failing status that the manual does not name: a free value among those of Table 12-6. -/
def State.freeStatus (s : State) : Nat × State :=
  (failCodes.getD ((s.freeBits 16).1 % failCodes.length) stNotReady, (s.freeBits 16).2)

/-! ### Sources -/

/-- R272: two packets come from one source; a UDP source is its port, IPv4 address and UDP port. -/
def sameSrc (a b : CmdSrc) : Bool :=
  match a, b with
  | .udp p i u _, .udp q j v _ => p == q && i == j && u == v
  | _, _ => a == b

/-- The tenant of a mailbox source. -/
def mailboxOf : CmdSrc → Option Nat
  | .mailbox t => some t
  | _ => none

def Cmd.onMailbox (c : Cmd) : Bool := (mailboxOf c.src).isSome
/-- TENANT[5:0], POSTED and ACKREQ (Table 12-1). -/
def Cmd.ten (c : Cmd) : Nat := c.tenant % 64
def Cmd.posted (c : Cmd) : Bool := bit c.tenant 7
def Cmd.ackReq (c : Cmd) : Bool := bit c.tenant 6
def Cmd.cls (c : Cmd) : Nat := c.op / 4096
/-- R271: the bytes that a result may have. -/
def Cmd.room (c : Cmd) : Nat := if c.onMailbox then 144 else 512
/-- A parameter of `k` bytes at a position. -/
def Cmd.par (c : Cmd) (at_ k : Nat) : Nat := leAt c.params at_ k

/-- Cyntoux runs: the control core and the fabric are released and no warm reset is in progress. -/
def State.cynRuns (s : State) : Bool := s.aon && s.isUp 5 && s.isUp 6 && !s.boot.inReset

/-! ### Mailboxes (R158–R160) -/

def mboxAddr (t : Nat) : Nat := 0x11000000 + 0x200 * t

/-- R160: a 32-byte event record; the bytes the manual does not state are free. -/
def State.eventRecord (s : State) (typ seq : Nat) (detail : List Byte) : List Byte × State :=
  let f := s.freeBytes 32
  ([BitVec.ofNat 8 typ, f.1.getD 1 0#8] ++ leBytes seq 2 ++ leBytes s.frameNum 4 ++ detail ++ f.1.drop (8 + detail.length), f.2)

/-- R160: an event is posted, or dropped and counted when the ring is full. -/
def State.postMail (s : State) (t typ : Nat) (detail : List Byte) : State :=
  if !s.isUp 27 then s else
  let a := mboxAddr t
  let head := s.rdLe (a + 8) 2
  let tail := s.rdLe (a + 0xC) 2
  if (head + 65536 - tail) % 65536 = 8 then s.wrLe (a + 0x10) 4 (satAdd 16 (s.rdLe (a + 0x10) 2) 1)
  else
    let r := s.eventRecord typ head detail
    ((r.2.wrBytes (a + 0x20 + 0x20 * (head % 8)) r.1).wrLe (a + 8) 4 ((head + 1) % 65536)).regCommand 0x40015310 t

/-- R280, R358: the tenants that LATE_ERROR events go to. -/
def State.takesLate (s : State) (t : Nat) : Bool := s.tenState t == 1 || s.tenState t == 2

/-- R160: LATE_ERROR carries code, segment, offset and command sequence. -/
def State.postLate (s : State) (t code seg off seq : Nat) : State :=
  s.postMail t 2 (leBytes code 2 ++ leBytes seg 1 ++ leBytes off 4 ++ leBytes seq 2)

/-! ### Replies (R270, R279) -/

/-- Table 12-2: a reply packet. -/
def replyPacket (op tenant clamps status seq : Nat) (payload : List Byte) : List Byte :=
  let h := [0xEC#8, 0x01#8] ++ leBytes op 2 ++ leBytes tenant 1 ++ leBytes clamps 1 ++ leBytes status 2 ++ leBytes seq 2 ++
    leBytes payload.length 2
  let b := h ++ leBytes (crc16 h) 2 ++ payload
  b ++ leBytes (crc32c b) 4

/-- R270: the entries that a reply carries beside its result. -/
def Cmd.carried (c : Cmd) (result : List Byte) (entries : List Nat) : List Nat :=
  entries.take (min 16 (if c.onMailbox then (206 - result.length) / 4 else 16))

/-- R270: the reply that follows a command's execution. -/
def Cmd.reply (c : Cmd) (status : Nat) (result : List Byte) (entries : List Nat) : List Byte :=
  let es := c.carried result entries
  replyPacket c.op c.tenant (es.length % 32 + ofBool (es.length < entries.length) * 128) status c.seq
    (result ++ es.flatMap (fun e => leBytes e 4))

/-- R279: the reply that acknowledges a posted command. -/
def Cmd.acceptReply (c : Cmd) : List Byte := replyPacket c.op c.tenant 32 0 c.seq []

/-- R258: a free report buffer takes a packet; without one the packet waits. -/
def State.sendSpine (s : State) (tag : Nat) (p : List Byte) : State :=
  match (List.range 8).find? (fun q => !s.spine.reports.any (fun r => r.buf == q)) with
  | some q =>
    if s.isUp 2 && s.cyn.outbox.isEmpty then
      ((s.wrLe (rptAddr q) 4 (p.length % 2048 + tag * 65536)).wrBytes (rptAddr q + 8) p).regCommand 0x4000B010 q
    else { s with cyn := { s.cyn with outbox := s.cyn.outbox ++ [(tag, p)] } }
  | none => { s with cyn := { s.cyn with outbox := s.cyn.outbox ++ [(tag, p)] } }

/-- Replies that wait for a report buffer take those that have become free. -/
def State.flushOutbox (s : State) : State :=
  s.cyn.outbox.foldl (fun (s : State) (m : Nat × List Byte) => s.sendSpine m.1 m.2)
    ({ s with cyn := { s.cyn with outbox := [] } } : State)

/-- R272, R392, R393: a reply datagram from port 47120. -/
def State.sendUdp (s : State) (p dst dport : Nat) (mac : List Byte) (body : List Byte) : State :=
  let src := s.reg (kSgmIp p)
  let h := beBytes 47120 2 ++ beBytes dport 2 ++ beBytes (8 + body.length) 2
  let c := ipCheck (beBytes src 4 ++ beBytes dst 4 ++ [0#8, 17#8] ++ beBytes (8 + body.length) 2 ++ h ++ [0#8, 0#8] ++ body)
  s.ethSend p (ethFrame mac (macOf p) 0x0800 (ipPacket 17 src dst (h ++ beBytes (if c = 0 then 65535 else c) 2 ++ body)))

/-- R159: a reply goes into the command window, CMD_STAT shows it, and a REPLY event is posted. -/
def State.sendMailbox (s : State) (t seq : Nat) (p : List Byte) : State :=
  if !s.isUp 27 then s else
  let s1 : State := (s.wrBytes (mboxAddr t + 0x120) p).wrLe (mboxAddr t + 4) 4 (seq + 65536)
  s1.postMail t 1 []

/-- R272: a packet goes back the way its command came. -/
def State.send (s : State) (src : CmdSrc) (seq : Nat) (p : List Byte) : State :=
  match src with
  | .spine => s.sendSpine seq p
  | .udp port ip u mac => s.sendUdp (ofBool port) ip.toNat u.toNat (beBytes mac.toNat 6) p
  | .console port => s.consSend (ofBool port) p
  | .mailbox t => s.sendMailbox t seq p

/-! ### How a command ends (R279, R280) -/

/-- R277: what is kept for a source takes a command's reply. -/
def State.keepReply (s : State) (c : Cmd) (r : Option (List Byte)) : State :=
  { s with cyn := { s.cyn with kept := s.cyn.kept.map (fun k =>
    if sameSrc k.src c.src && k.seq == c.seq && k.pcrc == c.pcrc then { k with reply := r.orElse (fun _ => k.reply), done := true }
    else k) } }

/-- R280, R356: a posted command that failed: a LATE record, whose DETAIL is the opcode, and to its mailbox a LATE_ERROR event. -/
def State.postedFailure (s : State) (c : Cmd) (status : Nat) : State :=
  let stamp := s.err.stamp
  let s1 : State := s.raise
    { cls := 1, source := 0x19, code := status, tenant := c.ten, seq := c.seq, detail := [c.op % 256, c.op / 256] }
  match mailboxOf c.src with
  | some t =>
    if s1.takesLate t then
      let s2 : State := { s1 with cyn := { s1.cyn with lateSent := (stamp :: s1.cyn.lateSent).take 64 } }
      s2.postLate t status 0 0 c.seq
    else s1
  | none => s1

/-- R279, R280, R284: the execution of a command ends with a status, its result and the entries it made. -/
def State.finish (s : State) (c : Cmd) (status : Nat) (result : List Byte) (made : List Nat) : State :=
  let entries := c.entries ++ made
  let st := if status = stOk && !entries.isEmpty then stOkClamped else status
  if c.posted then
    let s1 : State := s.keepReply c none
    if st ≤ 1 then s1 else s1.postedFailure c st
  else if c.ackReq || st != stOk then
    let p := c.reply st result entries
    (s.keepReply c (some p)).send c.src c.seq p
  else s.keepReply c none

/-! ### What an execution answers -/

/-- How far a command gets: it ends with a status, its result and its entries; what it needs is busy, so that nothing has
happened; or it waits on hardware, with the entries it has made so far. -/
inductive Ran where
  | done (status : Nat) (result : List Byte) (entries : List Nat)
  | wait
  | long (w : CmdWait) (entries : List Nat)
  deriving DecidableEq, Repr

abbrev Ans := Ran × State

/-- The command completes with a result. -/
def State.ok (s : State) (bs : List Byte) : Ans := (.done stOk bs [], s)
/-- The command completes with a result and the entries it made. -/
def State.okWith (s : State) (bs : List Byte) (es : List Nat) : Ans := (.done stOk bs es, s)
/-- The command ends with another status. -/
def State.no (s : State) (status : Nat) : Ans := (.done status [] [], s)
/-- The command ends with another status and the entries it made (R270). -/
def State.noWith (s : State) (status : Nat) (es : List Nat) : Ans := (.done status [] es, s)
/-- The command ends with a status the manual does not name. -/
def State.noFree (s : State) (es : List Nat) : Ans := s.freeStatus.2.noWith s.freeStatus.1 es

/-! ### Parameters (R271, R25, R29) -/

/-- R29: a parameter that maps to no register is a field of block 0x3F: its check against a range, with the entry made. The entry
enters the global ring (R31). -/
def State.param (s : State) (c : Cmd) (pos lo hi v : Nat) : Nat × List Nat × State :=
  let e := fun a : Nat => rptEntry (0x3F * 1024 + c.cls * 64 + pos) a v
  let put := fun a : Nat => ({ s with gring := Ring.push 64 14 s.gring (e a) } : State)
  if v < lo then (lo, [e 0], put 0) else if hi < v then (hi, [e 1], put 1) else (v, [], s)

/-- R271: a size is clamped-high to what the reply takes, in whole units; a size of broken units is clamped to the whole ones. -/
def State.sizeParam (s : State) (c : Cmd) (pos lo hi unit v : Nat) : Nat × List Nat × State :=
  let r := s.param c pos lo (min hi (c.room / unit)) v
  r

/-- R271: a length that must be a multiple of `k`. -/
def State.multParam (s : State) (c : Cmd) (pos k hi v : Nat) : Nat × List Nat × State :=
  let top := min hi (c.room / k * k)
  if v < k then s.param c pos k top v
  else if top < v || v % k = 0 then s.param c pos k top v
  else s.param c pos k (v / k * k) v

/-! ### Writes by Cyntoux that take effect at once, with the entries they make -/

/-- A whole-word register write and its report entries. -/
def State.writeWord (s : State) (a v : Nat) : List Nat × State :=
  match blockOf a with
  | none => ([], s)
  | some b =>
    let s1 : State := if crossesXt1 b then s.flushXt1 b else s
    ((s1.checkWord b (a - blockBase b) v 0xFFFFFFFF).entries, s1.regCommand a v)

/-- Register writes in order. -/
def State.writeWords (s : State) (ws : List (Nat × Nat)) : List Nat × State :=
  ws.foldl (fun r w => (r.1 ++ (r.2.writeWord w.1 w.2).1, (r.2.writeWord w.1 w.2).2)) ([], s)

/-! ### Fields by their number (R29, R425) -/

/-- The register offsets of a block at which a field number can stand. -/
def fieldOffs (b no : Nat) : List Nat :=
  if b = 0x17 ∨ b = 0x18 then
    (if no % 8 = 7 then (List.range 64).map (fun i => 0x8000 + 4 * i) else (List.range 64).map (fun i => no / 8 * 0x100 + 4 * i))
  else (List.range 1024).map (4 * ·)

/-- R425: the members of a field ID: offsets and bit ranges in ascending order. -/
def fieldMembers (b no : Nat) : List (Nat × Fld) :=
  (fieldOffs b no).flatMap (fun o => (((regDef b o).getD []).filter (fun f => f.no == some no)).map (fun f => (o, f)))

/-- R284: a VALUE is judged as an unsigned number before it is fitted into the field's bits. -/
def State.judge (s : State) (ws : List (Key × Nat)) (b o : Nat) (f : Fld) (v : Nat) : Option Nat × Option Nat :=
  if f.ty = .ro then (none, none)
  else if f.cls == .stopped && s.running b o then (none, some 3)
  else
    let r := if f.rng = .dep then s.depRange ws b o f.lo v else f.rng
    if r = .any && 2 ^ f.w ≤ v then (some (2 ^ f.w - 1), some 1) else r.check v

/-- R425: the value that each member takes; the highest takes every bit from its position upwards. -/
def memberVals : List (Nat × Fld) → Nat → List (Nat × Fld × Nat)
  | [], _ => []
  | [(o, f)], v => [(o, f, v)]
  | (o, f) :: t, v => (o, f, v % 2 ^ f.w) :: memberVals t (v / 2 ^ f.w)

/-- R425, R28: the checks of a write of some fields of one register, in ascending order. In a register that carries both of two
coupled fields the one that the write does not bring is judged again with the value it holds. -/
def State.judgeReg (s : State) (b o : Nat) (vals : List (Fld × Nat)) : Checked :=
  let fl := if pairedReg b o then (regDef b o).getD [] else vals.map (·.1)
  fl.foldl (fun c f => match vals.find? (fun p => p.1.lo == f.lo) with
    | some p => c.add b o f p.2 (s.judge c.ws b o f p.2)
    | none =>
      let v := s.held b o f
      if f.rng == .dep then c.add b o f v (s.judge c.ws b o f v) else c) ({} : Checked)

/-- The write of one register's members: one write of the register, which takes effect at once, but for a FRAME field's tick. -/
def State.writeMembers (s : State) (b o : Nat) (vals : List (Fld × Nat)) : List Nat × State :=
  let s0 : State := if crossesXt1 b then s.flushXt1 b else s
  let c := s0.judgeReg b o vals
  (c.entries, (s0.reportAll b c.entries).takeWrite 0 b (blockBase b + o) c.ws)

/-- R284, R425: one pair of a field list: the members of a group are written register by register. -/
def State.writeField (s : State) (id v : Nat) : List Nat × State :=
  let b := id / 1024
  let ms := memberVals (fieldMembers b (id % 1024)) v
  ((ms.map (·.1)).eraseDups).foldl (fun r o =>
    let q := r.2.writeMembers b o ((ms.filter (fun m => m.1 == o)).map (·.2))
    (r.1 ++ q.1, q.2)) ([], s)

/-- The pairs of a field list. -/
def fieldPairs (l : List Byte) : List (Nat × Nat) := (List.range (l.length / 6)).map (fun i => (leAt l (6 * i) 2, leAt l (6 * i + 2) 4))

/-- Pairs applied in order. -/
def State.applyFields (s : State) (ps : List (Nat × Nat)) : List Nat × State :=
  ps.foldl (fun r p => (r.1 ++ (r.2.writeField p.1 p.2).1, (r.2.writeField p.1 p.2).2)) ([], s)

/-- R284: why a pair stops its list: an undefined or RO field (R425: or a group with an RO member), one out of scope, or one whose
block does not answer. -/
def State.pairRefusal (s : State) (scope : Nat → Nat → Bool) (id : Nat) : Option Nat :=
  let b := id / 1024
  let ms := fieldMembers b (id % 1024)
  if ms.isEmpty || ms.any (fun m => m.2.ty == .ro) || !ms.all (fun m => scope b m.1) then some stNotPermitted
  else if !s.blockOn b then some stNotReady
  else none

/-- R182: two catalog ranges of different tenants meet. -/
def State.regionsMeet (s : State) : Bool :=
  let rs := (List.range 64).flatMap (fun t =>
    let n := s.last (fk (0x40008100 + 8 * t) 0)
    [(t, s.last (fk (0x40008100 + 8 * t) 16) * 65536, if n = 0 then 0 else 64 * 2 ^ n),
     (t, s.last (fk (0x40008104 + 8 * t) 0) * 65536, s.last (fk (0x40008104 + 8 * t) 16) * 65536)])
  rs.any (fun x => rs.any (fun y => decide (x.1 < y.1) && decide (x.2.2 ≠ 0 ∧ y.2.2 ≠ 0) && rangesMeet x.2.1 x.2.2 y.2.1 y.2.2))

/-- R182, R284: the pair with which tenants' catalog regions come to overlap. -/
def State.overlapAt (s : State) (ps : List (Nat × Nat)) : Option Nat :=
  if !ps.any (fun p => p.1 / 1024 == 8) || !(s.applyFields ps).2.regionsMeet then none
  else (List.range ps.length).find? (fun i => (s.applyFields (ps.take (i + 1))).2.regionsMeet)

/-- The field of SHELF_CTRL.PSU_EN (Table 18-4). -/
def psuField : Nat := 0x12 * 1024 + 16

/-- R14, Table 3-4: a field list that would assert PSU_EN below allowance 6, which Cyntoux refuses (log entry 150). -/
def State.psuBarred (s : State) (ps : List (Nat × Nat)) : Bool :=
  decide (s.allow < 6) && ps.any (fun p => p.1 == psuField && p.2 != 0)

/-- R284: a field list is checked as a whole and applied. R251: the probe directory follows CAT_TENt_BKT. -/
def State.fieldList (s : State) (c : Cmd) (scope : Nat → Nat → Bool) : Ans :=
  let ps := fieldPairs c.params
  if s.psuBarred ps then s.no stEnergyRefused else
  match ((List.range ps.length).filterMap (fun i => (s.pairRefusal scope (ps.getD i (0, 0)).1).map (fun st => (i, st)))).head? with
  | some (i, st) => (.done st (leBytes i 2) [], s)
  | none =>
    match s.overlapAt ps with
    | some i => (.done stNotPermitted (leBytes i 2) [], s)
    | none =>
      let r := s.applyFields ps
      let s1 : State := if ps.any (fun p => p.1 / 1024 == 8) then r.2.writeDirectory else r.2
      s1.okWith [] r.1

/-- A block is one of a list. -/
def inBlocks (bs : List Nat) (b _o : Nat) : Bool := bs.contains b

end Sys2Proof.Machine
end

