-- ==== Sys2Proof/Machine/CynOps.lean ====
section
/-! DEFINITION. Cyntoux's commands of classes 0x0 to 0x2 (Table 12-5): general, power and shelf, bays. -/
namespace Sys2Proof.Machine

/-- Words as the u32 fields of a result. -/
def u32s (ws : List Nat) : List Byte := ws.flatMap (fun w => leBytes w 4)

/-! ### Class 0x0 -/

def State.opNop (s : State) (_c : Cmd) : Ans := s.ok []

/-- IDENT: SYS_IDENT, SERIAL LO and HI, and the version of the Cyntoux that runs. -/
def State.opIdent (s : State) (_c : Cmd) : Ans :=
  s.ok (u32s [s.wordView 0x40000FF0, Config.serial.toNat % 2 ^ 32, Config.serial.toNat / 2 ^ 32, s.boot.version])

def State.opCfgSet (s : State) (c : Cmd) : Ans := s.fieldList c (fun _ _ => true)

/-- R425: a field as read with VIEW = 0, its members packed from the lowest; the read stalls until crossing writes have taken
effect. A number that names no field has no value the manual states: it is free. -/
def State.readField (s : State) (id : Nat) : Nat × State :=
  let b := id / 1024
  let ms := fieldMembers b (id % 1024)
  if ms.isEmpty then s.freeBits 32 else
  let s0 : State := if crossesXt1 b then s.flushXt1 b else s
  let view := s0.reg (kView b)
  let r := ms.foldl (fun (acc : Nat × Nat × State) (m : Nat × Fld) =>
    let w := acc.2.2.busRead 0 (blockBase b + m.1)
    (acc.1 + bits w.1 m.2.lo m.2.w * 2 ^ acc.2.1, acc.2.1 + m.2.w, w.2)) (0, 0, s0.setReg (kView b) 0)
  (r.1 % 2 ^ 32, r.2.2.setReg (kView b) view)

/-- CFG_GET: the field values; on a mailbox only those that the reply takes (R271). -/
def State.opCfgGet (s : State) (c : Cmd) : Ans :=
  let p := s.param c 1 1 (min 128 (c.room / 4)) (c.params.length / 2)
  let ids := (List.range p.1).map (fun i => c.par (2 * i) 2)
  if ids.any (fun id => !s.blockOn (id / 1024) && !(fieldMembers (id / 1024) (id % 1024)).isEmpty) then p.2.2.noWith stNotReady p.2.1
  else
    let r := ids.foldl (fun (acc : List Byte × State) id =>
      let v := acc.2.readField id
      (acc.1 ++ leBytes v.1 4, v.2)) ([], p.2.2)
    r.2.okWith r.1 p.2.1

/-- Register words read over the bus, in order. -/
def State.busWords (s : State) (as : List Nat) : List Byte × State :=
  as.foldl (fun (acc : List Byte × State) x => (acc.1 ++ leBytes (acc.2.busRead 0 x).1 4, (acc.2.busRead 0 x).2)) ([], s)

/-- REG_READ: consecutive register words. A powered-off block is NOT_READY; for an address outside every block the manual names no
outcome. -/
def State.opRegRead (s : State) (c : Cmd) : Ans :=
  let a := c.par 0 4 / 4 * 4
  let p := s.param c 1 1 (min 128 (c.room / 4)) (c.par 4 2)
  let as := (List.range p.1).map (fun i => a + 4 * i)
  if as.any (fun x => (blockOf x).isSome && !s.addrOn x) then p.2.2.noWith stNotReady p.2.1
  else if as.any (fun x => (blockOf x).isNone) then p.2.2.noFree p.2.1
  else
    let r := p.2.2.busWords as
    r.2.okWith r.1 p.2.1

/-- RPT_READ: the global ring, oldest entry first; on a mailbox the oldest that the reply takes. -/
def State.opRptRead (s : State) (c : Cmd) : Ans :=
  let g := s.gring
  let n := min g.valid ((c.room - 4) / 4)
  s.ok ([BitVec.ofNat 8 n, 0#8] ++ leBytes g.lost 2 ++
    (List.range n).flatMap (fun i => leBytes (Tab.get (fun _ => 0) g.slots ((g.next + 64 - g.valid + i) % 64)) 4))

def State.opRptClear (s : State) (_c : Cmd) : Ans := (s.regCommand 0x40000DF8 (2 ^ 31)).ok []

/-- R282: the reply leaves first; the reset follows at the first tick after it. -/
def State.opWarmReset (s : State) (c : Cmd) : Ans :=
  State.ok { s with cyn := { s.cyn with warm := some (c.par 0 1, if c.src = .spine && c.ackReq then some c.seq else none) } } []

/-! ### Class 0x1 -/

/-- POWER_STAT: six reads of PMU registers, the first of which stalls until the writes crossing into PMU have taken effect (R34). -/
def State.opPowerStat (s : State) (_c : Cmd) : Ans :=
  let r := s.busWords [0x40000040, 0x40000030, 0x40000034, 0x40000038, 0x40000044, 0x40000048]
  r.2.ok r.1

/-- R62, R385: before it requests Reef 2 or deeper Cyntoux writes the snapshot and waits for an empty write buffer. -/
def State.opReefReq (s : State) (c : Cmd) : Ans :=
  let v := c.par 0 1
  if decide (2 ≤ v ∧ v ≤ 4) && !(s.cat.wb.isEmpty && s.cat.mapDue.isEmpty) then (.wait, s) else
  let s1 : State := if 2 ≤ v ∧ v ≤ 4 then s.writeSnapshot v else s
  let r := s1.writeField 5 v
  r.2.okWith (leBytes (r.2.reg kRefuse) 1) r.1

/-- R15, R256: Cyntoux starts a shelf sequence; one of the other kind is answered BUSY. -/
def State.startShelf (s : State) (wake : Bool) : Ans :=
  if s.flag (if wake then kSleepSeq else kWakeSeq) then s.no stBusy
  else (.long (.shelf wake) [], s.regCommand 0x4000B004 (if wake then 0x100 else 0x200))

def State.opShelfWake (s : State) (_c : Cmd) : Ans := s.startShelf true
def State.opShelfSleep (s : State) (_c : Cmd) : Ans := s.startShelf false
def State.opPowerSet (s : State) (c : Cmd) : Ans := s.fieldList c (inBlocks [0x00, 0x11, 0x02])

/-! ### Class 0x2 -/

/-- R294: the latest ADC code held for a channel's current sense or source monitor. -/
def State.adcCodeOf (s : State) (n k : Nat) : Nat := Tab.get (fun _ => 0) s.cyn.adcHeld (2 * n + k)

/-- R294: the 8 bytes of a bay. -/
def State.bayBytes (s : State) (n : Nat) : List Byte :=
  let c := s.bayCh n
  let shunt := s.reg (fk (0x40028080 + 4 * (n / 16)) 0)
  [BitVec.ofNat 8 c.st, BitVec.ofNat 8 c.trips, BitVec.ofNat 8 c.retriesLeft,
    BitVec.ofNat 8 (ofBool (s.prsActive n) + 2 * ofBool (s.fltActive n))] ++
    leBytes (s.adcCodeOf n 0 * 500 / shunt) 2 ++ leBytes (s.adcCodeOf n 1 * 4) 2

/-- A bay channel answers (R17). -/
def State.bayAnswers (s : State) (n : Nat) : Bool := s.regOn (0x40020000 + 0x100 * n)

def State.opBayStat (s : State) (c : Cmd) : Ans :=
  let f := s.param c 0 0 127 (c.par 0 1)
  let p := f.2.2.param c 1 1 (min (128 - f.1) (min 64 (c.room / 8))) (c.par 1 1)
  let ns := (List.range p.1).map (· + f.1)
  if ns.any (fun n => !s.bayAnswers n) then p.2.2.noWith stNotReady (f.2.1 ++ p.2.1)
  else p.2.2.okWith (ns.flatMap p.2.2.bayBytes) (f.2.1 ++ p.2.1)

/-- R290: the channel is LOCKED. -/
def State.bayLocked (s : State) (n : Nat) : Bool := (s.bayCh n).st == 4

/-- The channel that a BAY or BAYU field ID names. -/
def bayOfId (id : Nat) : Option Nat := if id % 8 = 7 then none else some (id % 1024 / 8)

/-- R290: a field of a LOCKED channel changes nothing. -/
def State.opBaySet (s : State) (c : Cmd) : Ans :=
  if (fieldPairs c.params).any (fun p => inBlocks [0x17, 0x18] (p.1 / 1024) 0 && (bayOfId p.1).elim false s.bayLocked)
  then s.no stBayLocked else s.fieldList c (inBlocks [0x17, 0x18])

/-- The gangs of a mask. -/
def gangsOf (m : Nat) : List Nat := (List.range 8).filter (bit m)

/-- R303, R305, R290: the gangs' channels; the command completes when they are DONE. -/
def State.opGangStart (s : State) (c : Cmd) : Ans :=
  let m := c.par 0 1
  if !s.regOn 0x40028040 then s.no stNotReady
  else if (gangsOf m).any (fun g => (s.gangChannels g).any s.bayLocked) then s.no stBayLocked
  else (.long (.gangs m) [], s.regCommand 0x40028040 m)

/-- R303, R290: a stop of gangs one of whose channels is LOCKED is answered BAY_LOCKED. -/
def State.opGangStop (s : State) (c : Cmd) : Ans :=
  let m := c.par 0 1
  if !s.regOn 0x40028040 then s.no stNotReady
  else if (gangsOf m).any (fun g => (s.gangChannels g).any s.bayLocked) then s.no stBayLocked
  else (s.regCommand 0x40028040 (m * 256)).ok []

def State.opBayRestart (s : State) (c : Cmd) : Ans :=
  let p := s.param c 0 0 127 (c.par 0 1)
  if !s.bayAnswers p.1 then p.2.2.noWith stNotReady p.2.1
  else (p.2.2.regCommand (0x40020008 + 0x100 * p.1) 4).okWith [] p.2.1

/-- SER_SEND: characters enter the TX FIFO while it has room; QUEUED counts them. -/
def State.opSerSend (s : State) (c : Cmd) : Ans :=
  let p := s.param c 0 0 127 (c.par 0 1)
  let n := p.1
  if !s.bayAnswers n then p.2.2.noWith stNotReady p.2.1
  else if s.bayLocked n then p.2.2.noWith stBayLocked p.2.1
  else
    let r := (c.params.drop 1).foldl (fun (acc : Nat × State) b =>
      if (acc.2.port n).tx.length < 16 then (acc.1 + 1, acc.2.regCommand (0x40030014 + 0x100 * n) b.toNat) else acc) (0, p.2.2)
    r.2.okWith (leBytes r.1 2) p.2.1

/-- Received bytes out of the RX FIFO. -/
def State.takeRx (s : State) (n : Nat) : Nat → List Byte × State
  | 0 => ([], s)
  | k + 1 =>
    if (s.port n).rx.isEmpty then ([], s) else
    let r := s.portRx n
    let t := r.2.takeRx n k
    (BitVec.ofNat 8 r.1 :: t.1, t.2)

/-- SER_RECV: received bytes, oldest first: those in the port's ring, whose TAIL advances (R314), then those in the RX FIFO. -/
def State.opSerRecv (s : State) (c : Cmd) : Ans :=
  let p := s.param c 0 0 127 (c.par 0 1)
  let m := p.2.2.sizeParam c 2 1 512 1 (c.par 2 2)
  let n := p.1
  if !s.bayAnswers n then m.2.2.noWith stNotReady (p.2.1 ++ m.2.1)
  else if s.bayLocked n then m.2.2.noWith stBayLocked (p.2.1 ++ m.2.1)
  else
    let l := s.reg (kBayu n 4 0)
    let tail := s.reg (kBayu n 8 0)
    let k := if l = 0 then 0 else min m.1 (min (2 ^ l) (((s.port n).head + 65536 - tail) % 65536))
    let r := (List.range k).foldl (fun (acc : List Byte × State) i =>
      let w := acc.2.ncRead (s.reg (kBayu n 4 6) * 64 + 2 * ((tail + i) % 2 ^ l)) 2
      (acc.1 ++ [w.1.getD 0 0#8], w.2)) ([], m.2.2)
    let s1 : State := if k = 0 then r.2 else r.2.regCommand (0x40030008 + 0x100 * n) ((tail + k) % 65536)
    let t := s1.takeRx n (m.1 - k)
    t.2.okWith (r.1 ++ t.1) (p.2.1 ++ m.2.1)

end Sys2Proof.Machine
end

