-- ==== Sys2Proof/Machine/CynOps2.lean ====
section
/-! DEFINITION. Cyntoux's commands of classes 0x3 to 0x7 (Table 12-5): catalog, tenants, cleats and arbiters, gauge, time. -/
namespace Sys2Proof.Machine

/-! ### Class 0x3: the catalog (R286) -/

/-- A tenant's descriptor k as the table in memory holds it. -/
def State.descAddr (s : State) (t k : Nat) : Nat := s.reg (fk 0x40015000 13) * 8192 + 0x80 * t + 0x10 * k
def State.descOf (s : State) (t k : Nat) : Seg :=
  if s.sparOk (s.descAddr t k) then segOf (s.ncReadN (s.descAddr t k) 16).1 else {}

/-- R286: CAT_CMD_TAG and CAT_CMD_WBASE before a write; WBASE holds bits [25:3] of the base. -/
def State.catTag (s : State) (c : Cmd) : State :=
  let base := if c.ten = 0 then 0x20000000 else (s.descOf c.ten 3).base
  ((s.setReg (fk 0x40008004 0) c.ten).setReg (fk 0x40008004 16) c.seq).setReg (fk 0x40008008 3) (bits base 3 23)

/-- R286: the bytes lie where the tenant may reach. -/
def State.catRegionOk (s : State) (t off n : Nat) : Bool :=
  if t = 0 then decide (off + n ≤ catTop) else
  let k := s.reg (fk (0x40008100 + 8 * t) 0)
  let b := s.reg (fk (0x40008100 + 8 * t) 16) * 65536
  let r := s.reg (fk (0x40008104 + 8 * t) 0) * 65536
  let z := s.reg (fk (0x40008104 + 8 * t) 16) * 65536
  (decide (k ≠ 0) && decide (b ≤ off ∧ off + n ≤ b + 64 * 2 ^ k)) || decide (r ≤ off ∧ off + n ≤ r + z)

/-- The pieces of a write, each in one 64-bit word. -/
def catPieces : Nat → Nat → List Byte → List (Nat × List Byte)
  | 0, _, _ => []
  | n + 1, off, bs =>
    if bs.isEmpty then [] else
    let k := 8 - off % 8
    (off, bs.take k) :: catPieces n (off + k) (bs.drop k)

/-- R286, R188: Cyntoux's words arrive at the write buffer in order: the command completes when all are accepted, waits for room
with the words left, or ends with the first refusal. -/
def State.catPost (s : State) : List (Nat × List Byte) → Ans
  | [] => s.ok []
  | (o, bs) :: t =>
    match s.wbAccept .cc o bs (s.ccTag o) with
    | (.accepted, s1) => s1.catPost t
    | (.full, s1) => (.long (.catalog ((o, bs) :: t)) [], s1)
    | (.busErr, s1) => s1.no stNotReady
    | (.refused, s1) => s1.no (if s.wbRefusal .cc o = some (.refused, some 6) then stVerifyFail else stEnergyRefused)

/-- An entry in bytes. -/
def entryBytes (e : Nat) : List Byte := leBytes e 16

/-- One entry of a bucket as a lookup reads it. -/
inductive EntRead where
  | entry (e : Nat) (poisoned : Bool) | busErr | wait
  deriving DecidableEq, Repr

def State.readEntry (s : State) (off : Nat) : EntRead × State :=
  let a := s.catRead (s.coreReq 0) off
  let b := a.2.catRead (s.coreReq 0) (off + 8)
  match a.1, b.1 with
  | .wait, _ | _, .wait => (.wait, b.2)
  | .busErr, _ | _, .busErr => (.busErr, b.2)
  | .data x, .data y => (.entry (ofLe x + ofLe y * 2 ^ 64) false, b.2)
  | .data x, .poisoned => (.entry (ofLe x) true, b.2)
  | .poisoned, .data y => (.entry (ofLe y * 2 ^ 64) true, b.2)
  | .poisoned, .poisoned => (.entry 0 true, b.2)

/-- The eight entries of a key's buckets: their catalog offsets and contents, or what keeps them from being read. -/
inductive BucketRead where
  | entries (offs : List Nat) (es : List (Nat × Bool)) | busErr | wait
  deriving DecidableEq, Repr

def State.readBuckets (s : State) (t key : Nat) : BucketRead × State :=
  let offs := entryOffs (bucketsOf (s.reg (fk (0x40008100 + 8 * t) 0)) (s.reg (fk (0x40008100 + 8 * t) 16)) key)
  let r := offs.foldl (fun (acc : List EntRead × State) o =>
    let e := acc.2.readEntry o
    (acc.1 ++ [e.1], e.2)) ([], s)
  if r.1.contains .wait then (.wait, s)
  else if r.1.contains .busErr then (.busErr, r.2)
  else (.entries offs (r.1.map (fun e => match e with | .entry x p => (x, p) | _ => (0, false))), r.2)

/-- The entry placed outside both buckets of a key, if it is live (R185). -/
def State.overflowOf (s : State) (t key : Nat) : Option Nat :=
  (s.cyn.overflow.find? (fun o => o.1 == t && o.2.1 == key)).map (·.2.2)

def State.setOverflow (s : State) (t key : Nat) (e : Option Nat) : State :=
  let rest := s.cyn.overflow.filter (fun o => !(o.1 == t && o.2.1 == key))
  { s with cyn := { s.cyn with overflow := rest ++ e.elim [] (fun x => [(t, key, x)]) } }

/-- R185: a STATE that a lookup matches. -/
def liveState (e : Nat) : Bool := [1, 2, 3, 5].contains (bits e 55 4)

/-- The position of the entry that holds a key. -/
def holderOf (key : Nat) (es : List (Nat × Bool)) : Option Nat :=
  findIdx? (fun e : Nat × Bool => !e.2 && liveState e.1 && bits e.1 0 48 == key) es

def State.opCatLookup (s : State) (c : Cmd) : Ans :=
  let key := c.par 0 6
  match s.readBuckets c.ten key with
  | (.wait, s1) => (.wait, s1)
  | (.busErr, s1) => s1.no stNotReady
  | (.entries _ es, s1) =>
    match lookRule key es with
    | .hit e => s1.ok (entryBytes e)
    | .deferred (some e) => (.done stDeferred (entryBytes e) [], s1)
    | .poisoned => s1.no stPoisoned
    | .miss => s1.no stNotFound
    | .deferred none =>
      match s1.overflowOf c.ten key with
      | some e => if liveState e then s1.ok (entryBytes e) else s1.no stNotFound
      | none => s1.no stNotFound

/-- The OVF bit of an entry (Table 9-4). -/
def ovfBit : Nat := 119

/-- R286: an entry's two words, word 0 first; entry 0 of a bucket keeps the bucket's OVF. -/
def entryWrite (offs : List Nat) (es : List (Nat × Bool)) (i e : Nat) : List (Nat × List Byte) :=
  let keep := i % 4 == 0 && bit (es.getD i (0, false)).1 ovfBit
  let x := setBit e ovfBit keep
  let o := offs.getD i 0
  [(o, leBytes x 8), (o + 8, leBytes (x / 2 ^ 64) 8)]

/-- R185, R286: an entry is placed outside both buckets and OVF is set in the first entry 0 that can be read; a refusal leaves
nothing placed. -/
def State.placeOutside (s : State) (t key e : Nat) (offs : List Nat) (es : List (Nat × Bool)) : Ans :=
  let r : Ans := match [0, 4].find? (fun i => !(es.getD i (0, false)).2) with
    | none => s.ok []
    | some i =>
      if bit (es.getD i (0, false)).1 ovfBit then s.ok []
      else s.catPost [(offs.getD i 0 + 8, leBytes (setBit (es.getD i (0, false)).1 ovfBit true / 2 ^ 64) 8)]
  match r.1 with
  | .done st _ _ => if st = stOk then (r.1, r.2.setOverflow t key (some e)) else r
  | _ => (r.1, r.2.setOverflow t key (some e))

/-- R286, R185: the entry goes to the one that holds KEY, to the first free one, or outside both buckets. A key is kept in one place. -/
def State.opCatPut (s : State) (c : Cmd) : Ans :=
  let e := ofLe (c.params.take 16)
  let key := bits e 0 48
  match s.readBuckets c.ten key with
  | (.wait, s1) => (.wait, s1)
  | (.busErr, s1) => s1.no stNotReady
  | (.entries offs es, s1) =>
    let s2 : State := s1.catTag c
    match holderOf key es with
    | some i => s2.catPost (entryWrite offs es i e)
    | none =>
      if (s2.overflowOf c.ten key).elim false liveState then (s2.setOverflow c.ten key (some (setBit e ovfBit false))).ok []
      else match findIdx? (fun x : Nat × Bool => !x.2 && (bits x.1 55 4 == 0 || bits x.1 55 4 == 4)) es with
        | some i => (s2.setOverflow c.ten key none).catPost (entryWrite offs es i e)
        | none => s2.placeOutside c.ten key (setBit e ovfBit false) offs es

/-- R286: STATE 4 goes into the entry that holds KEY. -/
def State.opCatDelete (s : State) (c : Cmd) : Ans :=
  let key := c.par 0 6
  match s.readBuckets c.ten key with
  | (.wait, s1) => (.wait, s1)
  | (.busErr, s1) => s1.no stNotReady
  | (.entries offs es, s1) =>
    match holderOf key es with
    | some i => (s1.catTag c).catPost [(offs.getD i 0, leBytes (setBits (es.getD i (0, false)).1 55 4 4) 8)]
    | none =>
      if (s1.overflowOf c.ten key).elim false liveState then (s1.setOverflow c.ten key none).ok [] else s1.no stNotFound

/-- R187: the words of a catalog read. -/
def State.catWords (s : State) : List Nat → CatRes × State
  | [] => (.data [], s)
  | o :: t =>
    match s.catRead (s.coreReq 0) o with
    | (.data w, s1) =>
      match s1.catWords t with
      | (.data r, s2) => (.data (w ++ r), s2)
      | x => x
    | x => x

def State.opCatRead (s : State) (c : Cmd) : Ans :=
  let off := c.par 0 4
  let p := s.multParam c 1 8 512 (c.par 4 2)
  let n := p.1
  if !s.catRegionOk c.ten off n then p.2.2.noWith stNotPermitted p.2.1 else
  let lo := off / 8 * 8
  match p.2.2.catWords ((List.range ((off + n + 7) / 8 - off / 8)).map (fun i => lo + 8 * i)) with
  | (.data bs, s1) => s1.okWith ((bs.drop (off - lo)).take n) p.2.1
  | (.poisoned, s1) => s1.noWith stPoisoned p.2.1
  | (.busErr, s1) => s1.noWith stNotReady p.2.1
  | (.wait, _) => (.wait, s)

def State.opCatWrite (s : State) (c : Cmd) : Ans :=
  let off := c.par 0 4
  let d := c.params.drop 4
  if !s.catRegionOk c.ten off d.length then s.no stNotPermitted
  else (s.catTag c).catPost (catPieces 66 off d)

/-- The fields CAT_TENt of one tenant. -/
def State.opCatRegion (s : State) (c : Cmd) : Ans :=
  s.fieldList c (fun b o => b == 8 && (o == 0x100 + 8 * c.ten || o == 0x104 + 8 * c.ten))

/-! ### Class 0x4: tenants (R287) -/

def State.opTenStat (s : State) (c : Cmd) : Ans := s.ok (u32s [s.wordView (0x40015200 + 4 * c.ten)])

/-- A segment covers part of an address range. -/
def Seg.meets (g : Seg) (a n : Nat) : Bool := g.typ != 0 && rangesMeet g.base (g.limit + 1) a n

/-- R201: the DMA registers that no s7 window may hold, whatever is granted: all but the alias page. -/
def dmaBarred (g : Seg) : Bool := g.meets 0x4000E000 0x800 || g.meets 0x4000E840 0x7C0

/-- R148: why a descriptor is refused: it meets a segment of another tenant, of which only s6 may meet s6; it reaches the descriptor
or the run table; or as s7 it reaches a block that has not been granted, or DMA beyond its alias page. -/
def State.segRefused (s : State) (t k : Nat) (g : Seg) : Bool :=
  let others := (List.range 64).filter (· != t)
  (g.typ != 0 && others.any (fun u => (List.range 8).any (fun j =>
      !(k == 6 && j == 6) && (s.descOf u j).meets g.base (g.limit + 1)))) ||
    g.meets (s.reg (fk 0x40015000 13) * 8192) 0x2000 || g.meets (s.reg (fk 0x40015004 13) * 8192) 0x2000 ||
    (k == 7 && (dmaBarred g || (List.range 0x1D).any (fun b => g.meets (blockBase b) (blockSize b) && !s.boot.grants.contains (t, b))))

def State.opTenSeg (s : State) (c : Cmd) : Ans :=
  let p := s.param c 0 0 7 (c.par 0 1)
  let d := (c.params.drop 4).take 16
  if !s.sparOk (s.descAddr c.ten p.1) then p.2.2.noWith stNotReady p.2.1
  else if s.segRefused c.ten p.1 (segOf d) then p.2.2.noWith stNotPermitted p.2.1
  else (p.2.2.ncWriteN (s.descAddr c.ten p.1) d).okWith [] p.2.1

/-- R162: ACTIVE and KEY_REQ are fields of TEN_CFGt, which take effect at the tick. -/
def State.opTenActivate (s : State) (c : Cmd) : Ans :=
  let r := s.applyFields [(0x15 * 1024 + 16 + 4 * c.ten, c.par 0 1), (0x15 * 1024 + 17 + 4 * c.ten, c.par 1 1)]
  r.2.okWith [] r.1

/-- R164: a reset with cause 1; while one runs, REFUSED is set and the answer is BUSY. -/
def State.opTenReset (s : State) (c : Cmd) : Ans :=
  if s.ten.reset.isSome then (s.tenGo c.ten 1).no stBusy else (.long (.tenReset c.ten) [], s.tenGo c.ten 1)

/-- TEN_LOAD: into s0 of a STOPPED tenant. -/
def State.opTenLoad (s : State) (c : Cmd) : Ans :=
  let g := s.descOf c.ten 0
  let off := c.par 0 4
  let d := c.params.drop 4
  if g.typ = 0 || g.limit < off + d.length - 1 then s.no stNotPermitted
  else if s.tenState c.ten != 0 then s.no stBusy
  else if !(s.regionOn (regionOf (g.base + off)) && s.regionOn (regionOf (g.base + off + d.length - 1))) then s.no stNotReady
  else (s.ncWriteN (g.base + off) d).ok []

def State.opSlotStat (s : State) (c : Cmd) : Ans :=
  let f := s.param c 0 0 63 (c.par 0 1)
  let p := f.2.2.param c 1 1 (min (64 - f.1) (min 64 (c.room / 8))) (c.par 1 1)
  p.2.2.okWith (((List.range p.1).map (· + f.1)).flatMap (fun n =>
    u32s [p.2.2.wordView (0x40004108 + 0x10 * n), p.2.2.wordView (0x4000410C + 0x10 * n)])) (f.2.1 ++ p.2.1)

/-! ### Class 0x5: cleats and arbiters (R288) -/

/-- R288: VALUE, LEASE, INFO; from a tenant's mailbox only with rights to the group. -/
def State.opCleatRead (s : State) (c : Cmd) : Ans :=
  let k := c.par 0 1
  if !s.isUp 48 then s.no stNotReady
  else if (mailboxOf c.src).elim false (fun t => !s.rights (k / 16) t) then s.no stNotPermitted
  else s.ok (u32s [(s.cleat k).value, (s.cleat k).lease, s.cleatInfo k])

def State.opCleatWrite (s : State) (c : Cmd) : Ans :=
  if !s.isUp 48 then s.no stNotReady else (s.cleatStore (c.par 0 1) 0 64 (c.par 4 4) false).2.ok []

def kCycles : Key := fk 0x40006014 0

/-- R288: the CC tries ACAS from each free value: the cleat is taken, with the status that the value found gives, or not. -/
def State.cleatTry (s : State) (k : Nat) : Option (Nat × Nat) × State :=
  let v := (s.cleat k).value
  if freeValue v then (some (v, if v = 0 then stOk else stOwnerReset), (s.cleatSwap k 0 64 v (s.token 64) false).2) else (none, s)

def State.opCleatAcquire (s : State) (c : Cmd) : Ans :=
  let k := c.par 0 1
  if !s.isUp 48 then s.no stNotReady else
  match s.cleatTry k with
  | (some (v, st), s1) => (.done st (leBytes v 4) [], s1)
  | (none, s1) => (.long (.cleat k 1 (s.reg kCycles) 0) [], s1)

/-- R288: a further try; the fifth is the last. -/
def State.cleatRetry (s : State) (k tries cycles due : Nat) : Ans :=
  match s.cleatTry k with
  | (some (v, st), s1) => (.done st (leBytes v 4) [], s1)
  | (none, s1) =>
    if 5 ≤ tries + 1 then (.done (if cycles < s.reg kCycles then stWaitBroken else stBusy) (leBytes (s.cleat k).value 4) [], s1)
    else (.long (.cleat k (tries + 1) cycles (due - 1)) [], s1)

def State.opArbSet (s : State) (c : Cmd) : Ans := s.fieldList c (inBlocks [0x05, 0x06])

/-! ### Class 0x6: the gauge -/

/-- R54: the values of one update. -/
def State.opGaugeRead (s : State) (_c : Cmd) : Ans :=
  s.ok (u32s [s.reg kEnergy, s.reg (fk 0x40001084 0), s.reg (fk 0x40001088 0)] ++ leBytes (s.reg kVstore) 2 ++
    leBytes (s.reg kStamp) 2 ++ [BitVec.ofNat 8 s.allow, 0#8, 0#8, 0#8])

def State.opHarvSet (s : State) (c : Cmd) : Ans := s.fieldList c (inBlocks [0x01])

/-! ### Class 0x7: time (R104, R105) -/

def State.opTimeGet (s : State) (_c : Cmd) : Ans :=
  let r := (s.regCommand 0x40003000 2).busWords [0x40003010, 0x40003014, 0x40003018, 0x40003040]
  r.2.ok r.1

def State.opTimeSet (s : State) (c : Cmd) : Ans :=
  let r := s.writeWords [(0x40003004, c.par 0 4), (0x40003008, c.par 4 4)]
  (r.2.regCommand 0x40003000 1).okWith [] r.1

def State.opAlarmSet (s : State) (c : Cmd) : Ans := s.fieldList c (fun b o => b == 3 && decide (0x020 ≤ o ∧ o < 0x040))

end Sys2Proof.Machine
end

