-- ==== Sys2Proof/Machine/CynOps3.lean ====
section
/-! DEFINITION. Cyntoux's commands of classes 0x8 to 0xE (Table 12-5): ADC, SFU, the firmware store, security, errors. -/
namespace Sys2Proof.Machine

/-! ### Class 0x8: ADC (R322, R330) -/

def State.opAdcSet (s : State) (c : Cmd) : Ans := s.fieldList c (inBlocks [0x10])

/-- R322: word 1, then word 0, of each entry. -/
def State.opAdcTable (s : State) (c : Cmd) : Ans :=
  let k := s.param c 0 0 3 (c.par 0 1)
  let f := k.2.2.param c 1 0 63 (c.par 1 1)
  let n := f.2.2.param c 2 1 (64 - f.1) (c.par 2 1)
  if !s.regOn (seqAddr k.1 0) then n.2.2.noWith stNotReady (k.2.1 ++ f.2.1 ++ n.2.1) else
  let r := n.2.2.writeWords ((List.range n.1).flatMap (fun i =>
    let a := seqAddr k.1 (f.1 + i)
    [(a + 4, c.par (8 + 8 * i) 4), (a, c.par (4 + 8 * i) 4)]))
  r.2.okWith [] (k.2.1 ++ f.2.1 ++ n.2.1 ++ r.1)

/-- R294, Table 14-1: a result word of a bay monitor's entry is held for its channel. -/
def State.holdAdc (s : State) (w : Nat) : State :=
  let cv := bits w 18 2
  let inp := s.reg (fk (seqAddr cv (bits w 12 6)) 0)
  if 0x40 ≤ inp ∧ inp < 0x80 then
    { s with cyn := { s.cyn with adcHeld := Tab.set (fun _ => 0) s.cyn.adcHeld (2 * (32 * cv + inp % 32) + (inp - 0x40) / 32) (bits w 0 12) } }
  else s

/-- R330: words from TAIL onwards, whose number TAIL advances by. -/
def State.opAdcRingRead (s : State) (c : Cmd) : Ans :=
  let q := s.param c 0 0 3 (c.par 0 1)
  let m := q.2.2.multParam c 2 4 512 (c.par 2 2)
  let a := 0x40010100 + 0x10 * q.1
  if !s.regOn a then m.2.2.noWith stNotReady (q.2.1 ++ m.2.1) else
  let l := s.reg (fk (a + 4) 0)
  let tail := s.reg (fk (a + 8) 0)
  let n := min (m.1 / 4) (min (2 ^ l) ((s.reg (fk (a + 0xC) 0) + 65536 - tail) % 65536))
  let r := (List.range n).foldl (fun (acc : List Byte × State) i =>
    let w := acc.2.ncReadN (s.reg (fk a 6) * 64 + 4 * ((tail + i) % 2 ^ l)) 4
    (acc.1 ++ w.1, w.2.holdAdc (ofLe w.1))) ([], m.2.2)
  let s1 : State := if n = 0 then r.2 else r.2.regCommand (a + 8) ((tail + n) % 65536)
  s1.okWith r.1 (q.2.1 ++ m.2.1)

/-! ### Class 0x9: SFU (R335, R347) -/

/-- R347: words into a user slot; with an accepted job using the slot they wait, and the command completes with them. A word outside
the slot's image is not written, and the manual names no status for it. -/
def State.opSfuTableLoad (s : State) (c : Cmd) : Ans :=
  let p := s.param c 0 8 15 (c.par 0 1)
  let a := tableBase p.1 + c.par 2 2
  let ws := (List.range ((c.params.length - 4) / 4)).map (fun i => (a + 4 * i, c.par (4 + 4 * i) 4))
  if !s.isUp 46 then p.2.2.noWith stNotReady p.2.1
  else if ws.any (fun w => !(tableWritable w.1 && tableSlot w.1 == p.1)) then p.2.2.noFree p.2.1
  else
    let s1 : State := ws.foldl (fun s w => s.tableWrite w.1 w.2) p.2.2
    if s1.tabWait.any (fun w => tableSlot w.1 == p.1) then (.long (.table p.1) p.2.1, s1) else s1.okWith [] p.2.1

/-- SFU_TABLE_CRC: the CRC-32C of a slot's 3,088-byte image (R347); of a standard image the value R349 gives it (log entry 30). -/
def State.opSfuTableCrc (s : State) (c : Cmd) : Ans :=
  let p := s.param c 0 0 15 (c.par 0 1)
  if !s.isUp 46 then p.2.2.noWith stNotReady p.2.1 else
  let b := p.2.2.tableBytes (tableBase p.1) 3088
  b.2.okWith (leBytes (if p.1 < 8 && p.2.2.flag kStdReady then stdCrc p.1 else crc32c b.1) 4) p.2.1

/-- R335: the job is offered through the CC's SFUQ; a refused offer is repeated, while the command executes (R282). -/
def State.opSfuRun (s : State) (c : Cmd) : Ans :=
  if !s.isUp 46 then s.no stNotReady else
  let r := s.sfuOffer 0 (c.params.take 32) (s.core 0).mset 0 64 false
  if bit r.1 31 then (.long (.sfu (r.1 % 65536)) [], r.2)
  else if bit r.1 30 then r.2.no stEnergyRefused
  else (.wait, s)

/-! ### Class 0xA: the firmware store (R374–R383) -/

/-- The end of the NOR. -/
def norSize : Nat := 0x800000

/-- NOR_READ. Bytes past the end of the NOR are not in it: the manual names no status. -/
def State.opNorRead (s : State) (c : Cmd) : Ans :=
  let off := c.par 0 4
  let p := s.sizeParam c 1 1 512 1 (c.par 4 2)
  if !s.isUp 44 then p.2.2.noWith stNotReady p.2.1
  else if s.norBusy then (.wait, s)
  else if norSize < off + p.1 then p.2.2.noFree p.2.1
  else
    let r := p.2.2.norRead (norBase + off) p.1
    r.2.okWith r.1 p.2.1

/-- R374: a range reaches rows that NOR commands do not write. -/
def norForbidden (a n : Nat) : Bool := decide (a < 0x10000 ∨ 0x630000 < a + n)

/-- An operation is given to NORCTL: address, length, data, command. -/
def State.norIssue (s : State) (op off : Nat) (data : List Byte) (andP : Bool) : State :=
  let s1 : State := (s.regCommand 0x40009000 off).regCommand 0x40009004 (max data.length 1)
  let s2 : State := (List.range ((data.length + 3) / 4)).foldl (fun s i => s.regCommand (0x40009100 + 4 * i) (leAt data (4 * i) 4)) s1
  s2.regCommand 0x40009008 (op + ofBool andP * 256)

def State.opNorErase (s : State) (c : Cmd) : Ans :=
  let off := c.par 0 4
  let p := s.param c 1 0 1 (c.par 4 1)
  let n := if p.1 = 0 then 4096 else 65536
  if !s.isUp 44 then p.2.2.noWith stNotReady p.2.1
  else if norForbidden (off / n * n) n then p.2.2.noWith stNotPermitted p.2.1
  else if s.norHand then (.wait, s)
  else (.long (.nor false) p.2.1, p.2.2.norIssue (1 + p.1) off [] false)

/-- R378, R382: a program within one page. -/
def State.opNorProgram (s : State) (c : Cmd) : Ans :=
  let off := c.par 0 4
  let d := c.params.drop 6
  if !s.isUp 44 then s.no stNotReady
  else if norForbidden off d.length then s.no stNotPermitted
  else if s.norHand then (.wait, s)
  else (.long (.nor true) [], s.norIssue 3 off d (bit (c.par 4 1) 0))

/-- R383: the new boot record and the copy that takes it. -/
def State.newRecord (s : State) (slot : Nat) : Nat × List Byte :=
  let g := fun i => (s.bootCopy i).map (·.1)
  let top := max ((g 0).getD 0) ((g 1).getD 0)
  let gen := if (g 0).isNone && (g 1).isNone then 1 else top + 1
  let copy := match g 0, g 1 with
    | none, _ => 0
    | some _, none => 1
    | some a, some b => if b < a then 1 else 0
  let h := leBytes 0xB0C4EB64 4 ++ leBytes gen 4 ++ leBytes slot 1 ++ List.replicate 19 0#8
  (copy, h ++ leBytes (crc32c h) 4)

/-- R383: the slot's image is checked; then a copy's sector is erased and the record programmed and verified. -/
def State.opImageActivate (s : State) (c : Cmd) : Ans :=
  let p := s.param c 0 0 1 (c.par 0 1)
  if !s.isUp 44 then p.2.2.noWith stNotReady p.2.1
  else if s.norHand then (.wait, s)
  else if !s.imageOk p.1 then p.2.2.noWith stImageRejected p.2.1
  else
    let r := s.newRecord p.1
    (.long (.image r.1 0 r.2) p.2.1, p.2.2.norIssue 1 (0x1000 * r.1) [] false)

/-- What a NOR result ends a command with (R378, R379, R289). -/
def State.norOutcome (s : State) (program : Bool) : Ans :=
  match s.reg kNorResult with
  | 0 => s.ok []
  | 1 => (.done stNotErased (if program then leBytes (s.reg kNorOff) 4 else []) [], s)
  | 2 => (.done stVerifyFail (if program then leBytes (s.reg kNorOff) 4 else []) [], s)
  | _ => s.no stNotPermitted

/-! ### Class 0xB: security (R289, R401, R206–R208) -/

/-- A CRYPT operation by Cyntoux: bytes into the buffer, the command, and its end. -/
def State.cryptDo (s : State) (op slot : Nat) (bs : List Byte) : Nat × State :=
  let s1 : State := { s with crypt := { s.crypt with buf := s.bufWith 0 (toNats bs) } }
  let r := s1.cryptResult op slot bs.length (placeTag 0 s.crypt.count)
  let s2 : State := { r.2 with crypt := { r.2.crypt with count := (s.crypt.count + 1) % 8192 } }
  (r.1.status, s2.cryptEnd r.1)

/-- R208, R217: CRYPT is released and accepts an operation of the CC; an answer in place of the operation otherwise. -/
def State.cryptFree (s : State) (k : Ans) : Ans :=
  if !s.isUp 49 then s.no stNotReady else if !s.placeFree 18 1 || s.arbFrozen 18 then (.wait, s) else k

/-- R289: the wrapped key goes into the tenant's slot. The unwrap's 48 beats are asked of instance 18 (R208, log entry 141). -/
def State.opKeyLoad (s : State) (c : Cmd) : Ans :=
  s.cryptFree (
    match s.useArb 18 cryptReq with
    | none => (.wait, s)
    | some s1 =>
      let r := s1.cryptDo 1 c.ten (c.params.take 72)
      if r.1 = 0 then r.2.ok [] else r.2.no stVerifyFail)

def State.opKeyClear (s : State) (c : Cmd) : Ans := s.cryptFree ((s.cryptDo 2 c.ten []).2.ok [])

/-- R289: the evidence. -/
def State.opAttest (s : State) (c : Cmd) : Ans :=
  s.cryptFree (
    let body := leBytes (s.wordView 0x40000FF0) 4 ++ leBytes Config.serial.toNat 8 ++ leBytes s.frameNum 4 ++ s.boot.digest ++
      c.params.take 32
    let h := (s.cryptDo 3 0 body).2
    let g := (h.cryptDo 6 0 (h.crypt.buf.take 32)).2
    g.ok (body ++ (g.crypt.buf.drop 32).take 64))

def State.opAttestKey (s : State) (_c : Cmd) : Ans :=
  s.cryptFree (let r := (s.cryptDo 8 0 []).2; r.ok (r.crypt.buf.take 64))

/-- R401: 16 random bytes, which replace the previous challenge. -/
def State.opUnlockChallenge (s : State) (_c : Cmd) : Ans :=
  s.cryptFree (
    let r := (s.cryptDo 7 0 []).2
    let ch := r.crypt.buf.take 16
    State.ok { r with serv := { r.serv with challenge := some ch } } ch)

/-- R401: a response consumes the challenge; after three failures none is taken until the next warm reset. -/
def State.opUnlockResponse (s : State) (c : Cmd) : Ans :=
  s.cryptFree (
    let s0 : State := { s with serv := { s.serv with challenge := none } }
    match s.serv.challenge with
    | none => s0.no stVerifyFail
    | some ch =>
      if 3 ≤ s.serv.unlockFails then s0.no stVerifyFail else
      let h := (s0.cryptDo 3 0 (ch ++ leBytes Config.serial.toNat 8)).2
      let v := h.cryptDo 5 0 (h.crypt.buf.take 32 ++ c.params.take 64)
      if v.1 = 0 then State.ok { v.2 with serv := { v.2.serv with unlocked := true } } []
      else State.no { v.2 with serv := { v.2.serv with unlockFails := v.2.serv.unlockFails + 1 } } stVerifyFail)

/-! ### Class 0xE: errors (R360, R365) -/

def State.opErrRead (s : State) (c : Cmd) : Ans :=
  let p := s.sizeParam c 0 1 16 32 (c.par 0 1)
  p.2.2.okWith ((List.range (min p.1 s.err.count)).flatMap (fun i => (s.err.recAt i).bytes)) p.2.1

def State.opErrPop (s : State) (c : Cmd) : Ans :=
  let p := s.param c 0 1 32 (c.par 0 1)
  let s1 : State := p.2.2.regCommand 0x40014010 p.1
  s1.okWith (leBytes s1.err.popped 1) p.2.1

def State.opErrStat (s : State) (_c : Cmd) : Ans := s.ok (u32s [s.wordView 0x40014004, s.wordView 0x40014008])

end Sys2Proof.Machine
end

