-- ==== Sys2Proof/Machine/Cyn.lean ====
section
/-! DEFINITION. Cyntoux's command packets (R268–R291): acceptance, duplicates, the queue, execution and completion; the shelf
sequences (R15, R256, R398) and the CC's interrupts (R67, R159, R358); the commands of Table 12-5 as they execute. -/
namespace Sys2Proof.Machine

/-! ### The opcode table (Table 12-5) -/

/-- An opcode's minimum allowance, whether tenants' mailboxes may send it, and whether it may be posted. -/
structure OpInfo where
  min : Nat
  tn : Bool
  post : Bool
  deriving DecidableEq, Repr

/-- Table 12-5. Class 0xF serves manufacturing test; this part implements none of it (R285). -/
def opInfo (op : Nat) : Option OpInfo :=
  match op with
  | 0x0000 => some ⟨2, true, true⟩
  | 0x0001 => some ⟨2, true, false⟩
  | 0x0002 => some ⟨2, false, true⟩
  | 0x0003 | 0x0004 | 0x0005 => some ⟨2, false, false⟩
  | 0x0006 => some ⟨2, false, true⟩
  | 0x0007 => some ⟨2, false, false⟩
  | 0x1000 => some ⟨2, true, false⟩
  | 0x1001 => some ⟨2, false, true⟩
  | 0x1002 => some ⟨6, false, true⟩
  | 0x1003 | 0x1004 => some ⟨2, false, true⟩
  | 0x2000 => some ⟨6, false, false⟩
  | 0x2001 | 0x2002 | 0x2003 | 0x2004 | 0x2005 => some ⟨6, false, true⟩
  | 0x2006 => some ⟨6, false, false⟩
  | 0x3000 => some ⟨3, true, false⟩
  | 0x3001 | 0x3002 => some ⟨4, true, true⟩
  | 0x3003 => some ⟨3, true, false⟩
  | 0x3004 => some ⟨4, true, true⟩
  | 0x3005 => some ⟨2, false, true⟩
  | 0x4000 => some ⟨2, true, false⟩
  | 0x4001 | 0x4002 => some ⟨2, false, true⟩
  | 0x4003 => some ⟨2, true, false⟩
  | 0x4004 => some ⟨2, false, true⟩
  | 0x4005 => some ⟨2, false, false⟩
  | 0x5000 => some ⟨2, true, false⟩
  | 0x5001 => some ⟨2, false, true⟩
  | 0x5002 => some ⟨2, false, false⟩
  | 0x5003 => some ⟨2, false, true⟩
  | 0x6000 => some ⟨2, true, false⟩
  | 0x6001 => some ⟨2, false, true⟩
  | 0x7000 => some ⟨2, true, false⟩
  | 0x7001 | 0x7002 => some ⟨2, false, true⟩
  | 0x8000 | 0x8001 => some ⟨6, false, true⟩
  | 0x8002 => some ⟨6, false, false⟩
  | 0x9000 => some ⟨6, false, true⟩
  | 0x9001 => some ⟨6, true, false⟩
  | 0x9002 => some ⟨6, false, false⟩
  | 0xA000 => some ⟨2, false, false⟩
  | 0xA001 | 0xA002 => some ⟨6, false, true⟩
  | 0xA003 => some ⟨6, false, false⟩
  | 0xB000 => some ⟨2, false, false⟩
  | 0xB001 => some ⟨2, false, true⟩
  | 0xB002 | 0xB003 | 0xB004 | 0xB005 => some ⟨2, false, false⟩
  | 0xE000 => some ⟨2, false, false⟩
  | 0xE001 => some ⟨2, false, true⟩
  | 0xE002 => some ⟨2, false, false⟩
  | _ => none

/-- Row 9: LEN is legal for the opcode (Table 12-5). -/
def opLenOk (op : Nat) (ps : List Byte) : Bool :=
  let n := ps.length
  let units := fun (head unit lo hi : Nat) => decide (head + lo ≤ n ∧ n ≤ head + hi ∧ (n - head) % unit = 0)
  match op with
  | 0x0002 | 0x1004 | 0x2001 | 0x3005 | 0x5003 | 0x6001 | 0x7002 | 0x8000 => units 0 6 6 1020
  | 0x0003 => units 0 2 2 256
  | 0x0004 => n == 6
  | 0x0007 | 0x1001 | 0x2002 | 0x2003 | 0x2004 | 0x5000 | 0x5002 | 0x9001 | 0xA003 | 0xE000 | 0xE001 => n == 1
  | 0x2000 | 0x4002 | 0x4005 => n == 2
  | 0x2005 => units 1 1 1 256
  | 0x2006 | 0x8002 => n == 4
  | 0x3000 | 0x3002 | 0x3003 | 0xA000 => n == 6
  | 0x3001 => n == 16
  | 0x3004 => units 4 8 8 512
  | 0x4001 => n == 20
  | 0x4004 => units 4 1 1 512
  | 0x5001 | 0x7001 => n == 8
  | 0x8001 => units 4 8 8 512 && (n - 4) / 8 == leAt ps 2 1
  | 0x9000 => units 4 4 4 512
  | 0x9002 | 0xB002 => n == 32
  | 0xA001 => n == 5
  | 0xA002 => units 6 1 1 256 && decide (leAt ps 0 4 % 256 + (n - 6) ≤ 256)
  | 0xB000 => n == 72
  | 0xB005 => n == 64
  | _ => n == 0

/-- R285: a tenant-scoped opcode. -/
def opScoped (op : Nat) : Bool := op / 4096 == 3 || op / 4096 == 4 || op == 0x5000 || op == 0xB000 || op == 0xB001

/-- R55: the minimum allowance; TEN_ACTIVATE needs 5 to set ACTIVE. -/
def Cmd.min (c : Cmd) (i : OpInfo) : Nat := if c.op = 0x4002 && c.par 0 1 != 0 then 5 else i.min

/-- Row 8: R285, R279. -/
def Cmd.permitted (c : Cmd) (i : OpInfo) : Bool :=
  (match mailboxOf c.src with
   | some t => t == 0 || (i.tn && c.ten == t)
   | none => true) && (!c.posted || i.post)

/-- R282: the resource that a command holds while it executes, or that it needs. -/
def Cmd.resource (c : Cmd) : Option (Nat × Nat) :=
  if c.op = 0x1002 ∨ c.op = 0x1003 ∨ c.op = 0x2002 then some (0, 0)
  else if c.cls = 0xA then some (1, 0)
  else if c.op = 0x4003 then some (2, 0)
  else if c.op = 0x5002 then some (3, c.par 0 1)
  else if c.op = 0x9002 then some (4, 0)
  else none

/-- A command of Table 12-5 that is marked L. -/
def Cmd.isLong (c : Cmd) : Bool :=
  [0x1002, 0x1003, 0x2002, 0x4003, 0x5002, 0x9002, 0xA001, 0xA002, 0xA003].contains c.op

/-- R282: an executing L command holds the resource. -/
def State.resourceHeld (s : State) (c : Cmd) : Bool :=
  c.resource.isSome && s.cyn.longs.any (fun l => l.1.isLong && l.1.resource == c.resource)

/-- Rows 6 to 12 of Table 12-4 and the resource of row 13; `none` when the command may execute. -/
def State.refusal (s : State) (c : Cmd) : Option Nat :=
  if !s.boot.accepting then some stBusy
  else if c.cls = 0xF then some (if s.debugLocked then stNotPermitted else stBadOpcode)
  else match opInfo c.op with
    | none => some stBadOpcode
    | some i =>
      if !c.permitted i then some stNotPermitted
      else if !opLenOk c.op c.params then some stBadLength
      else if opScoped c.op && s.resetting c.ten then some stTenantResetting
      else if (c.op == 0x3000 || c.op == 0x3001 || c.op == 0x3002) && s.reg (fk (0x40008100 + 8 * c.ten) 0) == 0 then some stTenantUnknown
      else if s.allow < c.min i then some stEnergyRefused
      else if s.resourceHeld c then some stBusy
      else none

/-! ### Execution (R281, R282) -/

/-- Table 12-5: what a command does. -/
def State.run (s : State) (c : Cmd) : Ans :=
  match c.op with
  | 0x0000 => s.opNop c
  | 0x0001 => s.opIdent c
  | 0x0002 => s.opCfgSet c
  | 0x0003 => s.opCfgGet c
  | 0x0004 => s.opRegRead c
  | 0x0005 => s.opRptRead c
  | 0x0006 => s.opRptClear c
  | 0x0007 => s.opWarmReset c
  | 0x1000 => s.opPowerStat c
  | 0x1001 => s.opReefReq c
  | 0x1002 => s.opShelfWake c
  | 0x1003 => s.opShelfSleep c
  | 0x1004 => s.opPowerSet c
  | 0x2000 => s.opBayStat c
  | 0x2001 => s.opBaySet c
  | 0x2002 => s.opGangStart c
  | 0x2003 => s.opGangStop c
  | 0x2004 => s.opBayRestart c
  | 0x2005 => s.opSerSend c
  | 0x2006 => s.opSerRecv c
  | 0x3000 => s.opCatLookup c
  | 0x3001 => s.opCatPut c
  | 0x3002 => s.opCatDelete c
  | 0x3003 => s.opCatRead c
  | 0x3004 => s.opCatWrite c
  | 0x3005 => s.opCatRegion c
  | 0x4000 => s.opTenStat c
  | 0x4001 => s.opTenSeg c
  | 0x4002 => s.opTenActivate c
  | 0x4003 => s.opTenReset c
  | 0x4004 => s.opTenLoad c
  | 0x4005 => s.opSlotStat c
  | 0x5000 => s.opCleatRead c
  | 0x5001 => s.opCleatWrite c
  | 0x5002 => s.opCleatAcquire c
  | 0x5003 => s.opArbSet c
  | 0x6000 => s.opGaugeRead c
  | 0x6001 => s.opHarvSet c
  | 0x7000 => s.opTimeGet c
  | 0x7001 => s.opTimeSet c
  | 0x7002 => s.opAlarmSet c
  | 0x8000 => s.opAdcSet c
  | 0x8001 => s.opAdcTable c
  | 0x8002 => s.opAdcRingRead c
  | 0x9000 => s.opSfuTableLoad c
  | 0x9001 => s.opSfuTableCrc c
  | 0x9002 => s.opSfuRun c
  | 0xA000 => s.opNorRead c
  | 0xA001 => s.opNorErase c
  | 0xA002 => s.opNorProgram c
  | 0xA003 => s.opImageActivate c
  | 0xB000 => s.opKeyLoad c
  | 0xB001 => s.opKeyClear c
  | 0xB002 => s.opAttest c
  | 0xB003 => s.opAttestKey c
  | 0xB004 => s.opUnlockChallenge c
  | 0xB005 => s.opUnlockResponse c
  | 0xE000 => s.opErrRead c
  | 0xE001 => s.opErrPop c
  | 0xE002 => s.opErrStat c
  | _ => s.no stBadOpcode

/-- A command is executing and waits on hardware. -/
def State.addLong (s : State) (c : Cmd) (w : CmdWait) : State := { s with cyn := { s.cyn with longs := s.cyn.longs ++ [(c, w)] } }

/-- A command with entries it has made. -/
def Cmd.withEntries (c : Cmd) (es : List Nat) : Cmd := { c with entries := c.entries ++ es }

/-- A command executes: it ends, or waits with its resource held; while what it needs is busy, one marked L has started and tries
again (R282), and for another the answer is `none`. -/
def State.perform (s : State) (c : Cmd) : Option State :=
  match s.run c with
  | (.wait, _) => if c.isLong then some (s.addLong c .retry) else none
  | (.done st bs es, s1) => some (s1.finish c st bs es)
  | (.long w es, s1) => some (s1.addLong (c.withEntries es) w)

/-- A command that is executing without being marked L waits for room or for table writes: no other starts (R281). -/
def State.cynOccupied (s : State) : Bool := s.cyn.longs.any (fun l => !l.1.isLong)

/-! ### Acceptance (R276–R279) -/

/-- R277, R278: what is kept for a command's source, and the UDP sources by their activity. -/
def State.touchUdp (s : State) (src : CmdSrc) : State :=
  match src with
  | .udp .. =>
    let us := (src :: s.cyn.udp.filter (fun x => !sameSrc x src)).take 8
    { s with cyn := { s.cyn with
      udp := us
      kept := s.cyn.kept.filter (fun k => match k.src with | .udp .. => us.any (sameSrc k.src) | _ => true) } }
  | _ => s

/-- Row 14: the command takes its place as the last packet kept of its source. -/
def State.keepCmd (s : State) (c : Cmd) : State :=
  { s with cyn := { s.cyn with
    kept := s.cyn.kept.filter (fun k => !sameSrc k.src c.src) ++ [{ src := c.src, seq := c.seq, pcrc := c.pcrc }]
    order := s.cyn.order + 1 } }

/-- R281: the PRIO of a command from the mailbox of a tenant other than 0 is clamped to 3. -/
def State.clampPrio (s : State) (c : Cmd) : Cmd × State :=
  if (mailboxOf c.src).elim false (· != 0) && decide (3 < c.prio) then
    let e := rptEntry (0x3F * 1024 + c.cls * 64 + 63) 1 c.prio
    ({ c with prio := 3, entries := c.entries ++ [e] }, { s with gring := Ring.push 64 14 s.gring e })
  else (c, s)

/-- R279: a posted command is acknowledged when it is queued: with ACKREQ, and always on the spine. -/
def State.acknowledge (s : State) (c : Cmd) : State :=
  if c.posted && (c.ackReq || c.src == .spine) then
    let s1 : State := { s with cyn := { s.cyn with kept := s.cyn.kept.map (fun k =>
      if sameSrc k.src c.src then { k with reply := some c.acceptReply } else k) } }
    s1.send c.src c.seq c.acceptReply
  else s

/-- The command is accepted: kept, clamped, acknowledged. -/
def State.admitCmd (s : State) (c : Cmd) : Cmd × State :=
  let r := (s.keepCmd c).clampPrio { c with order := s.cyn.order }
  (r.1, r.2.acknowledge r.1)

/-- R281: an accepted command waits to execute. -/
def State.enqueue (s : State) (c : Cmd) : State := { s with cyn := { s.cyn with queue := s.cyn.queue ++ [c] } }

/-- R279: every outcome of rows 2 to 13 is replied to. -/
def State.reject (s : State) (c : Cmd) (status : Nat) : State := s.send c.src c.seq (c.reply status [] [])

/-- The header of a packet as a command. -/
def cmdOf (src : CmdSrc) (p : List Byte) : Cmd :=
  { src := src, op := leAt p 2 2, tenant := byteAt p 4, prio := byteAt p 5 % 8, seq := leAt p 6 2,
    pcrc := leAt p (12 + leAt p 8 2) 4, params := (p.drop 12).take (leAt p 8 2) }

/-- Rows 5 to 14 of Table 12-4. -/
def State.acceptCmd (s : State) (c : Cmd) : State :=
  match s.cyn.kept.find? (fun k => sameSrc k.src c.src && k.seq == c.seq && k.pcrc == c.pcrc) with
  | some k => if k.done then k.reply.elim s (fun r => s.send c.src c.seq r) else s
  | none =>
    match s.refusal c with
    | some st => s.reject c st
    | none =>
      if 16 ≤ s.cyn.queue.length then s.reject c stBusy
      else
        let r := s.admitCmd c
        r.2.enqueue r.1

/-- R276: a packet is judged by the first row of Table 12-4 that applies. -/
def State.packet (s0 : State) (src : CmdSrc) (p : List Byte) : State :=
  let s : State := s0.reef1Leave
  let c := cmdOf src p
  let len := leAt p 8 2
  if p.length < 16 || byteAt p 0 != 0xEB || crc16 (p.take 10) != leAt p 10 2 then
    { s with cyn := { s.cyn with drop := s.cyn.drop + 1 } }
  else
    let s1 : State := s.touchUdp src
    if byteAt p 1 != 1 then s1.reject c stBadOpcode
    else if 1024 < len || p.length != 16 + len || (c.onMailbox && decide (224 < p.length)) then s1.reject c stBadLength
    else if crc32c (p.take (12 + len)) != c.pcrc then s1.reject c stBadCrc
    else s1.acceptCmd c

/-! ### Where packets come from (R272–R275) -/

/-- R275: the packet of a mailbox is taken: REPLY_READY is cleared. Its length is that of its header. -/
def State.takeMailbox (s : State) (t : Fin 64) : State :=
  if !(s.isUp 27 && s.cynRuns) then s else
  let a := mboxAddr t
  let n := 16 + s.rdLe (a + 0x128) 2
  let p := s.rdBytes (a + 0x120) (min n 224)
  let s1 : State := s.wrLe (a + 6) 2 0
  let s2 : State := { s1 with cyn := { s1.cyn with taken := setBit s1.cyn.taken t true } }
  s2.packet (.mailbox t) (p ++ List.replicate (n - 224) 0#8)

/-- R159: a write to the DOORBELL word of a mailbox; Cyntoux takes the packet. -/
def execDoorbell (tenant : Fin 64) (value : Word) (s : State) : Out :=
  if !s.isUp 27 then .next s else
  let s1 : State := s.memWrite (mboxAddr tenant) (leBytes value.toNat 4)
  .next (s1.takeMailbox tenant)

/-- R273: the assembled packet is copied out, the buffer is released, and the packet is judged. -/
def State.takeChunk (s : State) : State :=
  match s.spine.chunkDone with
  | none => s
  | some n => if s.cynRuns then (s.regCommand 0x4000B014 1).packet .spine (s.rdBytes 0x12005000 n) else s

/-- R257: a command fragment for this shelf. -/
def execCmdChunk (ctl : BitVec 6) (data : BitVec 48) (s : State) : Out := .next (s.answer 7 ctl.toNat data.toNat false).takeChunk

/-- R246, R263: a query frame is received on the ports of a mask. -/
def execQuery (ports : BitVec 2) (a b : BitVec 72) (late : Bool) (s : State) : Out :=
  match s.pickFrame { ports := ports, a := a, b := b } crc8Ok with
  | (some f, s1) => .next (s1.query f late).takeChunk
  | (none, s1) => .next s1

/-- R272, R392: Cyntoux takes the command packet of a datagram that came in a frame. -/
def State.takeDatagram (s : State) (port : Bool) (frame : List Byte) : State :=
  let q := ipOf frame
  s.packet (.udp port (BitVec.ofNat 32 (beAt q 12 4)) (BitVec.ofNat 16 (beAt q 20 2)) (BitVec.ofNat 48 (beAt frame 6 6)))
    ((q.drop 28).take (beAt q 24 2 - 8))

/-- R125: the datagrams that the SGMII ports hold are taken, oldest first. -/
def State.takeDatagrams (s : State) : State :=
  s.serv.dgrams.foldl (fun s g => s.takeDatagram (g.1 == 1) g.2) ({ s with serv := { s.serv with dgrams := [] } } : State)

/-- An SGMII port holds a datagram for Cyntoux. -/
def State.holdDatagram (s : State) (p : Nat) (frame : List Byte) : State :=
  { s with serv := { s.serv with dgrams := s.serv.dgrams ++ [(p, frame)] } }

/-- R392: a datagram to port 47120 passes the checks. Cyntoux takes it as it arrives, after those held; while Cyntoux does not run the
port holds it, which the CC's source SGM shows (R125, log entry 96). -/
def execUdpDatagram (port : Bool) (frame : List Byte) (s : State) : Out :=
  let p := ofBool port
  if !(s.sgmUp p && frameKept p frame && s.isCommand p frame) then .next s
  else if s.cynRuns then .next (s.takeDatagrams.takeDatagram port frame)
  else .next (s.holdDatagram p frame)

/-- R274: the oldest closed frame of a console's buffer: an empty one is ignored, a malformed or too long one is counted. -/
def execConsoleFrame (port : Bool) (s : State) : Out :=
  let p := ofBool port
  let l := s.consBuf p
  if !(l.contains 0xC0 && s.cynRuns && s.isUp 69) then .next s else
  let f := l.takeWhile (· != 0xC0)
  let s1 : State := s.setCons p (l.drop (f.length + 1))
  if f.isEmpty then .next s1 else
  match slipDecode f with
  | some b => .next (if 1040 < b.length then s1.count (kSlipErr p) 16 1 else s1.packet (.console port) b)
  | none => .next (s1.count (kSlipErr p) 16 1)

/-! ### The queue (R281, R282) -/

/-- R281: the waiting command that starts next. -/
def State.nextCmd (s : State) : Option Cmd :=
  s.cyn.queue.foldl (fun best c => match best with
    | none => some c
    | some b => if b.prio < c.prio || (b.prio == c.prio && decide (c.order < b.order)) then some c else some b) none

/-- R281: Cyntoux starts the next command. One whose tenant has begun a reset is answered TENANT_RESETTING (R283), one whose
resource has been taken meanwhile BUSY; one that waits for hardware stays. -/
def execCommandStart (s : State) : Out :=
  if !(s.cynRuns && s.boot.accepting) || s.cynOccupied then .next s else
  match s.nextCmd with
  | none => .next s
  | some c =>
    let s1 : State := { s with cyn := { s.cyn with queue := s.cyn.queue.erase c } }
    if opScoped c.op && s.resetting c.ten then .next (s1.finish c stTenantResetting [] [])
    else if s.resourceHeld c then .next (s1.finish c stBusy [] [])
    else .next ((s1.perform c).getD s)

/-- R166, R287: the report of a reset as its command's result. -/
def State.resetReport (s : State) (c : Cmd) : List Byte := if c.onMailbox then s.ten.rpt.take 144 else s.ten.rpt

/-- R283, R165: an executing command of a tenant whose reset has begun; TEN_RESET itself goes on. -/
def State.stopped (s : State) (c : Cmd) : Bool := opScoped c.op && c.op != 0x4003 && s.resetting c.ten

/-- What a waiting command comes to now; `.wait` while it goes on waiting. -/
def State.poll (s : State) (c : Cmd) (w : CmdWait) : Ans :=
  if s.stopped c then s.no stTenantResetting else
  match w with
  | .retry => s.run c
  | .shelf _ => (.wait, s)
  | .ended st => s.no st
  | .gangs m => if (gangsOf m).all s.gangDone && s.bay.gangStart == 0 then s.ok [] else (.wait, s)
  | .tenReset t => if s.ten.reset.elim true (fun r => r.tenant != t) then s.ok (s.resetReport c) else (.wait, s)
  | .cleat .. => (.wait, s)
  | .sfu _ => (.wait, s)
  | .jobStatus w => s.ok (leBytes w 4)
  | .nor program => if s.norHand then (.wait, s) else s.norOutcome program
  | .image copy stage record =>
    if s.norHand then (.wait, s)
    else if stage = 0 && s.reg kNorResult == 0 then (.long (.image copy 1 record) [], s.norIssue 3 (0x1000 * copy) record false)
    else s.norOutcome false
  | .catalog rest =>
    if 32 ≤ s.cat.wb.length then (.wait, s) else s.catPost rest
  | .table k => if s.tabWait.any (fun x => tableSlot x.1 == k) then (.wait, s) else s.ok []

/-- R282: the first executing command that can go on does so; it ends with its reply, or waits for its next step. -/
def State.completeOne (s : State) : List (Cmd × CmdWait) → List (Cmd × CmdWait) → State
  | _, [] => s
  | before, (c, w) :: rest =>
    match s.poll c w with
    | (.wait, _) => s.completeOne (before ++ [(c, w)]) rest
    | (.done st bs es, s1) => ({ s1 with cyn := { s1.cyn with longs := before ++ rest } } : State).finish c st bs es
    | (.long w' es, s1) => { s1 with cyn := { s1.cyn with longs := before ++ (c.withEntries es, w') :: rest } }

def execCommandComplete (s : State) : Out := .next (if s.cynRuns then s.completeOne [] s.cyn.longs else s)

/-- R288: the first CLEAT_ACQUIRE with a try due makes it. -/
def State.retryOne (s : State) : List (Cmd × CmdWait) → List (Cmd × CmdWait) → State
  | _, [] => s
  | before, (c, w) :: rest =>
    match w with
    | .cleat k tries cycles due =>
      if due = 0 then s.retryOne (before ++ [(c, w)]) rest else
      match s.cleatRetry k tries cycles due with
      | (.done st bs es, s1) => ({ s1 with cyn := { s1.cyn with longs := before ++ rest } } : State).finish c st bs es
      | (.long w' es, s1) => { s1 with cyn := { s1.cyn with longs := before ++ (c.withEntries es, w') :: rest } }
      | (.wait, s1) => s1
    | _ => s.retryOne (before ++ [(c, w)]) rest

def execCleatAcquireRetry (s : State) : Out :=
  .next (if s.cynRuns && s.isUp 48 then s.retryOne [] s.cyn.longs else s)

/-! ### Shelf sequences (R15, R256, R398) -/

/-- The sequence in hand ends with a status: its bit of PROBE_SEQ is cleared, and its command can complete. -/
def State.endSeq (s : State) (wake : Bool) (status : Nat) : State :=
  let s1 : State := s.setFlag (if wake then kWakeSeq else kSleepSeq) false
  { s1 with cyn := { s1.cyn with
    seq := none
    longs := s1.cyn.longs.map (fun l => if l.2 = .shelf wake then (l.1, .ended status) else l) } }

/-- R398: PSU_PG has not come within SHELF_PG_TMO ticks. -/
def execPgTimeout (s : State) : Out :=
  match s.serv.pgWait with
  | none => .next s
  | some n =>
    if !(s.cynRuns && decide (s.reg (fk 0x40012104 0) ≤ n)) then .next s else
    let s1 : State := s.rwSet 0x40012100 0 1
    let s2 : State := { s1 with serv := { s1.serv with pgWait := none } }
    .next (s2.endSeq true stNotReady)

/-- The level that the allowance permits after a sleep sequence: Reef 2 from allowance 3, else Reef 3 (R65). -/
def State.sleepLevel (s : State) : Nat := if 3 ≤ s.allow then 2 else 3

/-- R14, R398: PSU_EN is set at allowance 6 or more; the wait for PSU_PG begins. -/
def State.psuOn (s : State) : State :=
  let s1 : State := s.rwSet 0x40012100 1 1
  { s1 with serv := { s1.serv with pgWait := if s1.serv.pg then none else some 0 } }

/-- A stage of a wake sequence at a tick: PSU_EN; with PSU_PG and allowance 7 all gangs are started; when all are DONE tenants are
dispatched and the sequence ends. -/
def State.wakeStage (s : State) (k : Nat) : State :=
  let go := fun (s : State) (n : Nat) => ({ s with cyn := { s.cyn with seq := some (true, n) } } : State)
  match k with
  | 0 => if 6 ≤ s.allow then go s.psuOn 1 else s
  | 1 => if s.serv.pg && s.allow == 7 then go (s.regCommand 0x40028040 0xFF) 2 else s
  | _ => if (List.range 8).all s.gangDone && s.bay.gangStart == 0 then (s.rwSet 0x40015008 1 1).endSeq true stOk else s

/-- A stage of a sleep sequence at a tick: dispatch ends; the gangs are stopped one by one; PSU_EN is released and the snapshot
written; with the write buffer empty the sequence ends and the level is requested. -/
def State.sleepStage (s : State) (k : Nat) : State :=
  let go := fun (s : State) (n : Nat) => ({ s with cyn := { s.cyn with seq := some (false, n) } } : State)
  if k = 0 then go (s.rwSet 0x40015008 0 1) 1
  else if k ≤ 8 then go (s.regCommand 0x40028040 (256 * 2 ^ (k - 1))) (k + 1)
  else if k = 9 then go ((s.rwSet 0x40012100 0 1).writeSnapshot s.sleepLevel) 10
  else if s.cat.wb.isEmpty && s.cat.mapDue.isEmpty then (s.endSeq false stOk).regCommand 0x40000010 s.sleepLevel
  else s

/-- The sequence whose bit is set starts, and goes on by a stage (R256). -/
def State.seqTick (s : State) : State :=
  let s1 : State := match s.cyn.seq with
    | some _ => s
    | none =>
      if s.flag kSleepSeq then { s with cyn := { s.cyn with seq := some (false, 0) } }
      else if s.flag kWakeSeq then { s with cyn := { s.cyn with seq := some (true, 0) } } else s
  match s1.cyn.seq with
  | some (true, k) => s1.wakeStage k
  | some (false, k) => s1.sleepStage k
  | none => s1

/-- R56: the allowance is below 6 while bays are powered: Cyntoux starts the sleep sequence, after a wake sequence in hand (R15). -/
def State.lowSleep (s : State) : State :=
  if s.allow < 6 && s.baysActive && !s.flag kSleepSeq && !s.flag kWakeSeq then s.regCommand 0x4000B004 0x200 else s

/-- R282: a WARM_RESET's reply has left. -/
def State.warmReady (s : State) (tag : Option Nat) : Bool :=
  match tag with
  | none => true
  | some t => !s.cyn.outbox.any (fun m => m.1 == t) && !s.spine.reports.any (fun r => s.rptTag r.buf == t)

/-- R282: the warm reset that a WARM_RESET asked for. -/
def State.warmTick (s : State) : State :=
  match s.cyn.warm with
  | some (reason, tag) =>
    if s.warmReady tag then
      ({ s with cyn := { s.cyn with warm := none } } : State).regCommand 0x40000064 (reason + 2 ^ 31)
    else s
  | none => s

/-- R49: at the first tick after a STORE_LOW crossing Cyntoux writes the keeper snapshot, for the Reef 3 that is coming (log entry
152). -/
def State.lowSnapshot (s : State) : State := if s.storeLow && s.harv.lowTicks == some 1 then s.writeSnapshot 3 else s

/-- What Cyntoux does at a tick: replies take free buffers, cleat tries fall due, the policies of R49 and R56, the shelf sequences, a
warm reset. -/
def State.cynTick (s : State) : State :=
  if !(s.cynRuns && s.boot.accepting) then s else
  let s1 : State := s.flushOutbox
  let s2 : State := { s1 with cyn := { s1.cyn with longs := s1.cyn.longs.map (fun l => match l.2 with
    | .cleat k tries cycles due => (l.1, .cleat k tries cycles (due + 1))
    | _ => l) } }
  s2.lowSnapshot.lowSleep.seqTick.warmTick

/-! ### The CC's interrupts (R67, R159, R254, R358) -/

/-- R67, R160: the handled halyard bits go to the ACTIVE tenants; a change of the allowance as an ALLOW event too. -/
def State.forwardHalyard (s : State) (bits_ : Nat) : State :=
  ((List.range 64).filter (fun t => s.tenState t == 1)).foldl (fun s t =>
    let s1 : State := s.postMail t 3 (leBytes bits_ 4)
    if bit bits_ 10 || bit bits_ 11 then s1.postMail t 4 (leBytes s.allow 1) else s1) s

/-- R254: a pending ticket whose lookup is no longer deferred, or is deferred by OVF alone, is resolved. -/
def State.resolveTicket (s : State) (i : Nat) : State :=
  let t := s.ticketTenant i
  let key := s.rdLe (ticketAddr i) 6
  let put := fun (result e : Nat) =>
    ((s.wrLe (ticketAddr i + 8) 3 (result + (ofBool (bit e 120) * 128 + bits e 48 7) * 256 + bits e 111 8 * 65536)).wrLe
      (ticketAddr i + 0x10) 8 (bits e 59 52)).wrLe (ticketAddr i + 0x18) 1 2
  match (s.readBuckets t key).1 with
  | .entries _ es =>
    match lookRule key es with
    | .hit e => put 0 e
    | .poisoned => put 6 0
    | .miss => put 1 0
    | .deferred (some _) => s
    | .deferred none =>
      match s.overflowOf t key with
      | some e => if bits e 55 4 = 1 then put 0 e else if liveState e then s else put 1 0
      | none => put 1 0
  | _ => s

def State.resolveTickets (s : State) : State :=
  if !s.isUp 2 then s else
  ((List.range 256).filter (fun i => s.ticketState i == 1 && !s.ticketOld i)).foldl (fun s i => s.resolveTicket i) s

/-- The halyard interrupt: the bits shown are handled and cleared (R68); a shelf sequence starts at the next tick from the bit that
PRB has set (R256). -/
def State.halyardIrq (s : State) : State :=
  let b := s.reg kHalStat &&& s.reg kHalEn
  let s1 : State := s.forwardHalyard b
  let s2 : State := if bit b 5 then s1.resolveTickets else s1
  s2.regCommand 0x40000048 b

/-- R358: the record at the cursor is delivered as a LATE_ERROR event, once. -/
def State.errIrq (s : State) : State :=
  let r := s.err.recAt s.err.handled
  if s.err.handled < s.err.count && (r.cls == 1 || r.cls == 2) && r.tenant != 0 && s.takesLate r.tenant &&
      !s.cyn.lateSent.contains r.stamp then
    let s1 : State := { s with cyn := { s.cyn with lateSent := (r.stamp :: s.cyn.lateSent).take 64 } }
    s1.postLate r.tenant r.code r.segment r.offset r.seq
  else s

/-- R159, R275: the mailboxes that show in TEN_MBOX_PEND: packets not yet taken are taken, the bits are cleared. -/
def State.mailboxIrq (s : State) : State :=
  let p := s.reg (fk 0x40015308 0) + s.reg (fk 0x4001530C 0) * 2 ^ 32
  let s1 : State := (List.finRange 64).foldl (fun (s : State) (t : Fin 64) => if bit p t && !bit s.cyn.taken t then s.takeMailbox t else s) s
  let s2 : State := { s1 with cyn := { s1.cyn with taken := 0 } }
  (s2.regCommand 0x40015308 (p % 2 ^ 32)).regCommand 0x4001530C (p / 2 ^ 32)

/-- R123–R125: the CC takes its lowest pending source: the entry of the hardware, then what Cyntoux does for it. -/
def execCcInterrupt (s : State) : Out :=
  match s.takeInterrupt with
  | none => .next s
  | some (n, s1) =>
    if !s1.cynRuns then .next s1 else
    .next (match n with
      | 0 => s1.halyardIrq
      | 2 => s1.errIrq
      | 3 => s1.mailboxIrq
      | 9 => s1.takeChunk
      | 13 => s1.takeDatagrams
      | _ => s1)

/-! ### The commands of Table 12-5 -/

/-- The packet of a command (Table 12-1). -/
def packetOf (c : CmdIn) (op : Nat) : List Byte :=
  let h := [0xEB#8, 0x01#8] ++ leBytes op 2 ++ [c.tenant, c.prio] ++ leBytes c.seq.toNat 2 ++ leBytes c.params.length 2
  let b := h ++ leBytes (crc16 h) 2 ++ c.params
  b ++ leBytes (crc32c b) 4

/-- The command as rows 6 to 14 see it. -/
def cmdOfIn (c : CmdIn) (op : Nat) : Cmd :=
  { src := c.src, op := op, tenant := c.tenant.toNat, prio := c.prio.toNat % 8, seq := c.seq.toNat,
    pcrc := leAt (packetOf c op) (12 + c.params.length) 4, params := c.params }

/-- A command reaches its execution with nothing queued before it: rows 6 to 13 of Table 12-4 are judged, and it executes; while
what it needs is busy it waits in the queue (log entry 125). -/
def State.issue (s : State) (op : Nat) (c : CmdIn) : State :=
  if !s.cynRuns then s else
  let k := cmdOfIn c op
  match s.refusal k with
  | some st => s.reject k st
  | none =>
    if 16 ≤ s.cyn.queue.length then s.reject k stBusy else
    let r := s.admitCmd k
    let later := r.2.enqueue r.1
    if s.cynOccupied then later else (r.2.perform r.1).getD later

def execNop (c : CmdIn) (s : State) : Out := .next (s.issue 0x0000 c)
def execIdent (c : CmdIn) (s : State) : Out := .next (s.issue 0x0001 c)
def execCfgSet (c : CmdIn) (s : State) : Out := .next (s.issue 0x0002 c)
def execCfgGet (c : CmdIn) (s : State) : Out := .next (s.issue 0x0003 c)
def execRegRead (c : CmdIn) (s : State) : Out := .next (s.issue 0x0004 c)
def execRptRead (c : CmdIn) (s : State) : Out := .next (s.issue 0x0005 c)
def execRptClear (c : CmdIn) (s : State) : Out := .next (s.issue 0x0006 c)
def execWarmReset (c : CmdIn) (s : State) : Out := .next (s.issue 0x0007 c)
def execPowerStat (c : CmdIn) (s : State) : Out := .next (s.issue 0x1000 c)
def execReefReq (c : CmdIn) (s : State) : Out := .next (s.issue 0x1001 c)
def execShelfWake (c : CmdIn) (s : State) : Out := .next (s.issue 0x1002 c)
def execShelfSleep (c : CmdIn) (s : State) : Out := .next (s.issue 0x1003 c)
def execPowerSet (c : CmdIn) (s : State) : Out := .next (s.issue 0x1004 c)
def execBayStat (c : CmdIn) (s : State) : Out := .next (s.issue 0x2000 c)
def execBaySet (c : CmdIn) (s : State) : Out := .next (s.issue 0x2001 c)
def execGangStart (c : CmdIn) (s : State) : Out := .next (s.issue 0x2002 c)
def execGangStop (c : CmdIn) (s : State) : Out := .next (s.issue 0x2003 c)
def execBayRestart (c : CmdIn) (s : State) : Out := .next (s.issue 0x2004 c)
def execSerSend (c : CmdIn) (s : State) : Out := .next (s.issue 0x2005 c)
def execSerRecv (c : CmdIn) (s : State) : Out := .next (s.issue 0x2006 c)
def execCatLookup (c : CmdIn) (s : State) : Out := .next (s.issue 0x3000 c)
def execCatPut (c : CmdIn) (s : State) : Out := .next (s.issue 0x3001 c)
def execCatDelete (c : CmdIn) (s : State) : Out := .next (s.issue 0x3002 c)
def execCatRead (c : CmdIn) (s : State) : Out := .next (s.issue 0x3003 c)
def execCatWrite (c : CmdIn) (s : State) : Out := .next (s.issue 0x3004 c)
def execCatRegion (c : CmdIn) (s : State) : Out := .next (s.issue 0x3005 c)
def execTenStat (c : CmdIn) (s : State) : Out := .next (s.issue 0x4000 c)
def execTenSeg (c : CmdIn) (s : State) : Out := .next (s.issue 0x4001 c)
def execTenActivate (c : CmdIn) (s : State) : Out := .next (s.issue 0x4002 c)
def execTenReset (c : CmdIn) (s : State) : Out := .next (s.issue 0x4003 c)
def execTenLoad (c : CmdIn) (s : State) : Out := .next (s.issue 0x4004 c)
def execSlotStat (c : CmdIn) (s : State) : Out := .next (s.issue 0x4005 c)
def execCleatRead (c : CmdIn) (s : State) : Out := .next (s.issue 0x5000 c)
def execCleatWrite (c : CmdIn) (s : State) : Out := .next (s.issue 0x5001 c)
def execCleatAcquire (c : CmdIn) (s : State) : Out := .next (s.issue 0x5002 c)
def execArbSet (c : CmdIn) (s : State) : Out := .next (s.issue 0x5003 c)
def execGaugeRead (c : CmdIn) (s : State) : Out := .next (s.issue 0x6000 c)
def execHarvSet (c : CmdIn) (s : State) : Out := .next (s.issue 0x6001 c)
def execTimeGet (c : CmdIn) (s : State) : Out := .next (s.issue 0x7000 c)
def execTimeSet (c : CmdIn) (s : State) : Out := .next (s.issue 0x7001 c)
def execAlarmSet (c : CmdIn) (s : State) : Out := .next (s.issue 0x7002 c)
def execAdcSet (c : CmdIn) (s : State) : Out := .next (s.issue 0x8000 c)
def execAdcTable (c : CmdIn) (s : State) : Out := .next (s.issue 0x8001 c)
def execAdcRingRead (c : CmdIn) (s : State) : Out := .next (s.issue 0x8002 c)
def execSfuTableLoad (c : CmdIn) (s : State) : Out := .next (s.issue 0x9000 c)
def execSfuTableCrc (c : CmdIn) (s : State) : Out := .next (s.issue 0x9001 c)
def execSfuRun (c : CmdIn) (s : State) : Out := .next (s.issue 0x9002 c)
def execNorRead (c : CmdIn) (s : State) : Out := .next (s.issue 0xA000 c)
def execNorErase (c : CmdIn) (s : State) : Out := .next (s.issue 0xA001 c)
def execNorProgram (c : CmdIn) (s : State) : Out := .next (s.issue 0xA002 c)
def execImageActivate (c : CmdIn) (s : State) : Out := .next (s.issue 0xA003 c)
def execKeyLoad (c : CmdIn) (s : State) : Out := .next (s.issue 0xB000 c)
def execKeyClear (c : CmdIn) (s : State) : Out := .next (s.issue 0xB001 c)
def execAttest (c : CmdIn) (s : State) : Out := .next (s.issue 0xB002 c)
def execAttestKey (c : CmdIn) (s : State) : Out := .next (s.issue 0xB003 c)
def execUnlockChallenge (c : CmdIn) (s : State) : Out := .next (s.issue 0xB004 c)
def execUnlockResponse (c : CmdIn) (s : State) : Out := .next (s.issue 0xB005 c)
def execErrRead (c : CmdIn) (s : State) : Out := .next (s.issue 0xE000 c)
def execErrPop (c : CmdIn) (s : State) : Out := .next (s.issue 0xE001 c)
def execErrStat (c : CmdIn) (s : State) : Out := .next (s.issue 0xE002 c)

end Sys2Proof.Machine
end

