-- ==== Sys2Proof/Machine/Latch.lean ====
section
/-! DEFINITION. The latch edge (R20, R92): FRAME_NUM, the shadows, the clock and domain switches of a tick, the tenants' states,
preemption and dispatch, and what every block does at a latch edge. -/
namespace Sys2Proof.Machine

/-! ### Shadows (R20, R84) -/

/-- The FRAME fields that switch together with the system clock (R84). -/
def clkKeys : List Key :=
  [fk 0x40002000 0, fk 0x40002004 0, fk 0x40002004 8, fk 0x40002004 16, fk 0x40002004 24, fk 0x40002008 0]

/-- INIT of a slot: a WO FRAME field, which loads no register. -/
def kInit (n : Nat) : Key := fk (0x40004100 + 0x10 * n) 16
def kSlotTenant (n : Nat) : Key := fk (0x40004100 + 0x10 * n) 0
def kSwPend : Key := kClkStat 7

/-- R84: the selected source is ready. -/
def State.srcReady (s : State) : Bool := s.last (fk 0x40002000 0) != 2 || s.flag (kClkStat 2)

/-- R84, R87: the source and the dividers switch together or are held; a switch of SRC ends FORCED. -/
def State.clockSwitch (s : State) : State :=
  let due := clkKeys.filter (fun k => (s.pendingVal k).isSome)
  if due.isEmpty then s
  else if !s.srcReady then s.setFlag kSwPend true
  else
    let s1 : State := (s.pendingVal (fk 0x40002000 0)).elim s (fun v => (s.setReg kSrcEff v).setFlag (kClkStat 8) false)
    (due.foldl (fun (s : State) k => (s.setReg k ((s.pendingVal k).getD 0)).setShadow k none) s1).setFlag kSwPend false

/-- R20: every other pending value moves into effect. -/
def State.shadowLatch (s : State) : State :=
  let due := s.shadow.filter (fun e => !clkKeys.contains e.1)
  due.foldl (fun (s : State) e =>
    let s1 : State := if (fldOf e.1).elim true (fun f => f.ty == .wo) then s else s.setReg e.1 (e.2.getD 0)
    s1.setShadow e.1 none) s

/-- R145: the slots whose INIT takes effect, or whose TENANT takes effect with a new value; with which of the two it is. -/
def State.initDue (s : State) : List (Nat × Bool) :=
  ((List.range 64).map (fun n => (n, s.pendingVal (kInit n) == some 1))).filter (fun p =>
    p.2 || (s.pendingVal (kSlotTenant p.1)).elim false (fun t => t != s.reg (kSlotTenant p.1)))

/-! ### Domains (R59, R16, R82, R401) -/

/-- The domains of a PMU_DOM_ON word, with the first number and the field that hold them. -/
def domWords : List (Key × Nat × Nat) :=
  [(fk 0x40000020 7, 7, 25), (fk 0x40000024 0, 32, 32), (fk 0x40000028 0, 64, 4), (fk 0x40000028 5, 69, 3)]

/-- The domains that the tick names, and whether they are to be on. Debug and trace stay off while the part is locked. -/
def State.domChanges (s : State) : List (Nat × Bool) :=
  domWords.flatMap (fun w => (s.pendingVal w.1).elim [] (fun v =>
    (List.range w.2.2).map (fun i => (w.2.1 + i, bit v i && !(decide (70 ≤ w.2.1 + i) && s.debugLocked)))))

/-- R59, R82, R87: a domain switches; with PLL0's domain or XT2's off, FIRC becomes the source in effect if it was PLL0. -/
def State.domSwitch (s : State) (d : Nat × Bool) : State :=
  if d.2 then s.onDom d.1
  else
    let s1 : State := if (d.1 == 65 || d.1 == 67) && s.domSt d.1 != .off && s.reg kSrcEff == 2 then s.setReg kSrcEff 0 else s
    s1.offDomHeld d.1

/-! ### Tenants (R161, R162) -/

/-- Table 8-6: the tick's transition of a tenant. KEYWAIT ends only with a loaded key; a tenant that is ACTIVE with KEY_REQ = 1 and
an empty slot becomes KEYWAIT, however the slot came to be empty (R161; log entry 147). -/
def State.tenantTick (s : State) (t : Nat) : State :=
  let a := 0x40015100 + 4 * t
  if s.tenState t = 3 then s
  else if !s.flag (fk a 0) then s.setTenState t 0
  else if s.keyLoaded t then s.setTenState t 1
  else if s.flag (fk a 1) then s.setTenState t 2
  else if s.tenState t = 0 then s.setTenState t 1
  else s

/-! ### Preemption and dispatch (R150–R157) -/

/-- R156, R136, R137: what the tick does to the context on a core before it is preempted: a WFT ends with 2; a context that does
not wait in WFE is cut off. -/
def State.cutOff (s : State) (c : Nat) : State :=
  match (s.core c).slot with
  | none => s
  | some n =>
    match (s.core c).run with
    | .halted | .wfe => s
    | r =>
      let s1 : State := if r == .wft then s.setCore c ((s.core c).endWait 2#32) else s
      (s1.setSlot n { s1.slot n with cutOff := true }).count (fk (0x4000410C + 0x10 * n) 16) 16 1

/-- Event source 5, the tick, for every context. -/
def State.tickEvents (s : State) : State := (List.range 65).foldl (fun (s : State) x => s.event x 5) s

/-- R150, R156: a slot's state at the tick. The context on a core waits or is ready; a saved one is as its record says. -/
def State.tickState (s : State) (n : Nat) : Nat :=
  let st := (s.slot n).state
  let waits : Bool := match s.coreOf n with
    | some c => (s.core c).run == .wfe
    | none => st = 3 || ((st = 0 || st = 5) && bit (s.recWord n 23) 17 && !bit (s.recWord n 23) 16)
  let halted : Bool := match s.coreOf n with
    | some c => (s.core c).run == .halted
    | none => st = 6
  if halted then 6
  else if !s.slotEn n then 0
  else if s.tenState (s.slotTenant n) != 1 || decide (s.allow < 5) then 5
  else if s.slotBudget n = 0 then 4
  else if waits then 3
  else 1

/-- R151: the slot that each tenant core takes at the tick, in the order TC0 to TC3; `up` says which cores take part. -/
def State.assign (s : State) (up : Nat → Bool) : List (Nat × Nat) :=
  [1, 2, 3, 4].foldl (fun (l : List (Nat × Nat)) c =>
    if s.mayDispatch && up c then (s.choose c (l.map (·.2))).elim l (fun n => l ++ [(c, n)]) else l) []

/-- R229: a WAIT read that is stalled on a core is reissued: a record that has completed gives it its result. -/
def State.reissueWait (s : State) (c n : Nat) : State :=
  if (s.core c).run != .lockWait then s else
  match s.lock.waits.find? (fun w => w.ctx == n) with
  | some w => w.result.elim s (fun r => (s.dropWait n).setCore c ((s.core c).endWait (BitVec.ofNat 32 r)))
  | none => s

/-- R153: the context chosen is the one on the core: it continues with a new frame's count. -/
def State.continueOn (s : State) (c n : Nat) : State :=
  let s1 : State := (s.setCore c { s.core c with cycle := 0#32 }).setSlot n
    { s.slot n with state := 2, lastDisp := s.ten.dispatches + 1, ranThisFrame := true }
  let s2 : State := { s1 with ten := { s1.ten with dispatches := s.ten.dispatches + 1 } }
  s2.reissueWait c n

/-- The scheduling part of a latch edge: what each context comes to, the choice, the preemptions, the domain switches of the tick,
the dispatches. -/
def State.schedule (s : State) (doms : List (Nat × Bool)) : State :=
  let s0 : State := (List.range 64).foldl (fun (s : State) n =>
    s.setSlot n { s.slot n with cutOff := false, ranThisFrame := false }) s
  let s1 : State := ([1, 2, 3, 4].foldl State.cutOff s0).tickEvents
  let s2 : State := if (s1.core 0).run == .wft then s1.setCore 0 ((s1.core 0).endWait 2#32) else s1
  let s3 : State := (List.range 64).foldl (fun (s : State) n => s.setSlot n { s.slot n with state := s.tickState n }) s2
  let l := s3.assign (fun c => s3.isUp (6 + c) && !doms.contains (6 + c, false))
  let s4 : State := [1, 2, 3, 4].foldl (fun (s : State) c =>
    match (s.core c).slot with
    | some n =>
      if l.contains (c, n) then s
      else if (s.core c).run == .halted && !l.any (fun p => p.1 == c) && !doms.contains (6 + c, false) then s
      else s.preempt c (s.slot n).state none
    | none => s) s3
  let s5 : State := doms.foldl State.domSwitch s4
  l.foldl (fun (s : State) p => if (s.core p.1).slot == some p.2 then s.continueOn p.1 p.2 else s.dispatch p.1 p.2) s5

/-- R145: a slot receives the initial context; a context of it that is on a core leaves it first. A HALTED slot stays HALTED but for
INIT (R150). -/
def State.initNow (s : State) (d : Nat × Bool) : State :=
  let s1 : State := (s.coreOf d.1).elim s (fun c => (s.cutOff c).preempt c (if (s.core c).run == .halted then 6 else 5) none)
  s1.initSlot d.1 (!d.2 && (s1.slot d.1).state == 6)

/-! ### The other blocks -/

/-- R362, R363: records are counted anew; at its second latch edge a DEVICE_FATAL record starts its reset. -/
def State.errLatch (s : State) : State :=
  let s1 : State := { s with err := { s.err with perSource := [] } }
  match s1.err.fatal with
  | none => s1
  | some (stamp, n) =>
    let s2 : State := { s1 with err := { s1.err with fatal := some (stamp, n + 1) } }
    if 1 ≤ n then { s2 with boot := { s2.boot with warmDue := some (s2.boot.warmDue.getD (3, 0)) } } else s2

/-- R166, R167: a tenant reset counts its ticks; the first latch edge after step 5 lets it complete. -/
def State.resetLatch (s : State) : State :=
  match s.ten.reset with
  | none => s
  | some r =>
    let r1 : TenReset := { r with ticks := r.ticks + 1, edge := r.edge || s.resetWritesDone r.tenant }
    { s with ten := { s.ten with reset := some r1 } }

/-- R197, R397, R398: the scrubber's frame, the tachometers' counts, and the ticks since PSU_EN. -/
def State.frameCounts (s : State) : State :=
  { s with
    cat := { s.cat with scrubbed := 0 }
    serv := { s.serv with tach := s.serv.tachNow, tachNow := [], pgWait := s.serv.pgWait.map (· + 1) } }

/-- R92: a tick that FRAME_TICK has placed reaches the fabric. -/
def State.latchEdge (s0 : State) : State :=
  let s : State := s0.reef1Leave
  let s1 : State := (s.setReg kFrameNum ((s.frameNum + 1 + s.clk.missed) % 2 ^ 32)).setReg (fk 0x40004014 0) 0
  let s2 : State := { s1 with clk := { s1.clk with tickDue := false, missed := 0 } }
  let inits := s2.initDue
  let doms := s2.domChanges
  let s3 : State := s2.clockSwitch.shadowLatch
  let s4 : State := { s3 with ten := { s3.ten with dispOn := s3.flag (fk 0x40015008 0) } }
  let s5 : State := inits.foldl State.initNow s4
  let s6 : State := ((List.range 64).filter (fun n => !s5.slotEn n)).foldl State.withdraw s5
  let s7 : State := (List.range 64).foldl State.tenantTick s6
  let s8 : State := s7.schedule doms
  let s9 : State := (if s8.isUp 48 then s8.waitTick.leaseTick else s8).resetLatch.errLatch
  let s10 : State := ((s9.bayLatch.adcLatch.sfuLatch).spineTick).frameCounts
  let s11 : State := if s10.flag (fk 0x40004000 1) then s10.irq 1 else s10
  s11.cynTick

/-- R20, R92: the latch edge of the tick that has been placed. -/
def execLatchEdge (s : State) : Out := .next (if s.aon && s.isUp 4 && s.clk.tickDue then s.latchEdge else s)

/-! ### Time with no command waiting -/

/-- One XT1 cycle passes: the calendar's SUBSEC counts (R102), FRAME_POS counts (R99), the tick's pulse on CLKOUT ends (R89), and the
trace port empties its FIFO (R402); log entry 9. -/
def State.xt1Cycle (s : State) : State :=
  let s1 : State := s.rtcCycle
  let s2 : State := if s1.tickLogic then s1.setReg (fk 0x40004014 0) (min 1023 (s1.reg (fk 0x40004014 0) + 1)) else s1
  { s2 with serv := { s2.serv with trace := [] }, clk := { s2.clk with tickHigh := false } }

end Sys2Proof.Machine
end

