-- ==== Sys2Proof/Machine/Dispatch.lean ====
section
/-! DEFINITION. One arm per command of Instr: each calls the command's meaning. -/
namespace Sys2Proof.Machine

def exec (i : Instr) (s : State) : Host.Outcome State Fault Refusal :=
  match i with
  | .registerWrite addr value => Sys2Proof.Machine.execRegisterWrite addr value s
  | .discard block => Sys2Proof.Machine.execDiscard block s
  | .clr block => Sys2Proof.Machine.execClr block s
  | .xsyncComplete block => Sys2Proof.Machine.execXsyncComplete block s
  | .frameTick => Sys2Proof.Machine.execFrameTick s
  | .latchEdge => Sys2Proof.Machine.execLatchEdge s
  | .gaugeUpdate vstore harvested drawn cycles => Sys2Proof.Machine.execGaugeUpdate vstore harvested drawn cycles s
  | .mpptSampleEnd input uv => Sys2Proof.Machine.execMpptSampleEnd input uv s
  | .keepCellLoad => Sys2Proof.Machine.execKeepCellLoad s
  | .keepCellLoss => Sys2Proof.Machine.execKeepCellLoss s
  | .loadReconnect => Sys2Proof.Machine.execLoadReconnect s
  | .aonPorRelease boot strap => Sys2Proof.Machine.execAonPorRelease boot strap s
  | .stbyUp => Sys2Proof.Machine.execStbyUp s
  | .stbyLost => Sys2Proof.Machine.execStbyLost s
  | .loadCut => Sys2Proof.Machine.execLoadCut s
  | .loadSwitchOpen => Sys2Proof.Machine.execLoadSwitchOpen s
  | .fullRise => Sys2Proof.Machine.execFullRise s
  | .fullClear => Sys2Proof.Machine.execFullClear s
  | .storeLow => Sys2Proof.Machine.execStoreLow s
  | .storeLowEnd => Sys2Proof.Machine.execStoreLowEnd s
  | .storeLowForcedEntry => Sys2Proof.Machine.execStoreLowForcedEntry s
  | .pmuReefReq value => Sys2Proof.Machine.execPmuReefReq value s
  | .entrySequenceStart => Sys2Proof.Machine.execEntrySequenceStart s
  | .entrySwitchOff => Sys2Proof.Machine.execEntrySwitchOff s
  | .reef1Entry => Sys2Proof.Machine.execReef1Entry s
  | .reef1Exit => Sys2Proof.Machine.execReef1Exit s
  | .fullWakeStart => Sys2Proof.Machine.execFullWakeStart s
  | .wakeDomainRelease d => Sys2Proof.Machine.execWakeDomainRelease d s
  | .wakeComplete => Sys2Proof.Machine.execWakeComplete s
  | .domainRelease d => Sys2Proof.Machine.execDomainRelease d s
  | .wakePinEdge pin level => Sys2Proof.Machine.execWakePinEdge pin level s
  | .wakePinUnmask pin => Sys2Proof.Machine.execWakePinUnmask pin s
  | .wakePinWrite pin value => Sys2Proof.Machine.execWakePinWrite pin value s
  | .xt1Judged => Sys2Proof.Machine.execXt1Judged s
  | .xt1Fail => Sys2Proof.Machine.execXt1Fail s
  | .xt2Ok => Sys2Proof.Machine.execXt2Ok s
  | .pllLock pll => Sys2Proof.Machine.execPllLock pll s
  | .xt2Fail => Sys2Proof.Machine.execXt2Fail s
  | .xt2Stop => Sys2Proof.Machine.execXt2Stop s
  | .pllLockLoss pll => Sys2Proof.Machine.execPllLockLoss pll s
  | .clkoutChange => Sys2Proof.Machine.execClkoutChange s
  | .start value => Sys2Proof.Machine.execStart value s
  | .fmeasDone count => Sys2Proof.Machine.execFmeasDone count s
  | .beacon frame e per => Sys2Proof.Machine.execBeacon frame e per s
  | .unanchored => Sys2Proof.Machine.execUnanchored s
  | .bkpSupplyChangeover vbak => Sys2Proof.Machine.execBkpSupplyChangeover vbak s
  | .bkpPor => Sys2Proof.Machine.execBkpPor s
  | .secondRollover => Sys2Proof.Machine.execSecondRollover s
  | .halted => Sys2Proof.Machine.execHalted s
  | .rtcResume => Sys2Proof.Machine.execRtcResume s
  | .capture => Sys2Proof.Machine.execCapture s
  | .load => Sys2Proof.Machine.execLoad s
  | .alu core x => Sys2Proof.Machine.execAlu core x s
  | .addi core x => Sys2Proof.Machine.execAddi core x s
  | .andi core x => Sys2Proof.Machine.execAndi core x s
  | .ori core x => Sys2Proof.Machine.execOri core x s
  | .xori core x => Sys2Proof.Machine.execXori core x s
  | .slti core x => Sys2Proof.Machine.execSlti core x s
  | .shi core x => Sys2Proof.Machine.execShi core x s
  | .lui core x => Sys2Proof.Machine.execLui core x s
  | .addpc core x => Sys2Proof.Machine.execAddpc core x s
  | .ldw core x => Sys2Proof.Machine.execLdw core x s
  | .ldh core x => Sys2Proof.Machine.execLdh core x s
  | .ldhu core x => Sys2Proof.Machine.execLdhu core x s
  | .ldb core x => Sys2Proof.Machine.execLdb core x s
  | .ldbu core x => Sys2Proof.Machine.execLdbu core x s
  | .stw core x => Sys2Proof.Machine.execStw core x s
  | .sth core x => Sys2Proof.Machine.execSth core x s
  | .stb core x => Sys2Proof.Machine.execStb core x s
  | .ldd core x => Sys2Proof.Machine.execLdd core x s
  | .std core x => Sys2Proof.Machine.execStd core x s
  | .aadd core x => Sys2Proof.Machine.execAadd core x s
  | .aswp core x => Sys2Proof.Machine.execAswp core x s
  | .acas core x => Sys2Proof.Machine.execAcas core x s
  | .beq core x => Sys2Proof.Machine.execBeq core x s
  | .bne core x => Sys2Proof.Machine.execBne core x s
  | .blt core x => Sys2Proof.Machine.execBlt core x s
  | .bge core x => Sys2Proof.Machine.execBge core x s
  | .bltu core x => Sys2Proof.Machine.execBltu core x s
  | .bgeu core x => Sys2Proof.Machine.execBgeu core x s
  | .jmp core x => Sys2Proof.Machine.execJmp core x s
  | .call core x => Sys2Proof.Machine.execCall core x s
  | .jalr core x => Sys2Proof.Machine.execJalr core x s
  | .fence core x => Sys2Proof.Machine.execFence core x s
  | .syscall core x => Sys2Proof.Machine.execSyscall core x s
  | .brk core x => Sys2Proof.Machine.execBrk core x s
  | .wfe core x => Sys2Proof.Machine.execWfe core x s
  | .wft core x => Sys2Proof.Machine.execWft core x s
  | .wftTimeout core => Sys2Proof.Machine.execWftTimeout core s
  | .sev core x => Sys2Proof.Machine.execSev core x s
  | .mfc core x => Sys2Proof.Machine.execMfc core x s
  | .mtc core x => Sys2Proof.Machine.execMtc core x s
  | .ldseg core x => Sys2Proof.Machine.execLdseg core x s
  | .tret core x => Sys2Proof.Machine.execTret core x s
  | .sfuq core x => Sys2Proof.Machine.execSfuq core x s
  | .cache core x => Sys2Proof.Machine.execCache core x s
  | .prfm core x => Sys2Proof.Machine.execPrfm core x s
  | .ccInterrupt => Sys2Proof.Machine.execCcInterrupt s
  | .irqAck sources => Sys2Proof.Machine.execIrqAck sources s
  | .storeDrain core => Sys2Proof.Machine.execStoreDrain core s
  | .busErr core => Sys2Proof.Machine.execBusErr core s
  | .cntClr core => Sys2Proof.Machine.execCntClr core s
  | .evpend ctx source => Sys2Proof.Machine.execEvpend ctx source s
  | .parked core => Sys2Proof.Machine.execParked core s
  | .ovrBudget core => Sys2Proof.Machine.execOvrBudget core s
  | .init slot => Sys2Proof.Machine.execInit slot s
  | .frameOvrClr => Sys2Proof.Machine.execFrameOvrClr s
  | .tenResetGo tenant => Sys2Proof.Machine.execTenResetGo tenant s
  | .tenResetComplete => Sys2Proof.Machine.execTenResetComplete s
  | .doorbell tenant value => Sys2Proof.Machine.execDoorbell tenant value s
  | .tenEventPost tenant => Sys2Proof.Machine.execTenEventPost tenant s
  | .readMiss core addr => Sys2Proof.Machine.execReadMiss core addr s
  | .own core addr => Sys2Proof.Machine.execOwn core addr s
  | .writeThroughStore core addr data => Sys2Proof.Machine.execWriteThroughStore core addr data s
  | .nonCachingRead addr => Sys2Proof.Machine.execNonCachingRead addr s
  | .nonCachingWrite addr data => Sys2Proof.Machine.execNonCachingWrite addr data s
  | .evictionNotice core addr => Sys2Proof.Machine.execEvictionNotice core addr s
  | .catalogRead addr err => Sys2Proof.Machine.execCatalogRead addr err s
  | .catalogWrite addr data => Sys2Proof.Machine.execCatalogWrite addr data s
  | .writeAttempt fail0 fail1 mergeErr => Sys2Proof.Machine.execWriteAttempt fail0 fail1 mergeErr s
  | .mapUpdate fails => Sys2Proof.Machine.execMapUpdate fails s
  | .summaryRebuildStart => Sys2Proof.Machine.execSummaryRebuildStart s
  | .summaryRebuildDone bad => Sys2Proof.Machine.execSummaryRebuildDone bad s
  | .scrubRead err => Sys2Proof.Machine.execScrubRead err s
  | .go core place => Sys2Proof.Machine.execGo core place s
  | .dmaTransferStart place => Sys2Proof.Machine.execDmaTransferStart place s
  | .dmaBeat place => Sys2Proof.Machine.execDmaBeat place s
  | .dmaEnd place => Sys2Proof.Machine.execDmaEnd place s
  | .dmaCntClr => Sys2Proof.Machine.execDmaCntClr s
  | .unwrap slot => Sys2Proof.Machine.execUnwrap slot s
  | .clearKey slot => Sys2Proof.Machine.execClearKey slot s
  | .sha256 len => Sys2Proof.Machine.execSha256 len s
  | .verifyImage => Sys2Proof.Machine.execVerifyImage s
  | .verifyUnlock => Sys2Proof.Machine.execVerifyUnlock s
  | .signAttest => Sys2Proof.Machine.execSignAttest s
  | .random => Sys2Proof.Machine.execRandom s
  | .attestPub => Sys2Proof.Machine.execAttestPub s
  | .cryptOperationEnd => Sys2Proof.Machine.execCryptOperationEnd s
  | .kek word value => Sys2Proof.Machine.execKek word value s
  | .cryptCntClr => Sys2Proof.Machine.execCryptCntClr s
  | .memctlCntClr => Sys2Proof.Machine.execMemctlCntClr s
  | .catCntClr => Sys2Proof.Machine.execCatCntClr s
  | .xramClr => Sys2Proof.Machine.execXramClr s
  | .arbRequest inst k beats prio ctx => Sys2Proof.Machine.execArbRequest inst k beats prio ctx s
  | .arbDecision inst => Sys2Proof.Machine.execArbDecision inst s
  | .arbCntClr => Sys2Proof.Machine.execArbCntClr s
  | .cleatValueWrite core cleat value => Sys2Proof.Machine.execCleatValueWrite core cleat value s
  | .cleatAcas core cleat expected value => Sys2Proof.Machine.execCleatAcas core cleat expected value s
  | .cleatWaitRead core cleat rd => Sys2Proof.Machine.execCleatWaitRead core cleat rd s
  | .cleatLeaseWrite core cleat => Sys2Proof.Machine.execCleatLeaseWrite core cleat s
  | .waitTimeout ctx => Sys2Proof.Machine.execWaitTimeout ctx s
  | .leaseExpired cleat => Sys2Proof.Machine.execLeaseExpired cleat s
  | .waitBroken => Sys2Proof.Machine.execWaitBroken s
  | .lockCntClr => Sys2Proof.Machine.execLockCntClr s
  | .energyDetect port => Sys2Proof.Machine.execEnergyDetect port s
  | .catalogBankReady bank => Sys2Proof.Machine.execCatalogBankReady bank s
  | .excursionTimeout => Sys2Proof.Machine.execExcursionTimeout s
  | .foreignFrame sd b0 b1 => Sys2Proof.Machine.execForeignFrame sd b0 b1 s
  | .query ports a b late => Sys2Proof.Machine.execQuery ports a b late s
  | .probe tenant key late => Sys2Proof.Machine.execProbe tenant key late s
  | .status => Sys2Proof.Machine.execStatus s
  | .wakeShelf => Sys2Proof.Machine.execWakeShelf s
  | .sleepShelf => Sys2Proof.Machine.execSleepShelf s
  | .ticketFetch tenant ticket => Sys2Proof.Machine.execTicketFetch tenant ticket s
  | .gauge => Sys2Proof.Machine.execGauge s
  | .time => Sys2Proof.Machine.execTime s
  | .cmdChunk ctl data => Sys2Proof.Machine.execCmdChunk ctl data s
  | .replyStart => Sys2Proof.Machine.execReplyStart s
  | .slotEnd => Sys2Proof.Machine.execSlotEnd s
  | .headBeacon conflict => Sys2Proof.Machine.execHeadBeacon conflict s
  | .probeRptPost buf => Sys2Proof.Machine.execProbeRptPost buf s
  | .reportFragment slot => Sys2Proof.Machine.execReportFragment slot s
  | .undelivered => Sys2Proof.Machine.execUndelivered s
  | .pairTx => Sys2Proof.Machine.execPairTx s
  | .pair frame => Sys2Proof.Machine.execPair frame s
  | .pairAck frame => Sys2Proof.Machine.execPairAck frame s
  | .pairMiss => Sys2Proof.Machine.execPairMiss s
  | .jabber port => Sys2Proof.Machine.execJabber port s
  | .stuck port => Sys2Proof.Machine.execStuck port s
  | .edMaskTestEnd port idle => Sys2Proof.Machine.execEdMaskTestEnd port idle s
  | .setWake => Sys2Proof.Machine.execSetWake s
  | .setSleep => Sys2Proof.Machine.execSetSleep s
  | .probeChunkRel => Sys2Proof.Machine.execProbeChunkRel s
  | .spineCntClr => Sys2Proof.Machine.execSpineCntClr s
  | .probeCntClr => Sys2Proof.Machine.execProbeCntClr s
  | .udpDatagram port frame => Sys2Proof.Machine.execUdpDatagram port frame s
  | .commandStart => Sys2Proof.Machine.execCommandStart s
  | .commandComplete => Sys2Proof.Machine.execCommandComplete s
  | .nop c => Sys2Proof.Machine.execNop c s
  | .ident c => Sys2Proof.Machine.execIdent c s
  | .cfgSet c => Sys2Proof.Machine.execCfgSet c s
  | .cfgGet c => Sys2Proof.Machine.execCfgGet c s
  | .regRead c => Sys2Proof.Machine.execRegRead c s
  | .rptRead c => Sys2Proof.Machine.execRptRead c s
  | .rptClear c => Sys2Proof.Machine.execRptClear c s
  | .warmReset c => Sys2Proof.Machine.execWarmReset c s
  | .powerStat c => Sys2Proof.Machine.execPowerStat c s
  | .reefReq c => Sys2Proof.Machine.execReefReq c s
  | .shelfWake c => Sys2Proof.Machine.execShelfWake c s
  | .shelfSleep c => Sys2Proof.Machine.execShelfSleep c s
  | .powerSet c => Sys2Proof.Machine.execPowerSet c s
  | .bayStat c => Sys2Proof.Machine.execBayStat c s
  | .baySet c => Sys2Proof.Machine.execBaySet c s
  | .gangStart c => Sys2Proof.Machine.execGangStart c s
  | .gangStop c => Sys2Proof.Machine.execGangStop c s
  | .bayRestart c => Sys2Proof.Machine.execBayRestart c s
  | .serSend c => Sys2Proof.Machine.execSerSend c s
  | .serRecv c => Sys2Proof.Machine.execSerRecv c s
  | .catLookup c => Sys2Proof.Machine.execCatLookup c s
  | .catPut c => Sys2Proof.Machine.execCatPut c s
  | .catDelete c => Sys2Proof.Machine.execCatDelete c s
  | .catRead c => Sys2Proof.Machine.execCatRead c s
  | .catWrite c => Sys2Proof.Machine.execCatWrite c s
  | .catRegion c => Sys2Proof.Machine.execCatRegion c s
  | .tenStat c => Sys2Proof.Machine.execTenStat c s
  | .tenSeg c => Sys2Proof.Machine.execTenSeg c s
  | .tenActivate c => Sys2Proof.Machine.execTenActivate c s
  | .tenReset c => Sys2Proof.Machine.execTenReset c s
  | .tenLoad c => Sys2Proof.Machine.execTenLoad c s
  | .slotStat c => Sys2Proof.Machine.execSlotStat c s
  | .cleatRead c => Sys2Proof.Machine.execCleatRead c s
  | .cleatWrite c => Sys2Proof.Machine.execCleatWrite c s
  | .cleatAcquire c => Sys2Proof.Machine.execCleatAcquire c s
  | .cleatAcquireRetry => Sys2Proof.Machine.execCleatAcquireRetry s
  | .arbSet c => Sys2Proof.Machine.execArbSet c s
  | .gaugeRead c => Sys2Proof.Machine.execGaugeRead c s
  | .harvSet c => Sys2Proof.Machine.execHarvSet c s
  | .timeGet c => Sys2Proof.Machine.execTimeGet c s
  | .timeSet c => Sys2Proof.Machine.execTimeSet c s
  | .alarmSet c => Sys2Proof.Machine.execAlarmSet c s
  | .adcSet c => Sys2Proof.Machine.execAdcSet c s
  | .adcTable c => Sys2Proof.Machine.execAdcTable c s
  | .adcRingRead c => Sys2Proof.Machine.execAdcRingRead c s
  | .sfuTableLoad c => Sys2Proof.Machine.execSfuTableLoad c s
  | .sfuTableCrc c => Sys2Proof.Machine.execSfuTableCrc c s
  | .sfuRun c => Sys2Proof.Machine.execSfuRun c s
  | .norRead c => Sys2Proof.Machine.execNorRead c s
  | .norErase c => Sys2Proof.Machine.execNorErase c s
  | .norProgram c => Sys2Proof.Machine.execNorProgram c s
  | .imageActivate c => Sys2Proof.Machine.execImageActivate c s
  | .keyLoad c => Sys2Proof.Machine.execKeyLoad c s
  | .keyClear c => Sys2Proof.Machine.execKeyClear c s
  | .attest c => Sys2Proof.Machine.execAttest c s
  | .attestKey c => Sys2Proof.Machine.execAttestKey c s
  | .unlockChallenge c => Sys2Proof.Machine.execUnlockChallenge c s
  | .unlockResponse c => Sys2Proof.Machine.execUnlockResponse c s
  | .errRead c => Sys2Proof.Machine.execErrRead c s
  | .errPop c => Sys2Proof.Machine.execErrPop c s
  | .errStat c => Sys2Proof.Machine.execErrStat c s
  | .channelStart chan => Sys2Proof.Machine.execChannelStart chan s
  | .channelStop chan => Sys2Proof.Machine.execChannelStop chan s
  | .restart chan => Sys2Proof.Machine.execRestart chan s
  | .gangCmdStart gangs => Sys2Proof.Machine.execGangCmdStart gangs s
  | .gangCmdStop gangs => Sys2Proof.Machine.execGangCmdStop gangs s
  | .rampEnd chan srcOk => Sys2Proof.Machine.execRampEnd chan srcOk s
  | .shortTrip chan => Sys2Proof.Machine.execShortTrip chan s
  | .backoffExpiry chan => Sys2Proof.Machine.execBackoffExpiry chan s
  | .vb12OkRise group => Sys2Proof.Machine.execVb12OkRise group s
  | .bayUv group => Sys2Proof.Machine.execBayUv group s
  | .prsChg chan level => Sys2Proof.Machine.execPrsChg chan level s
  | .flt chan level => Sys2Proof.Machine.execFlt chan level s
  | .inputUnmask chan fault => Sys2Proof.Machine.execInputUnmask chan fault s
  | .bayuTx chan data => Sys2Proof.Machine.execBayuTx chan data s
  | .characterReceived chan data pe fe => Sys2Proof.Machine.execCharacterReceived chan data pe fe s
  | .bayuRx chan => Sys2Proof.Machine.execBayuRx chan s
  | .bayuRingMove chan => Sys2Proof.Machine.execBayuRingMove chan s
  | .receiverAdmission group => Sys2Proof.Machine.execReceiverAdmission group s
  | .bayuCntClr => Sys2Proof.Machine.execBayuCntClr s
  | .converterStart conv => Sys2Proof.Machine.execConverterStart conv s
  | .conversionDone conv microvolts => Sys2Proof.Machine.execConversionDone conv microvolts s
  | .adcRingMove => Sys2Proof.Machine.execAdcRingMove s
  | .refOk => Sys2Proof.Machine.execRefOk s
  | .seqEntryWrite conv entry value => Sys2Proof.Machine.execSeqEntryWrite conv entry value s
  | .adcCntClr => Sys2Proof.Machine.execAdcCntClr s
  | .sfuJobStart place => Sys2Proof.Machine.execSfuJobStart place s
  | .sfuJobEnd place => Sys2Proof.Machine.execSfuJobEnd place s
  | .tableWrite addr value => Sys2Proof.Machine.execTableWrite addr value s
  | .stdReady => Sys2Proof.Machine.execStdReady s
  | .sfuCntClr => Sys2Proof.Machine.execSfuCntClr s
  | .errRecord cls source tenant code seq address offset segment detail => Sys2Proof.Machine.execErrRecord cls source tenant code seq address offset segment detail s
  | .errDone => Sys2Proof.Machine.execErrDone s
  | .errPopWrite count => Sys2Proof.Machine.execErrPopWrite count s
  | .fatalResetDue => Sys2Proof.Machine.execFatalResetDue s
  | .rstN low => Sys2Proof.Machine.execRstN low s
  | .warm reason => Sys2Proof.Machine.execWarm reason s
  | .warmResetStart => Sys2Proof.Machine.execWarmResetStart s
  | .warmResetEnd boot strap => Sys2Proof.Machine.execWarmResetEnd boot strap s
  | .romBoot shelfId => Sys2Proof.Machine.execRomBoot shelfId s
  | .warmPath => Sys2Proof.Machine.execWarmPath s
  | .eraseSector => Sys2Proof.Machine.execEraseSector s
  | .eraseBlock => Sys2Proof.Machine.execEraseBlock s
  | .program andProgram => Sys2Proof.Machine.execProgram andProgram s
  | .norCheckDone => Sys2Proof.Machine.execNorCheckDone s
  | .norOperationDone bad => Sys2Proof.Machine.execNorOperationDone bad s
  | .norVerifyDone => Sys2Proof.Machine.execNorVerifyDone s
  | .norWindowRead addr => Sys2Proof.Machine.execNorWindowRead addr s
  | .eraseResume => Sys2Proof.Machine.execEraseResume s
  | .recLock => Sys2Proof.Machine.execRecLock s
  | .ethernetFrame port frame => Sys2Proof.Machine.execEthernetFrame port frame s
  | .arpRequest port frame => Sys2Proof.Machine.execArpRequest port frame s
  | .icmpEcho port frame => Sys2Proof.Machine.execIcmpEcho port frame s
  | .linkUp port full1000 => Sys2Proof.Machine.execLinkUp port full1000 s
  | .linkDown port => Sys2Proof.Machine.execLinkDown port s
  | .consoleByte port data => Sys2Proof.Machine.execConsoleByte port data s
  | .consoleFrame port => Sys2Proof.Machine.execConsoleFrame port s
  | .gpioEvent pin level => Sys2Proof.Machine.execGpioEvent pin level s
  | .psuPg level => Sys2Proof.Machine.execPsuPg level s
  | .psuAlert asserted => Sys2Proof.Machine.execPsuAlert asserted s
  | .pgTimeout => Sys2Proof.Machine.execPgTimeout s
  | .ledShift value => Sys2Proof.Machine.execLedShift value s
  | .extest cells sampled => Sys2Proof.Machine.execExtest cells sampled s
  | .samplePreload cells sampled => Sys2Proof.Machine.execSamplePreload cells sampled s
  | .idcode => Sys2Proof.Machine.execIdcode s
  | .clamp => Sys2Proof.Machine.execClamp s
  | .highz => Sys2Proof.Machine.execHighz s
  | .jtagDebug => Sys2Proof.Machine.execJtagDebug s
  | .bypass code => Sys2Proof.Machine.execBypass code s
  | .trstN => Sys2Proof.Machine.execTrstN s
  | .tracePacket source kind payload => Sys2Proof.Machine.execTracePacket source kind payload s
  | .reservedMajorOpcode core opcode x => Sys2Proof.Machine.execReservedMajorOpcode core opcode x s
  | .spineFrameDiscarded port sd nbits bytes => Sys2Proof.Machine.execSpineFrameDiscarded port sd nbits bytes s
  | .falseStart chan => Sys2Proof.Machine.execFalseStart chan s
  | .characterShiftedOut chan => Sys2Proof.Machine.execCharacterShiftedOut chan s
  | .fanTachEdge fan => Sys2Proof.Machine.execFanTachEdge fan s
  | .wdtOutNRelease => Sys2Proof.Machine.execWdtOutNRelease s

end Sys2Proof.Machine
end

