-- ==== Sys2Proof/Safety.lean ====
section
/-! DEFINITION. The terms that statements about the machine are made in: the canonical form of memory and registers, and when a
core runs the instruction that a command carries. -/
namespace Sys2Proof.Machine

/-- Memory is in its canonical form: addresses strictly rising, no byte listed that an unlisted address reads as. -/
def Memory.wf (m : Tab Byte) : Bool := Tab.wf memDefault m

/-- The register file is in its canonical form. -/
def Regs.wf (r : Tab Nat) : Bool := Tab.wf regReset r

/-- Memory and registers are in their canonical form, so that equal contents are equal data. -/
def State.canonical (s : State) : Bool := Memory.wf s.mem && Regs.wf s.regs

/-- A core runs instructions: it is released, in state running, has a context if it is a tenant core, and no imprecise error is
due (R127, R129). -/
def State.runs (s : State) (c : Nat) : Bool :=
  s.isUp (6 + c) && (s.core c).run == .running && (c == 0 || (s.core c).slot.isSome) && !(s.core c).impDue

/-- The state in which the instruction of a core does its own work: no interrupt of the CC shows (R129), stores of another context
have drained (R133) and the fetch has passed (R117, R118). `none` where the core does not run, an interrupt comes first, it must
wait, or the fetch traps. -/
def State.ready (s : State) (c : Nat) : Option State :=
  if s.runs c && (s.boundary c).isNone then
    (s.drainForeign c).bind (fun s0 => match s0.fetch c with | .data _ s1 => some s1 | _ => none)
  else none

/-- A core goes on behind its instruction, changed by `f`. -/
def State.goOn (s : State) (c : Nat) (f : Core → Core) : State :=
  s.setCore c { f (s.core c) with pc := (s.core c).pc + 4#32 }


end Sys2Proof.Machine
end

