-- ==== Sys2Proof/Certificates/Slice0/Obligations.lean ====
section
/-! DEFINITION. The statements about the model for the provers, from the manual's numbered rules. -/
open Sys2Proof Sys2Proof.Machine

/-! ### The machine as a whole -/

/-- A step with a command in front is exec of that command on the state with the rest of the queue. -/
def Obligations.StepRunsFrontCommand : Prop :=
  ∀ (c : Instr) (rest : List Instr) (s : State),
    step { s with pending := c :: rest } = exec c { s with pending := rest }

/-- With no command waiting one XT1 cycle passes: the model's choice, log entry 9. SUBSEC and FRAME_POS count, the trace port
empties its FIFO, CLKOUT's tick pulse ends (R89), and nothing else changes. -/
def Obligations.IdleStepIsOneXt1Cycle : Prop :=
  ∀ s : State, s.pending = [] → ∃ t, step s = .next t ∧
    t.rtc = (if s.rtc.halted then s.rtc else { s.rtc with sub := min 32767 (s.rtc.sub + 1) }) ∧
    t.reg (fk 0x40004014 0) = (if s.tickLogic then min 1023 (s.reg (fk 0x40004014 0) + 1) else s.reg (fk 0x40004014 0)) ∧
    (∀ k, k ≠ fk 0x40004014 0 → t.reg k = s.reg k) ∧ t.serv = { s.serv with trace := [] } ∧
    t.clk = { s.clk with tickHigh := false } ∧ { t with rtc := s.rtc, regs := s.regs, serv := s.serv, clk := s.clk } = s

/-- No command of the table stops the machine: each answers a next state in every state. -/
def Obligations.EveryCommandAnswersNext : Prop :=
  ∀ (c : Instr) (s : State), ∃ t, exec c s = .next t

/-- No command touches the queue of waiting commands. -/
def Obligations.CommandsLeaveQueueUntouched : Prop :=
  ∀ (c : Instr) (s t : State), exec c s = .next t → t.pending = s.pending

/-- Every step keeps memory and registers in their canonical form, from every state that has it. -/
def Obligations.StepKeepsCanonicalForm : Prop :=
  ∀ s t : State, s.canonical = true → step s = .next t → t.canonical = true

/-- The state after reset has the canonical form, an empty queue and no byte of memory listed. After reset every register
field holds its table's reset value, but for START_EMPTY (R40) and the tick source (R80), which read 1; a sample of the
tables' values in numbers. -/
def Obligations.ResetStateAndRegisterValues : Prop :=
  (State.reset.canonical = true ∧ State.reset.pending = [] ∧ State.reset.mem = []) ∧
  ((∀ k, k ≠ fk 0x40001044 0 → k ≠ fk 0x40002040 4 → State.reset.reg k = regReset k) ∧
    State.reset.reg (fk 0x40001044 0) = 1 ∧ State.reset.reg (fk 0x40002040 4) = 1 ∧
    (∀ e ∈ [(0x40000004, 0, 0x0003), (0x40000008, 7, 0x1FFFFFF), (0x4000000C, 0, 0x003FCFFF), (0x40000020, 7, 0x1FFFFFF),
        (0x40000024, 0, 0x003FCFFF), (0x40000028, 0, 0xE), (0x4000004C, 0, 0x7FFF), (0x40000050, 0, 0x066F),
        (0x40001014, 0, 220), (0x40001014, 10, 280), (0x40001014, 20, 500), (0x4000108C, 0, 1), (0x40002008, 0, 7),
        (0x40003018, 24, 6)], regReset (fk e.1 e.2.1) = e.2.2))

/-! ### Configuration registers -/

/-- R25, Table 2-1: the check of one field, in the table's order: RO is ignored, a STOPPED field of a running block refuses, a
reserved enumeration value is refused, a value out of range is clamped to the nearer bound, anything else is accepted. A field
whose bounds depend on others is checked against the bounds they give. Each outcome but the accepted one adds one entry, of
the layout of Table 2-2, behind those of the fields before it. -/
def Obligations.FieldChecksInTableOrder : Prop :=
  ∀ (s : State) (ws : List (Key × Nat)) (b o v : Nat) (f : Fld),
    (f.ty = .ro → s.checkField ws b o f v = (none, none)) ∧
    (f.ty = .rw ∨ f.ty = .wo → f.cls = .stopped → s.running b o = true → s.checkField ws b o f v = (none, some 3)) ∧
    (f.ty = .rw ∨ f.ty = .wo → ¬(f.cls = .stopped ∧ s.running b o = true) →
      (∀ l, f.rng = .enumOf l → v ∉ l → s.checkField ws b o f v = (none, some 2)) ∧
      (∀ l, f.rng = .enumOf l → v ∈ l → s.checkField ws b o f v = (some v, none)) ∧
      (∀ lo hi, f.rng = .rg lo hi → v < lo → s.checkField ws b o f v = (some lo, some 0)) ∧
      (∀ lo hi, f.rng = .rg lo hi → lo ≤ v → hi < v → s.checkField ws b o f v = (some hi, some 1)) ∧
      (∀ lo hi, f.rng = .rg lo hi → lo ≤ v → v ≤ hi → s.checkField ws b o f v = (some v, none)) ∧
      (∀ lo hi, f.rng = .zeroOr lo hi → s.checkField ws b o f v = if v = 0 ∨ (lo ≤ v ∧ v ≤ hi) then (some v, none) else
        if v < lo then (some lo, some 0) else (some hi, some 1)) ∧
      (f.rng = .clear → s.checkField ws b o f v = (some 0, if v = 0 then none else some 0)) ∧
      (f.rng = .dep → s.checkField ws b o f v = (s.depRange ws b o f.lo v).check v) ∧
      (f.rng = .any → s.checkField ws b o f v = (some v, none))) ∧
    (∀ c, let r := s.checkField c.ws b o f v
      let d := s.checkInto b o c f v
      (∀ x, r.1 = some x → d.ws = c.ws ++ [(fk (blockBase b + o) f.lo, x)]) ∧ (r.1 = none → d.ws = c.ws) ∧
      (∀ a, r.2 = some a → d.entries = c.entries ++ [rptEntry (entryField b f) a v]) ∧ (r.2 = none → d.entries = c.entries)) ∧
    (∀ fld a, fld < 65536 → a < 16 → bits (rptEntry fld a v) 16 16 = fld ∧ bits (rptEntry fld a v) 12 4 = a ∧
      bits (rptEntry fld a v) 0 12 = v % 4096)

/-- A register write that reaches its block: outside the common area it is checked field by field and its entries are
reported; in an FCLK block its fields take effect with the register's action, in a block of XT1 it crosses. A register whose own
converter, core or bay group is off in a block that answers holds nothing (log entry 19). A block that does not answer takes
nothing (R17). The registers that cross, and no other, are those of PMU, HARV, RTC and WAKE (R34). -/
def Obligations.RegisterWriteChecksReportsAndTakesEffect : Prop :=
  (∀ (addr value : Word) (s : State) (b : Nat), blockOf addr.toNat = some b → s.addrOn addr.toNat = true → s.isUp 5 = true →
    ¬(0x4000E800 ≤ addr.toNat ∧ addr.toNat < 0x4000E840) →
    ¬(commonBase b ≤ addr.toNat ∧ addr.toNat < commonBase b + 0x30) → ¬(0x40000DF8 ≤ addr.toNat ∧ addr.toNat < 0x40000F00) →
    let c := s.checkWord b (addr.toNat - blockBase b) value.toNat 0xFFFFFFFF
    let s1 := s.reportAll b c.entries
    (crossesXt1 b = false → s.regOn addr.toNat = true →
      exec (.registerWrite addr value) s = .next (s1.takeWrite 0 b addr.toNat c.ws)) ∧
    (crossesXt1 b = false → s.regOn addr.toNat = false → exec (.registerWrite addr value) s = .next s1) ∧
    (crossesXt1 b = true → c.ws ≠ [] → exec (.registerWrite addr value) s =
      .next { s1 with crossing := s1.crossing ++ [{ block := b, addr := addr.toNat, writes := c.ws }] })) ∧
  (∀ (addr value : Word) (s : State) (b : Nat), blockOf addr.toNat = some b →
    ¬(0x4000E800 ≤ addr.toNat ∧ addr.toNat < 0x4000E840) → s.addrOn addr.toNat = false ∨ s.isUp 5 = false →
    exec (.registerWrite addr value) s = .next s) ∧
  (∀ b, crossesXt1 b = true ↔ b = 0x00 ∨ b = 0x01 ∨ b = 0x11 ∨ b = 0x03)

/-- How a checked value takes effect by its type and latch class: LIVE and STOPPED at once (R19), FRAME in its shadow (R20),
W1C by clearing its ones, RO never; no other field changes. XSYNC_COMPLETE: the oldest write of the block that is crossing
takes effect, a write of CFG_CTRL as one of that register, and the others go on crossing (R33, R34). -/
def Obligations.FieldsTakeEffectByLatchClassAndCrossing : Prop :=
  (∀ (s : State) (k v : Nat) (f : Fld), fldOf k = some f →
      (f.ty = .rw → f.cls ≠ .frame → s.applyField (k, v) = s.setReg k v) ∧
      (f.ty = .rw → f.cls = .frame → (s.applyField (k, v)).reg k = s.reg k ∧ (s.applyField (k, v)).pendingVal k = some v ∧
        (s.applyField (k, v)).last k = v) ∧
      (f.ty = .w1c → (s.applyField (k, v)).reg k = s.reg k - (s.reg k &&& v)) ∧
      (f.ty = .ro → s.applyField (k, v) = s) ∧
      (∀ j, j ≠ k → (s.applyField (k, v)).reg j = s.reg j ∧ (s.applyField (k, v)).pendingVal j = s.pendingVal j)) ∧
  (∀ (block : BitVec 6) (s : State) (c : Crossing) (rest : List Crossing), s.crossing = c :: rest → c.block = block.toNat →
    (c.addr ≠ commonBase block.toNat + 4 →
      exec (.xsyncComplete block) s = .next (({ s with crossing := rest } : State).takeWrite 0 block.toNat c.addr c.writes)) ∧
    (∀ k v, c.addr = commonBase block.toNat + 4 → c.writes = [(k, v)] →
      exec (.xsyncComplete block) s = .next (({ s with crossing := rest } : State).ctrlWrite block.toNat v)))

/-- R22. DISCARD drops every pending shadow value of the block; the fields keep their values in effect, and the other blocks
keep theirs. With CLK's values dropped no switch is pending any more (R84). -/
def Obligations.DiscardDropsPendingValues : Prop :=
  ∀ (block : BitVec 6) (s : State), let b := block.toNat
    blockOf (commonBase b + 4) = some b → s.addrOn (commonBase b + 4) = true → s.isUp 5 = true → s.xsync b = false →
    ∃ t, exec (.discard block) s = .next t ∧ (∀ k, inBlock b k = true → t.pendingVal k = none) ∧
      (∀ k, inBlock b k = false → t.pendingVal k = s.pendingVal k) ∧
      (∀ k, k ≠ kView b → b ≠ 2 ∨ k ≠ kClkStat 7 → t.reg k = s.reg k) ∧ (b = 2 → t.flag (kClkStat 7) = false) ∧
      t.reg (kView b) = s.reg (kView b) % 2 ∧ t.mem = s.mem ∧ t.rings = s.rings ∧ t.gring = s.gring

/-- A report entry goes into the owning block's ring of 8 and the global ring of 64; in a full ring the oldest makes room and
LOST counts, saturating (R31). CLR empties a ring and its LOST count (R31): the block's ring, or the global ring; the others
stay. -/
def Obligations.ReportsEnterBothRingsAndClrEmptiesOne : Prop :=
  ((∀ (s : State) (b e : Nat), (s.report b e).ring b = Ring.push 8 8 (s.ring b) e ∧
      (s.report b e).gring = Ring.push 64 14 s.gring e ∧ (∀ c, c ≠ b → (s.report b e).ring c = s.ring c) ∧
      (∀ k, (s.report b e).reg k = s.reg k)) ∧
    (∀ (n w e : Nat) (r : Ring), 0 < n →
      Tab.get (fun _ => 0) (Ring.push n w r e).slots r.next = e ∧ (Ring.push n w r e).next = (r.next + 1) % n ∧
      (Ring.push n w r e).valid = min (r.valid + 1) n ∧
      (Ring.push n w r e).lost = if r.valid = n then min (r.lost + 1) (2 ^ w - 1) else r.lost)) ∧
  (∀ (block : BitVec 6) (s : State), let b := block.toNat
      (blockOf (commonBase b + 8) = some b → s.addrOn (commonBase b + 8) = true → s.isUp 5 = true → s.xsync b = false →
        exec (.clr (some block)) s = .next (s.setRing b {})) ∧
      (s.aon = true → s.isUp 5 = true → s.xsync 0 = false → exec (.clr none) s = .next { s with gring := {} }))

/-! ### Harvest, store and power -/

/-- A gauge update publishes its values together (R51): voltage, energy over the cut, allowance, stamp; and the powers over
the last 64 updates. A due input then starts its sample (R42); while domain 04 is off the pin masks run down and a judged XT1
becomes the tick source (R75, R80); allowance 1 forces FURL (R64), and allowance 2 demotes a Reef 2 in force (R65). R52: the
allowance is 7 with
PSU_PG; otherwise the highest of 2 to 6 whose threshold the energy reaches, a threshold above the previous allowance being
raised by the hysteresis, else 1; then at most 5 below 3.00 V and at most 3 while STORE_LOW is active; it is 1 after AON
reset. -/
def Obligations.GaugeUpdateAndAllowance : Prop :=
  (∀ (vstore harvested drawn cycles : Nat) (s : State), s.aon = true → s.cat.hold15 = false →
      let p := s.publish vstore harvested drawn cycles
      let v := min vstore 8191
      let e := gaugeEnergy v (s.reg kCut * 10) (s.reg (fk 0x40001010 0))
      p.reg kVstore = v ∧ p.reg kEnergy = min e 16777215 ∧ p.reg kStamp = (s.reg kStamp + 1) % 65536 ∧
      p.reg kAllow = s.allowance (min e 16777215) v s.serv.pg ∧
      p.harv.window = ((harvested, drawn, cycles) :: s.harv.window).take 64 ∧
      let q := if s.domSt 4 = .off then p.startSample.pinBoundary.sourceToXt1 else p.startSample
      (3 ≤ p.reg kAllow → exec (.gaugeUpdate vstore harvested drawn cycles) s = .next q) ∧
      (p.reg kAllow = 1 → exec (.gaugeUpdate vstore harvested drawn cycles) s = .next q.forceFurl) ∧
      (p.reg kAllow = 2 → p.reg kLevel = 2 → s.reg kPhase = 0 → exec (.gaugeUpdate vstore harvested drawn cycles) s = .next q.demote) ∧
      (p.reg kAllow = 2 → p.reg kLevel ≠ 2 ∨ s.reg kPhase ≠ 0 → exec (.gaugeUpdate vstore harvested drawn cycles) s = .next q)) ∧
  (∀ (s : State) (e v : Nat),
      let thr := fun k => s.allowE k + (if s.allow < k then s.reg (fk 0x40001018 0) else 0)
      let a := s.allowance e v false
      regReset kAllow = 1 ∧ s.allowance e v true = 7 ∧ (∀ top, (∀ k ∈ [2, 3, 4, 5, 6], thr k ≤ e → k ≤ top) →
        top = 1 ∨ (top ∈ [2, 3, 4, 5, 6] ∧ thr top ≤ e) →
        a = min (min top (if v < 3000 then 5 else top)) (if s.storeLow then 3 else top)))

/-- Samples and FULL (R38, R42–R45): the end of a sample publishes the open-circuit voltage, in units of its register, and what it
reads decides its converter: HVA goes on down to 10 mV and starts at 18 mV, HVB works from 0.40 V to 4.50 V; FULL stops both
converters and clears the sample in hand; when it clears, both inputs are due and the converters go on as they were (log entry
134). STORE_LOW, the cut and the load switch (R48–R50): the crossing raises its event and starts the frame count; its end cancels
it; the fourth tick forces Reef 3; a decided cut starts no entry, and the switch opens once no started entry and no map update of a
retired entry is left; an XT1 that runs then clocks the RTC (R103). -/
def Obligations.SamplesFullStoreLowAndTheCut : Prop :=
  (∀ s : State, s.aon = true →
      (∀ uv, s.harv.sampling = some false → ∃ t, exec (.mpptSampleEnd false uv) s = .next t ∧
        let v := min ((uv + 5) / 10) 65535
        t.reg (fk 0x40001048 0) = v ∧ t.harv.sampling = none ∧ t.flag (kHarvStat 7) = false ∧
        t.harv.hvaOn = (if s.harv.hvaOn then decide (1000 ≤ v) else decide (1800 ≤ v)) ∧ t.harv.hvbOn = s.harv.hvbOn ∧
        t.flag (kHarvStat 5) = (t.harv.hvaOn && !s.flag (kHarvStat 2)) ∧ t.mem = s.mem) ∧
      (∀ uv, s.harv.sampling = some true → ∃ t, exec (.mpptSampleEnd true uv) s = .next t ∧
        let v := min ((uv + 500) / 1000) 8191
        t.reg (fk 0x4000104C 0) = v ∧ t.harv.sampling = none ∧ t.flag (kHarvStat 8) = false ∧
        t.harv.hvbOn = decide (400 ≤ v ∧ v ≤ 4500) ∧ t.harv.hvaOn = s.harv.hvaOn ∧
        t.flag (kHarvStat 6) = (t.harv.hvbOn && !s.flag (kHarvStat 2)) ∧ t.mem = s.mem) ∧
      (∃ t, exec .fullRise s = .next t ∧ t.flag (kHarvStat 2) = true ∧ t.flag (kHarvStat 5) = false ∧
        t.flag (kHarvStat 6) = false ∧ t.harv.sampling = none ∧ t.mem = s.mem) ∧
      (s.flag (kHarvStat 2) = true → ∃ t, exec .fullClear s = .next t ∧ t.flag (kHarvStat 2) = false ∧
        t.flag (kHarvStat 5) = s.harv.hvaOn ∧ t.flag (kHarvStat 6) = s.harv.hvbOn ∧ t.harv.sinceA = none ∧ t.harv.sinceB = none)) ∧
  (∀ s : State,
      (s.aon = true → s.vstbyOk = false → s.storeLow = false → exec .storeLow s =
        .next (((({ s with harv := { s.harv with lowTicks := some 0 } } : State).setFlag (kHarvStat 3) true).setFlag
          (kHarvEvent 3) true).halyard 7)) ∧
      (s.aon = true → s.storeLow = true → exec .storeLowEnd s =
        .next (({ s with harv := { s.harv with lowTicks := none } } : State).setFlag (kHarvStat 3) false)) ∧
      (∀ n, s.aon = true → s.storeLow = true → s.harv.lowTicks = some n → 4 ≤ n →
        exec .storeLowForcedEntry s = .next s.storeLowEntry) ∧
      (s.aon = true → s.harv.st = .harvest → exec .loadCut s = .next { s with harv := { s.harv with cutDecided := true } }) ∧
      (s.harv.cutDecided = true → s.harv.st = .harvest → s.cat.wb.all (fun e => !e.started) = true →
        s.cat.mapDue.all (fun d => !d.retires) = true → let u := s.loseNor.powerLost
        exec .loadSwitchOpen s = .next (u.setFlag (kRtcStat 1) u.rtcOnXt1)))

/-- What the opening of the load switch leaves (R39, R50): the harvester in BARE, or in EMPTY where the keep cell holds nothing, AON
unpowered, every domain off, the catalog array and the NOR as they were, every other byte as an unlisted one; RTC and the keep
cell's thresholds stay, every other register is at its reset value. The keep cell, VSTBY and power-on (Table 3-2, R40, R41, R66): the thresholds' reset, their
loss to free values, the closing of the load switch, the change of supply, and what a release of AON power-on reset shows. The
values a lost threshold reads are free. -/
def Obligations.PowerLossKeepCellAndStandby : Prop :=
  (∀ (s : State),
      s.powerLost.harv.st = (if s.harv.kept then .bare else .empty) ∧ s.powerLost.aon = false ∧ (∀ d, s.powerLost.domSt d = .off) ∧
      (∀ a, 0x20000000 ≤ a → a < 0x24000000 → s.powerLost.rd a = s.rd a) ∧
      (∀ a, 0x01000000 ≤ a → a < 0x01800000 → s.powerLost.rd a = s.rd a) ∧
      (∀ a, ¬(0x20000000 ≤ a ∧ a < 0x24000000) → ¬(0x01000000 ≤ a ∧ a < 0x01800000) → s.powerLost.rd a = memDefault a) ∧
      (∀ k, 0x40003000 ≤ keyAddr k → keyAddr k < 0x40004000 → s.powerLost.reg k = s.reg k) ∧
      (∀ k, keyAddr k = 0x40001014 → s.powerLost.reg k = s.reg k) ∧
      (∀ k, ¬(0x40003000 ≤ keyAddr k ∧ keyAddr k < 0x40004000) → keyAddr k ≠ 0x40001014 → s.powerLost.reg k = regReset k) ∧
      s.powerLost.rtc = s.rtc ∧ s.powerLost.cat.wb = []) ∧
  (∀ s : State,
      (s.harv.kept = false → ∃ t, exec .keepCellLoad s = .next t ∧ t.reg kCut = 220 ∧ t.reg kRearm = 280 ∧ t.reg kFull = 500 ∧
        t.harv.kept = true ∧ t.harv.loaded = true ∧ (s.harv.st = .empty → t.harv.st = .bare) ∧
        (s.harv.st ≠ .empty → t.harv.st = s.harv.st) ∧ (∀ k, k ≠ kCut → k ≠ kRearm → k ≠ kFull → t.reg k = s.reg k) ∧ t.mem = s.mem) ∧
      (s.harv.kept = true → ∃ t, exec .keepCellLoss s = .next t ∧ t.harv.kept = false ∧
        (s.harv.st = .bare → t.harv.st = .empty) ∧ (s.harv.st ≠ .bare → t.harv.st = s.harv.st) ∧ t.fresh = s.fresh + 3 ∧
        (∀ k, k ≠ kCut → k ≠ kRearm → k ≠ kFull → t.reg k = s.reg k) ∧ t.mem = s.mem) ∧
      (s.harv.st = .bare ∨ s.harv.st = .empty → s.harv.kept = true → exec .loadReconnect s =
        .next { s with harv := { s.harv with st := .harvest, por := true, porStby := false } }) ∧
      (s.harv.st = .bare ∨ s.harv.st = .empty → exec .stbyUp s =
        .next { s with harv := { s.harv with st := .standby, por := true, porStby := true } }) ∧
      (s.harv.st = .harvest → s.harv.por = false → ∃ t, exec .stbyUp s = .next t ∧ t.harv.st = .standby ∧
        t.harv.cutDecided = false ∧ t.vstbyOk = true ∧ t.storeLow = false) ∧
      (s.harv.st = .standby → s.harv.por = false → ∃ u t, exec .stbyLost s = .next t ∧ t = u.forceFirc.halyard 8 ∧
        u = shedDomains.foldl (fun s d => s.offDom d) ((({ s with harv := { s.harv with st := .harvest } } : State).setFlag
          (kHarvStat 0) false).setFlag (kHarvEvent 6) true)) ∧
      (∀ boot strap, s.harv.por = true → ∃ t, exec (.aonPorRelease boot strap) s = .next t ∧ t.boot.bootBalls = boot.toNat ∧
        t.boot.strapBalls = strap.toNat ∧ t.boot.starting = true ∧ t.boot.accepting = false))

/-! ### Levels, domains, wakes and pins -/

/-- Requests of a level (R62): LEVEL 2 or more is refused while bays are active or PSU_EN is 1 (REFUSE 1, which the model shows also
where a code of 2 applies: log entry 137), or while a sequence or another request is in hand (2); otherwise it stands until the next
tick, a Reef 2 requested at allowance 2 as a Reef 3 that sets FORCED (R65). The commands that move between levels act as their
rules say (R61, R63, R68, R69) under the conditions those rules give. -/
def Obligations.ReefRequestsAndLevelCommands : Prop :=
  (∀ (level : Nat) (s : State), 2 ≤ level →
      (s.baysActive = true ∨ s.flag kPsuEn = true → (s.reefReq level).reg kRefuse = 1 ∧ (s.reefReq level).pmu = s.pmu ∧
        (s.reefReq level).reg kReefReq = 0) ∧
      (s.baysActive = false → s.flag kPsuEn = false → s.reg kPhase ≠ 0 ∨ s.flag kWakeSeq = true ∨ s.flag kSleepSeq = true ∨
        s.pmu.req.isSome = true → (s.reefReq level).reg kRefuse = 2 ∧ (s.reefReq level).pmu = s.pmu) ∧
      (s.baysActive = false → s.flag kPsuEn = false → s.reg kPhase = 0 → s.flag kWakeSeq = false → s.flag kSleepSeq = false →
        s.pmu.req = none → (s.reefReq level).reg kRefuse = 0 ∧ (s.reefReq level).pmu =
          (if level = 2 ∧ s.allow ≤ 2 then { s.pmu with req := some 3, reqLow := true }
           else { s.pmu with req := some level, reqLow := false }))) ∧
  (∀ s : State, s.aon = true →
      (∀ l, s.pmu.req = some l → s.reg kPhase = 0 → exec .entrySequenceStart s = .next (s.entryStart l false s.pmu.reqLow)) ∧
      (∀ l, s.pmu.entry = some l → s.reg kPhase = 1 → s.err.fatal = none → s.cat.wb = [] → s.cat.mapDue = [] →
        (∀ c, c < 5 → (s.core c).sb = []) → exec .entrySwitchOff s = .next (s.enterLevel l)) ∧
      (∀ l, s.pmu.entry = some l → s.reg kPhase = 1 → s.err.fatal = none → s.cat.wb ≠ [] →
        exec .entrySwitchOff s = .next s) ∧
      (s.reg kLevel = 0 → s.reg kPhase = 0 → s.flag (fk 0x40000000 0) = true ∨ s.pmu.req1 = true → s.reef1Ok = true →
        exec .reef1Entry s = .next (({ s with pmu := { s.pmu with req1 := false } } : State).setReg kLevel 1)) ∧
      (s.reg kLevel = 1 → s.reg kHalStat &&& s.reg kHalEn ≠ 0 ∨ s.irqShown ≠ 0 ∨ s.busWanted = true ∨
        (∃ c, c < 5 ∧ s.isUp (6 + c) = true ∧ (s.core c).quiet = false) → exec .reef1Exit s = .next (s.setReg kLevel 0)) ∧
      (s.reg kLevel ≠ 1 → exec .reef1Exit s = .next s) ∧
      (2 ≤ s.reg kLevel → s.reg kPhase = 0 → 2 ≤ s.allow → s.wakeCause ≠ 0 → exec .fullWakeStart s = .next s.fullWake) ∧
      (s.allow < 2 → exec .fullWakeStart s = .next s) ∧
      (s.reg kPhase = 2 → s.wakeDone = true → ∃ t, exec .wakeComplete s = .next t ∧ t.reg kPhase = 0 ∧ t.reg kLevel = 0 ∧
        t.reg kReefReq = 0 ∧ t.dom = s.dom))

/-- A domain's release (R58, R59): a domain switched on becomes released, and a tenant core or the CC takes the state of a
reset of its domain; a retained one keeps its content; one that is off or already released is left. A halyard event (R67): its
PMU_HAL_STAT bit is set, one enabled in PMU_HAL_EN leaves Reef 1 (R61), and it is kept for a wake exactly where it is enabled in
PMU_HAL_WAKE, can wake from the level in force or being entered, and does not come in a full wake (R72); no other register
changes. -/
def Obligations.DomainReleaseAndHalyardEvents : Prop :=
  (∀ (d : Fin 72) (s : State), s.aon = true →
      (s.domSt d = .rising → 6 ≤ d.val → d.val ≤ 10 → exec (.domainRelease d) s =
        .next ((s.setDom d .up).setCore (d.val - 6) (resetCore (d.val - 6)))) ∧
      (s.domSt d = .rising → (d.val < 4 ∨ (10 < d.val ∧ d.val ≠ 49 ∧ d.val ≠ 69)) →
        exec (.domainRelease d) s = .next (s.setDom d .up)) ∧
      (s.domSt d = .rising → d.val = 49 → exec (.domainRelease d) s = .next (s.setDom d .up).kekRelease) ∧
      (s.domSt d = .rising → d.val = 69 → exec (.domainRelease d) s =
        .next { s.setDom d .up with serv := { s.serv with consRx := 3 } }) ∧
      (s.domSt d = .rising → d.val = 4 → exec (.domainRelease d) s = .next (s.setDom 4 .up).frameRestart) ∧
      (s.domSt d = .rising → d.val = 5 → exec (.domainRelease d) s = .next (s.setDom 5 .up).fabReleased) ∧
      (s.domSt d = .resuming → d.val ≠ 5 → exec (.domainRelease d) s = .next (s.setDom d .up)) ∧
      (s.domSt d = .off ∨ s.domSt d = .up ∨ s.domSt d = .retained → exec (.domainRelease d) s = .next s) ∧
      (s.reg kPhase = 2 → exec (.wakeDomainRelease d) s = exec (.domainRelease d) s) ∧
      (s.reg kPhase = 2 → ∃ t, exec (.wakeDomainRelease d) s = .next t ∧ (s.domSt d = .rising → t.domSt d = .up))) ∧
  (∀ (s : State) (i : Nat), s.aon = true →
      (s.halyard i).reg kHalStat = setBit (s.reg kHalStat) i true ∧
      (∀ k, k ≠ kHalStat → k ≠ kLevel → (s.halyard i).reg k = s.reg k) ∧
      (s.halyard i).reg kLevel = (if bit (s.reg kHalEn) i = true ∧ s.reg kLevel = 1 then 0 else s.reg kLevel) ∧
      (bit (s.reg kHalWake) i = true → bit (canWake s.wakeLevel) i = true → s.reg kPhase ≠ 2 →
        (s.halyard i).pmu.wakeEv = setBit s.pmu.wakeEv i true) ∧
      (bit (s.reg kHalWake) i = false ∨ bit (canWake s.wakeLevel) i = false ∨ s.reg kPhase = 2 → (s.halyard i).pmu = s.pmu))

/-- The pin detectors (R74, R75): a qualified change of an unmasked pin sets its input bit, and where the detector is armed it
raises PIN and sets the pin's WAKE_STAT bit as MODE selects: the edge to the active level, the level once until the pin has
been qualified inactive, or both edges. The 33rd edge of a frame masks the pin and raises CHATTER; the 64th boundary after
that clears the mask. -/
def Obligations.WakePinDetector : Prop :=
  ∀ (pin : Fin 16) (s : State), s.aon = true →
    (∀ level, exec (.wakePinEdge pin level) s = .next (s.pinEdge pin level)) ∧
    (∀ level, (s.pin pin).masked.isSome = true → exec (.wakePinEdge pin level) s = .next s) ∧
    (∀ level, (s.pin pin).masked = none → (s.pin pin).qual ≠ some (level != s.flag (kPin pin 1)) → (s.pin pin).edges < 32 →
      let act := level != s.flag (kPin pin 1)
      let t := s.pinEdge pin level
      let mode := s.reg (kPin pin 2)
      let raises := t.reg kPinStat = setBit (s.reg kPinStat) pin true ∧ bit (t.reg kHalStat) 0 = true
      let quiet := t.reg kPinStat = s.reg kPinStat ∧ t.reg kHalStat = s.reg kHalStat
      t.reg kPinIn = setBit (s.reg kPinIn) pin act ∧
      ((s.pin pin).armed = true → s.flag (kPin pin 0) = true →
        (mode = 0 → if act then raises else quiet) ∧ (mode = 1 → if act then raises ∧ (t.pin pin).armed = false else quiet) ∧
        (mode = 2 → raises)) ∧
      ((s.pin pin).armed = false ∨ s.flag (kPin pin 0) = false → quiet) ∧
      ((s.pin pin).armed = false → (t.pin pin).armed = !act)) ∧
    (∀ level, (s.pin pin).masked = none → (s.pin pin).qual = some (!(level != s.flag (kPin pin 1))) → (s.pin pin).edges = 32 →
      let t := s.pinEdge pin level
      t.pin pin = { masked := some 64 } ∧ bit (t.reg kPinChat) pin = true ∧ bit (t.reg kPinMasked) pin = true ∧
      bit (t.reg kHalStat) 12 = true ∧ t.reg kPinStat = s.reg kPinStat) ∧
    ((s.pin pin).masked = some 0 → ∃ t, exec (.wakePinUnmask pin) s = .next t ∧ t.pin pin = {} ∧
      t.reg kPinMasked = setBit (s.reg kPinMasked) pin false ∧ (∀ k, k ≠ kPinMasked → t.reg k = s.reg k))

/-- R76. A write to any field of WAKE_PINn leaves pin n's detector unarmed and not yet qualified, and clears a pending mask;
the detector then arms only with a change that qualifies the pin inactive under the settings in force. -/
def Obligations.WakePinWriteUnarmsDetector : Prop :=
  ∀ (pin : Fin 16) (value : Word) (s : State), s.aon = true → s.isUp 5 = true → s.xsync 0x11 = false →
    (∃ t, exec (.wakePinWrite pin value) s = .next t ∧ t.pin pin = {} ∧
      t.reg kPinMasked = setBit (s.reg kPinMasked) pin false) ∧
    (∀ u : State, u.aon = true → u.pin pin = {} → ∀ level, ∃ v, exec (.wakePinEdge pin level) u = .next v ∧
      ((v.pin pin).armed = true ↔ level = u.flag (kPin pin 1)))

/-! ### Clocks, frame and calendar -/

/-- Clock sources (R79–R83, R87, R89): judgement, stability and lock set their status bits; their losses clear them, record
the event and move what was clocked from them. FMEAS (R90): START clears RES, DONE and OVF and sets BUSY; the end of the
window stores the count, saturated with OVF, and sets DONE; a clock that is stopped gives no edge: as the measured one it counts 0,
and as the reference no window ends. -/
def Obligations.ClockSourcesAndFrequencyMeasurement : Prop :=
  (∀ s : State,
      (s.aon = true → exec .xt1Judged s = .next (s.setFlag (kClkStat 0) true)) ∧
      (s.aon = true → s.flag (kClkStat 0) = true → exec .xt1Fail s =
        .next ((((s.unanchor (((s.setFlag (kClkStat 0) false).setFlag (kClkStat 4) true).clkEvent 0)).setFlag (kRtcEvent 2) true).setFlag
          (kRtcStat 1) false))) ∧
      (s.isUp 67 = true → exec .xt2Ok s = .next (s.setFlag (kClkStat 1) true)) ∧
      (s.isUp 67 = true → s.flag (kClkStat 1) = false → s.reg kPhase = 2 →
        exec .xt2Fail s = .next (if (s.clkEvent 1).reg kPhase = 2 then (s.clkEvent 1).wakeEnd else s.clkEvent 1)) ∧
      (s.isUp 67 = true → s.flag (kClkStat 1) = true →
        exec .xt2Stop s = .next ((((s.setFlag (kClkStat 1) false).clkEvent 1).pllLoss 0).pllLoss 1)) ∧
      (∀ pll, s.isUp (65 + ofBool pll) = true → s.flag (kClkStat 1) = true →
        exec (.pllLock pll) s = .next (s.setFlag (kClkStat (2 + ofBool pll)) true)) ∧
      (∀ pll : Bool, s.flag (kClkStat (2 + ofBool pll)) = true → ∃ t, exec (.pllLockLoss pll) s = .next t ∧
        t.flag (kClkStat (2 + ofBool pll)) = false ∧ t.flag (kClkEvent (2 + ofBool pll)) = true ∧
        t.reg kSrcEff = (if pll = false ∧ s.reg kSrcEff = 2 then 0 else s.reg kSrcEff)) ∧
      (∀ pll : Bool, s.flag (kClkStat (2 + ofBool pll)) = false → exec (.pllLockLoss pll) s = .next s) ∧
      (s.aon = true → exec .clkoutChange s = .next { s with clk := { s.clk with
        outSel := s.reg (fk 0x40002014 0), outDiv := s.reg (fk 0x40002014 16) } })) ∧
  (∀ s : State,
      (∀ value : Word, s.isUp 5 = true → s.aon = true → ∃ t, exec (.start value) s = .next t ∧
        t.flag (kFmStat 2) = true ∧ t.flag (kFmStat 0) = false ∧ t.flag (kFmStat 1) = false ∧ t.reg kFmRes = 0) ∧
      (∀ n, s.aon = true → s.flag (kFmStat 2) = true → s.clkRuns (s.reg (fk 0x40002020 0)) = true →
        let m := if s.clkRuns (s.reg (fk 0x40002020 4)) then n else 0
        ∃ t, exec (.fmeasDone n) s = .next t ∧ t.reg kFmRes = min m 0xFFFFFFFF ∧ t.flag (kFmStat 0) = true ∧
          t.flag (kFmStat 2) = false ∧ t.flag (kFmStat 1) = decide (0xFFFFFFFF < m) ∧ t.mem = s.mem) ∧
      (∀ n, s.clkRuns (s.reg (fk 0x40002020 0)) = false → exec (.fmeasDone n) s = .next s) ∧ s.clkRuns 0 = false)

/-- The frame tick and its latch edge (R91, R92): a tick with the fast path on awaits its edge; one with it off, or one that
finds another waiting, is counted as missed; the edge runs only where a tick awaits it. R20: at the latch edge every pending
FRAME value outside the clock switch moves into effect: a read-write field takes it, and nothing of it stays pending; fields
with nothing pending keep their value. -/
def Obligations.TickEdgeAndLatch : Prop :=
  (∀ s : State,
      (s.tickLogic = true → s.isUp 4 = true → s.clk.tickDue = false → ∃ t, exec .frameTick s = .next t ∧ t.clk.tickDue = true ∧
        t.clk.missed = s.clk.missed ∧ t.mem = s.mem ∧ t.frameNum = s.frameNum ∧ t.reg kAge = min (s.reg kAge + 1) 15) ∧
      (s.tickLogic = true → s.isUp 4 = true → s.clk.tickDue = true → ∃ t, exec .frameTick s = .next t ∧ t.clk.tickDue = true ∧
        t.clk.missed = s.clk.missed + 1) ∧
      (s.tickLogic = true → s.isUp 4 = false → s.clk.tickDue = false → ∃ t, exec .frameTick s = .next t ∧ t.clk.tickDue = false ∧
        t.clk.missed = s.clk.missed + 1) ∧
      (s.tickLogic = false → exec .frameTick s = .next s) ∧
      (s.aon = true → s.isUp 4 = true → s.clk.tickDue = true → exec .latchEdge s = .next s.latchEdge) ∧
      (s.clk.tickDue = false → exec .latchEdge s = .next s)) ∧
  (∀ (s : State), Tab.wf (fun _ => (none : Option Nat)) s.shadow = true →
      (∀ k v, clkKeys.contains k = false → s.pendingVal k = some v → (∃ f, fldOf k = some f ∧ f.ty ≠ .wo) →
        s.shadowLatch.reg k = v ∧ s.shadowLatch.pendingVal k = none) ∧
      (∀ k, s.pendingVal k = none → s.shadowLatch.reg k = s.reg k) ∧
      (∀ k, clkKeys.contains k = true → s.shadowLatch.pendingVal k = s.pendingVal k))

/-- Beacon alignment (R95–R97, R243, R263): of the frames that the receiving ports deliver a valid one is taken; a valid one anchors
or corrects FRAME while the tick source is XT1 and ANCHOR_EN is 1, and in every case enters the SPINE_BCN registers and clears the
age; one more than 192 off an anchored FRAME is only reported; seven ticks without one unanchor FRAME, and UNANCHORED is set where
ANCHORED read 1 before and reads 0 after. -/
def Obligations.BeaconsAnchorTheFrame : Prop :=
  (∀ (frame : Rx 208) (e : Int) (per : Nat) (s : State), s.tickLogic = true →
    (frame.ports.toNat &&& s.rxPorts = 0 → exec (.beacon frame e per) s = .next s) ∧
    (∀ u, s.pickFrame frame (crc16Ok 26) = (none, u) → exec (.beacon frame e per) s = .next u) ∧
    (∀ f u, s.pickFrame frame (crc16Ok 26) = (some f, u) → s.flag kHead = false → let bs := beBytes f.toNat 26
      (s.flag (kFrameStat 0) = false → s.flag kTickSirc = false → s.flag (fk 0x40004000 0) = true →
        exec (.beacon frame e per) s = .next ((u.acquire e per).frameAccepted.takeBeacon bs)) ∧
      (s.flag (kFrameStat 0) = true → e.natAbs ≤ 192 → s.flag kTickSirc = false → s.flag (fk 0x40004000 0) = true →
        exec (.beacon frame e per) s = .next ((u.correct e per).frameAccepted.takeBeacon bs)) ∧
      (s.flag (kFrameStat 0) = false ∨ e.natAbs ≤ 192 → s.flag kTickSirc = true ∨ s.flag (fk 0x40004000 0) = false →
        exec (.beacon frame e per) s = .next (u.frameAccepted.takeBeacon bs)) ∧
      (s.flag (kFrameStat 0) = true → 192 < e.natAbs → exec (.beacon frame e per) s = .next (u.setFlag (kSpineEvent 6) true)))) ∧
  (∀ s : State, s.aon = true → 7 ≤ s.reg kAge → exec .unanchored s = .next (s.unanchor s)) ∧
  (∀ s : State, s.reg kAge < 7 → exec .unanchored s = .next s) ∧
  (∀ s t : State, (s.unanchor t).flag (kFrameStat 0) = false ∧
    (s.anchored = true → t.headActive = false → (s.unanchor t).flag (kFrameEvent 1) = true) ∧
    (s.anchored = false ∨ t.headActive = true → (s.unanchor t).reg (kFrameEvent 1) = t.reg (kFrameEvent 1)))

/-- The calendar (R102): a second's roll-over carries through minutes, hours, days of the month, months and years, SUBSEC
returns to 0, and the fields stay legal; the leap years are Gregorian; WDAY is Saturday on 2000-01-01 and the next weekday at
each midnight. RTC's commands (R100, R101, R103–R105): the roll-over then compares the alarms; the RTC halts with AON
unpowered and resumes at an XT1 edge; a supply change shows in SUPPLY; backup power-on reset brings every RTC field but ON_XT1 to its
reset value, empties RTC's ring (R31), and changes no other field; ON_XT1 shows whether XT1 clocks the RTC (R103); CAPTURE and LOAD
copy the calendar's fields. -/
def Obligations.CalendarRollsOverAndObeysCommands : Prop :=
  (∀ r : Rtc, r.sec ≤ 59 → r.min ≤ 59 → r.hour ≤ 23 → 1 ≤ r.month → r.month ≤ 12 → 1 ≤ r.day → r.day ≤ monthLen r.year r.month →
      r.year ≤ 255 →
      let n := r.nextSecond
      n.sub = 0 ∧ n.sec ≤ 59 ∧ n.min ≤ 59 ∧ n.hour ≤ 23 ∧ 1 ≤ n.month ∧ n.month ≤ 12 ∧ 1 ≤ n.day ∧ n.day ≤ monthLen n.year n.month ∧
        n.year ≤ 255 ∧
      (r.sec = 59 → n.sec = 0) ∧ (r.sec < 59 → n = { r with sub := 0, sec := r.sec + 1 }) ∧
      (r.sec = 59 → r.min < 59 → n = { r with sub := 0, sec := 0, min := r.min + 1 }) ∧
      (r.sec = 59 → r.min = 59 → r.hour < 23 → n = { r with sub := 0, sec := 0, min := 0, hour := r.hour + 1 }) ∧
      (r.sec = 59 → r.min = 59 → r.hour = 23 → r.day < monthLen r.year r.month →
        n = { r with sub := 0, sec := 0, min := 0, hour := 0, day := r.day + 1 }) ∧
      (r.sec = 59 → r.min = 59 → r.hour = 23 → r.day = monthLen r.year r.month → n =
        { r with sub := 0, sec := 0, min := 0, hour := 0, day := 1, month := r.month % 12 + 1, year := (r.year + r.month / 12) % 256 }) ∧
      wday 0 1 1 = 6 ∧ (r.sec = 59 → r.min = 59 → r.hour = 23 → ¬(r.year = 255 ∧ r.month = 12 ∧ r.day = 31) →
        wday n.year n.month n.day = (wday r.year r.month r.day + 1) % 7) ∧
      (∀ y m, monthLen y m = if m = 2 then (if (2000 + y) % 4 = 0 ∧ ((2000 + y) % 100 ≠ 0 ∨ (2000 + y) % 400 = 0) then 29 else 28)
        else if m ∈ [4, 6, 9, 11] then 30 else 31)) ∧
  (∀ s : State,
      (∀ t, s.rtc.sub ≤ 32767 → s.pending = [] → step s = .next t → t.rtc.sub ≤ 32767) ∧
      (s.rtc.halted = false → exec .secondRollover s = .next (State.alarms { s with rtc := s.rtc.nextSecond })) ∧
      (s.aon = true → exec .halted s = .next s) ∧
      (s.aon = false → ∃ t, exec .halted s = .next t ∧ t.rtc = { s.rtc with halted := true } ∧ t.flag (kRtcEvent 3) = true ∧
        t.flag (kRtcStat 1) = false) ∧
      (s.rtc.halted = true → ∃ t, exec .rtcResume s = .next t ∧ t.rtc = { s.rtc with halted := false } ∧
        t.flag (kRtcStat 1) = true) ∧
      (∀ vbak, exec (.bkpSupplyChangeover vbak) s = .next (s.setFlag (kRtcStat 2) vbak)) ∧
      (∃ t, exec .bkpPor s = .next t ∧ t.rtc = { halted := s.rtc.halted } ∧ t.ring 3 = {} ∧ t.xsync 3 = false ∧
        (∀ k, 0x40003000 ≤ keyAddr k → keyAddr k < 0x40004000 → k ≠ kRtcStat 1 → t.reg k = regReset k) ∧
        t.flag (kRtcStat 1) = s.rtcOnXt1 ∧
        (∀ k, ¬(0x40003000 ≤ keyAddr k ∧ keyAddr k < 0x40004000) → t.reg k = s.reg k) ∧ (∀ b, b ≠ 3 → t.ring b = s.ring b) ∧
        t.mem = s.mem) ∧
      (s.aon = true → s.isUp 5 = true → s.crossing = [] →
        ∃ t, exec .capture s = .next t ∧ t.reg (fk 0x40003010 0) = s.rtc.sub ∧ t.reg (fk 0x40003014 0) = s.rtc.sec ∧
          t.reg (fk 0x40003014 8) = s.rtc.min ∧ t.reg (fk 0x40003014 16) = s.rtc.hour ∧ t.reg (fk 0x40003018 0) = s.rtc.year ∧
          t.reg (fk 0x40003018 8) = s.rtc.month ∧ t.reg (fk 0x40003018 16) = s.rtc.day ∧
          t.reg (fk 0x40003018 24) = wday s.rtc.year s.rtc.month s.rtc.day ∧ t.rtc = s.rtc) ∧
      (s.aon = true → s.isUp 5 = true → s.crossing = [] →
        ∃ t, exec .load s = .next t ∧ t.flag (kRtcStat 0) = true ∧ t.rtc.sub = 0 ∧ t.rtc.sec = s.reg (fk 0x40003004 0) ∧
          t.rtc.min = s.reg (fk 0x40003004 8) ∧ t.rtc.hour = s.reg (fk 0x40003004 16) ∧ t.rtc.year = s.reg (fk 0x40003008 0) ∧
          t.rtc.month = s.reg (fk 0x40003008 8) ∧ t.rtc.day = s.reg (fk 0x40003008 16) ∧ t.rtc.halted = s.rtc.halted))

/-! ### EKI (R110–R141) -/

/-- ALU (R121, R122): on a core that is ready, each func writes its result into g[rd], g0 staying 0, goes on behind the
instruction, and changes nothing else; a reserved func traps RSVD_OP. The immediate instructions (R122): ADDI and SLTI extend
imm18 by its sign, ANDI, ORI and XORI by zeros; SHI shifts by its low five bits; LUI sets the upper 22 bits; ADDPC adds to the
PC. Each goes on behind itself and changes nothing else. -/
def Obligations.RegisterAndImmediateResults : Prop :=
  (∀ (core : Fin 5) (x : BitVec 26) (s s1 : State), s.ready core = some s1 →
      let c := core.val
      let a := s1.gr c (wA x.toNat)
      let b := s1.gr c (wB x.toNat)
      let sh := b.toNat % 32
      let bool := fun p : Bool => if p then 1#32 else 0#32
      let gives := fun v : Word => exec (.alu core x) s = .next (s1.goOn c (·.setG (wD x.toNat) v))
      (wFunc x.toNat = 0 → gives (a + b)) ∧ (wFunc x.toNat = 1 → gives (a - b)) ∧
      (wFunc x.toNat = 2 → gives (a &&& b)) ∧ (wFunc x.toNat = 3 → gives (a ||| b)) ∧ (wFunc x.toNat = 4 → gives (a ^^^ b)) ∧
      (wFunc x.toNat = 5 → gives (a <<< sh)) ∧ (wFunc x.toNat = 6 → gives (a >>> sh)) ∧ (wFunc x.toNat = 7 → gives (a.sshiftRight sh)) ∧
      (wFunc x.toNat = 8 → gives (bool (decide (a.toInt < b.toInt)))) ∧ (wFunc x.toNat = 9 → gives (bool (decide (a.toNat < b.toNat)))) ∧
      (wFunc x.toNat = 10 → gives (a * b)) ∧ (wFunc x.toNat = 11 → gives (BitVec.ofInt 32 (a.toInt * b.toInt / 2 ^ 32))) ∧
      (wFunc x.toNat = 12 → gives (BitVec.ofNat 32 (a.toNat * b.toNat / 2 ^ 32))) ∧
      (wFunc x.toNat = 13 → b ≠ 0#32 → gives (BitVec.ofInt 32 (a.toInt.tdiv b.toInt))) ∧
      (wFunc x.toNat = 13 → b = 0#32 → gives 0xFFFFFFFF#32) ∧
      (wFunc x.toNat = 13 → a = 0x80000000#32 → b = 0xFFFFFFFF#32 → gives 0x80000000#32) ∧
      (wFunc x.toNat = 14 → b ≠ 0#32 → gives (BitVec.ofNat 32 (a.toNat / b.toNat))) ∧
      (wFunc x.toNat = 14 → b = 0#32 → gives 0xFFFFFFFF#32) ∧
      (wFunc x.toNat = 15 → b ≠ 0#32 → gives (BitVec.ofInt 32 (a.toInt.tmod b.toInt))) ∧ (wFunc x.toNat = 15 → b = 0#32 → gives a) ∧
      (wFunc x.toNat = 15 → a = 0x80000000#32 → b = 0xFFFFFFFF#32 → gives 0#32) ∧
      (wFunc x.toNat = 16 → b ≠ 0#32 → gives (BitVec.ofNat 32 (a.toNat % b.toNat))) ∧ (wFunc x.toNat = 16 → b = 0#32 → gives a) ∧
      (wFunc x.toNat = 17 → gives (if a.toInt ≤ b.toInt then a else b)) ∧ (wFunc x.toNat = 18 → gives (if a.toInt ≤ b.toInt then b else a)) ∧
      (wFunc x.toNat = 19 → gives (if a.toNat ≤ b.toNat then a else b)) ∧ (wFunc x.toNat = 20 → gives (if a.toNat ≤ b.toNat then b else a)) ∧
      (21 ≤ wFunc x.toNat → exec (.alu core x) s = .next (s.settle (s1.trap c 3 0 0 (ekiWord 0x00 x.toNat)))) ∧
      ((s1.goOn c (·.setG 0 5#32)).gr c 0 = 0#32)) ∧
  (∀ (core : Fin 5) (x : BitVec 26) (s s1 : State), s.ready core = some s1 →
      let c := core.val
      let a := s1.gr c (wA x.toNat)
      let z := BitVec.ofNat 32 (wImm18 x.toNat)
      let n := bits x.toNat 0 5
      let next := fun v : Word => (Host.Outcome.next (s1.goOn c (·.setG (wD x.toNat) v)) : Out)
      exec (.addi core x) s = next (a + sImm18 x.toNat) ∧ exec (.andi core x) s = next (a &&& z) ∧
      exec (.ori core x) s = next (a ||| z) ∧ exec (.xori core x) s = next (a ^^^ z) ∧
      exec (.slti core x) s = next (if a.toInt < (sImm18 x.toNat).toInt then 1#32 else 0#32) ∧
      (bits x.toNat 7 11 = 0 → bits x.toNat 5 2 = 0 → exec (.shi core x) s = next (a <<< n)) ∧
      (bits x.toNat 7 11 = 0 → bits x.toNat 5 2 = 1 → exec (.shi core x) s = next (a >>> n)) ∧
      (bits x.toNat 7 11 = 0 → bits x.toNat 5 2 = 2 → exec (.shi core x) s = next (a.sshiftRight n)) ∧
      (bits x.toNat 7 11 ≠ 0 ∨ bits x.toNat 5 2 = 3 →
        exec (.shi core x) s = .next (s.settle (s1.trap c 3 0 0 (ekiWord 0x07 x.toNat)))) ∧
      exec (.lui core x) s = next (BitVec.ofNat 32 (wImm22 x.toNat * 1024)) ∧
      exec (.addpc core x) s = next ((s1.core c).pc + sext 22 (wImm22 x.toNat)))

/-- The loads (R117, R122): where the checks pass and the bytes come back, rd takes them, extended as the load says; where a
check fails, the core traps with its code, the segment and the offset. LDD fills two registers and needs an even rd. What a
load finds (R131, R135): a byte range inside the one store-buffer entry that it meets is forwarded from it; a range that meets
none is read from a line that the data cache holds. Neither reads nor changes memory. -/
def Obligations.LoadsFillTheirRegisters : Prop :=
  (∀ (core : Fin 5) (x : BitVec 26) (s s1 : State), s.ready core = some s1 →
      let c := core.val
      let off := s1.gr c (wA x.toNat) + sImm15 x.toNat
      let sg := (s1.core c).dataSet.getD (wSegM x.toNat) {}
      let chk := fun n => checkSeg sg (s1.core c).tmode (s1.coreTenant c) 8 off.toNat n true
      let rd := wD x.toNat
      (∀ v t, chk 4 = none → s1.load c sg (sg.base + off.toNat) 4 = .data v t →
        exec (.ldw core x) s = .next (t.goOn c (·.setG rd (BitVec.ofNat 32 v)))) ∧
      (∀ v t, chk 2 = none → s1.load c sg (sg.base + off.toNat) 2 = .data v t →
        exec (.ldh core x) s = .next (t.goOn c (·.setG rd (sext 16 v))) ∧
        exec (.ldhu core x) s = .next (t.goOn c (·.setG rd (BitVec.ofNat 32 v)))) ∧
      (∀ v t, chk 1 = none → s1.load c sg (sg.base + off.toNat) 1 = .data v t →
        exec (.ldb core x) s = .next (t.goOn c (·.setG rd (sext 8 v))) ∧
        exec (.ldbu core x) s = .next (t.goOn c (·.setG rd (BitVec.ofNat 32 v)))) ∧
      (∀ v t, rd % 2 = 0 → chk 8 = none → s1.load c sg (sg.base + off.toNat) 8 = .data v t → exec (.ldd core x) s =
        .next (t.goOn c (fun k => (k.setG rd (BitVec.ofNat 32 v)).setG (rd + 1) (BitVec.ofNat 32 (v / 2 ^ 32))))) ∧
      (rd % 2 = 1 → exec (.ldd core x) s = .next (s.settle (s1.trap c 3 0 0 (ekiWord 0x14 x.toNat)))) ∧
      (∀ code, chk 4 = some code →
        exec (.ldw core x) s = .next (s.settle (s1.trap c code (wSegM x.toNat) off.toNat (ekiWord 0x0C x.toNat))))) ∧
  (∀ (s : State) (c : Nat) (sg : Seg) (a n : Nat), sg.typ = 1 → (∀ k, regionOf a ≠ .cleat k) →
      (∀ i e, sbOverlap (s.core c).sb a n = [(i, e)] → e.addr ≤ a → a + n ≤ e.addr + e.size →
        s.load c sg a n = .data (bits e.data (8 * (a - e.addr)) (8 * n)) (s.count (fk (coreBase c + 0x10) 0) 16 1)) ∧
      (∀ l, sbOverlap (s.core c).sb a n = [] → s.busErrAt sg a false = false → s.cacheable sg a = true →
        (s.core c).line (lineOf a) = some l → ∃ t, s.load c sg a n = .data (leAt l.data (a - l.addr) n) t ∧ t.mem = s.mem ∧
          t.regs = s.regs ∧ (t.core c).sb = (s.core c).sb ∧ (t.core c).g = (s.core c).g ∧ (∀ d, d ≠ c → t.core d = s.core d)))

/-- The stores (R130, R122): a store, one to a register included, enters the store buffer behind the entries there, with its
address, size and data, and leaves every byte of memory and every general register as it was; one to the cleat region waits for an
empty buffer first (R132). The drain (R130): the oldest entry goes; in the probe cache behind the poison summary its bytes are
stored at its address, and every other byte of memory stays; at a register it writes that register's bytes. -/
def Obligations.StoresEnterTheBufferAndDrain : Prop :=
  (∀ (core : Fin 5) (x : BitVec 26) (s s1 : State), s.ready core = some s1 →
      let c := core.val
      let off := s1.gr c (wA x.toNat) + sImm15 x.toNat
      let sg := (s1.core c).dataSet.getD (wSegM x.toNat) {}
      let chk := fun n => checkSeg sg (s1.core c).tmode (s1.coreTenant c) 4 off.toNat n true
      let v := (s1.gr c (wD x.toNat)).toNat
      let w := (s1.gr c (wD x.toNat + 1)).toNat
      let put := fun (n d : Nat) => (Host.Outcome.next (s1.goOn c (fun k => { k with sb := k.sb ++
        [{ addr := sg.base + off.toNat, size := n, data := d, segNo := wSegM x.toNat, off := off.toNat, typ := sg.typ,
           cache := sg.cache, tmode := k.tmode, ctx := s1.ctxOf c }] })) : Out)
      (∀ k, regionOf (sg.base + off.toNat) ≠ .cleat k) ∨ (s1.core c).sb = [] → (s1.core c).sb.length < 4 →
      (chk 4 = none → exec (.stw core x) s = put 4 v) ∧
      (chk 2 = none → exec (.sth core x) s = put 2 (v % 2 ^ 16)) ∧
      (chk 1 = none → exec (.stb core x) s = put 1 (v % 2 ^ 8)) ∧
      (wD x.toNat % 2 = 0 → chk 8 = none → exec (.std core x) s = put 8 (v + w * 2 ^ 32)) ∧
      (wD x.toNat % 2 = 1 → exec (.std core x) s = .next (s.settle (s1.trap c 3 0 0 (ekiWord 0x15 x.toNat))))) ∧
  (∀ (core : Fin 5) (s : State) (e : SbEnt) (rest : List SbEnt), s.isUp (6 + core) = true →
      (s.core core).sb = e :: rest → s.busErrAt { typ := e.typ } e.addr true = false →
      (core.val = 0 → regionOf e.addr = .pcache → 0x12004000 ≤ e.addr →
        ∃ t, exec (.storeDrain core) s = .next t ∧ (t.core core).sb = rest ∧ t.regs = s.regs ∧ (t.core core).g = (s.core core).g ∧
          (∀ i, i < e.size → t.rd (e.addr + i) = BitVec.ofNat 8 (e.data / 2 ^ (8 * i))) ∧
          (∀ a, a < e.addr ∨ e.addr + e.size ≤ a → t.rd a = s.rd a)) ∧
      (regionOf e.addr = .regs → e.size ≤ 4 → let w := e.addr / 4 * 4
        let sh := 8 * (e.addr % 4)
        let u := s.busWriteMask core w (e.data * 2 ^ sh) ((2 ^ (8 * e.size) - 1) * 2 ^ sh)
        exec (.storeDrain core) s = .next (u.setCore core { u.core core with sb := rest }))) ∧
  (∀ (core : Fin 5) (s : State), s.isUp (6 + core) = true → (s.core core).sb = [] → exec (.storeDrain core) s = .next s)

/-- The atomics on a spar word (R134, R122): rd takes the old word; AADD stores the sum, ASWP the operand, ACAS the operand
where the old word equals rd. The state between is that of the snoop; every byte outside the word stays as the snoop left it.
-/
def Obligations.AtomicsReturnTheOldWord : Prop :=
  ∀ (core : Fin 5) (x : BitVec 26) (s s1 s2 : State) (bank : Nat), s.ready core = some s1 →
    let c := core.val
    let off := s1.gr c (wA x.toNat) + sImm11 x.toNat
    let sg := (s1.core c).dataSet.getD (wSegA x.toNat) {}
    let a := sg.base + off.toNat
    let s3 := s2.snoopAll true noCore (lineOf a)
    let old := BitVec.ofNat 32 (s3.rdLe a 4)
    let rd := wD x.toNat
    let v := s1.gr c (wB x.toNat)
    checkSeg sg (s1.core c).tmode (s1.coreTenant c) 13 off.toNat 4 true = none → s1.drained c = some s2 →
    s2.busErrAt sg a true = false → regionOf a = .spar bank →
    exec (.aadd core x) s = .next ((s3.wrLe a 4 (old + v).toNat).goOn c (·.setG rd old)) ∧
    exec (.aswp core x) s = .next ((s3.wrLe a 4 v.toNat).goOn c (·.setG rd old)) ∧
    (old = s1.gr c rd → exec (.acas core x) s = .next ((s3.wrLe a 4 v.toNat).goOn c (·.setG rd old))) ∧
    (old ≠ s1.gr c rd → exec (.acas core x) s = .next (s3.goOn c (·.setG rd old))) ∧
    (∀ n, ∀ b, b < a ∨ a + 4 ≤ b → (s3.wrLe a 4 n).rd b = s3.rd b)

/-- Branches and jumps (R120, R122): a branch whose condition holds goes to PC + 4 × imm18 and otherwise on; JMP and CALL to
PC + 4 × imm26, JALR to an aligned sum; CALL and JALR link PC + 4. Nothing but the PC and the link register changes. -/
def Obligations.BranchesAndJumps : Prop :=
  ∀ (core : Fin 5) (x : BitVec 26) (s s1 : State), s.ready core = some s1 →
    let c := core.val
    let pc := (s1.core c).pc
    let a := s1.gr c (wD x.toNat)
    let b := s1.gr c (wA x.toNat)
    let br := fun p : Prop => fun o : Out =>
      (p → o = .next (s1.setCore c { s1.core c with pc := pc + sImm18 x.toNat * 4#32 })) ∧ (¬p → o = .next (s1.goOn c id))
    br (a = b) (exec (.beq core x) s) ∧ br (a ≠ b) (exec (.bne core x) s) ∧
    br (a.toInt < b.toInt) (exec (.blt core x) s) ∧ br (b.toInt ≤ a.toInt) (exec (.bge core x) s) ∧
    br (a.toNat < b.toNat) (exec (.bltu core x) s) ∧ br (b.toNat ≤ a.toNat) (exec (.bgeu core x) s) ∧
    exec (.jmp core x) s = .next (s1.setCore c { s1.core c with pc := pc + sImm26 x.toNat * 4#32 }) ∧
    exec (.call core x) s =
      .next (s1.setCore c { (s1.core c).setG 15 (pc + 4#32) with pc := pc + sImm26 x.toNat * 4#32 }) ∧
    exec (.jalr core x) s = .next (s1.setCore c { (s1.core c).setG (wD x.toNat) (pc + 4#32) with
      pc := (b + sImm18 x.toNat) &&& 0xFFFFFFFC#32 })

/-- SYSCALL, BREAK and reserved codes trap (R121–R123): outside a handler EPC is the PC of the instruction, CAUSE its code,
TVAL the immediate, TINST its word, PMODE the mode, the mode M with IN_TRAP 1 and USE_T 0, and the PC the vector base. R128: a
synchronous trap inside a handler of a tenant core halts its context, FATAL, and the core keeps its registers; on the CC it
only reports. TRET (R126) returns from a handler: PC from EPC, mode from PMODE, IN_TRAP 0. -/
def Obligations.TrapEntryNestingAndReturn : Prop :=
  (∀ (core : Fin 5) (x : BitVec 26) (s s1 : State), s.ready core = some s1 → (s1.core core).inTrap = false →
      let c := core.val
      let enters := fun (o : Out) (op code tval : Nat) => ∃ t, o = .next (s.settle t) ∧ (t.core c).epc = (s1.core c).pc ∧
        (t.core c).cause = BitVec.ofNat 32 code ∧ (t.core c).tval = BitVec.ofNat 32 tval ∧
        (t.core c).tinst = BitVec.ofNat 32 (op * 2 ^ 26 + x.toNat) ∧ (t.core c).pmode = (s1.core c).tmode ∧
        (t.core c).tmode = false ∧ (t.core c).inTrap = true ∧ (t.core c).useT = false ∧ (t.core c).pc = (s1.core c).vbase ∧
        (t.core c).g = (s1.core c).g ∧ (t.core c).sb = (s1.core c).sb ∧ (∀ d, d ≠ c → t.core d = s1.core d) ∧ t.mem = s1.mem
      (wD x.toNat = 0 → wA x.toNat = 0 → enters (exec (.syscall core x) s) 0x24 7 (wImm18 x.toNat)) ∧
      (wD x.toNat = 0 → wA x.toNat = 0 → enters (exec (.brk core x) s) 0x25 8 (wImm18 x.toNat)) ∧
      (wD x.toNat ≠ 0 ∨ wA x.toNat ≠ 0 → enters (exec (.syscall core x) s) 0x24 3 0 ∧ enters (exec (.brk core x) s) 0x25 3 0) ∧
      (∀ op : BitVec 6, op.toNat ∈ [0x06, 0x09, 0x0B, 0x19] ∨ 0x30 ≤ op.toNat →
        enters (exec (.reservedMajorOpcode core op x) s) op.toNat 3 0)) ∧
  (∀ (core : Fin 5) (x : BitVec 26) (s s1 : State), s.ready core = some s1 → let c := core.val
      ((s1.core c).inTrap = true → wD x.toNat = 0 → wA x.toNat = 0 → c ≠ 0 → ∃ t, exec (.syscall core x) s = .next (s.settle t) ∧
        (t.core c).run = .halted ∧ (t.core c).pc = (s1.core c).pc ∧ (t.core c).epc = (s1.core c).epc ∧
        (t.slot (s1.ctxOf c)).state = 6) ∧
      ((s1.core c).tmode = false → x = 0 → ∃ t, exec (.tret core x) s = .next t ∧
        t = s1.setCore c { s1.core c with pc := (s1.core c).epc &&& 0xFFFFFFFC#32, tmode := (s1.core c).pmode, inTrap := false }))

/-- R112. In T mode the privileged instructions trap RSVD_OP: MTC except to control register 9, MFC of any other than 6, 7, 8,
9 and 12, LDSEG, TRET, and CACHE with operation 2. -/
def Obligations.PrivilegedInstructionsTrap : Prop :=
  ∀ (core : Fin 5) (x : BitVec 26) (s s1 : State), s.ready core = some s1 → (s1.core core).tmode = true →
    let c := core.val
    let traps := fun (o : Out) (op : Nat) => o = .next (s.settle (s1.trap c 3 0 0 (ekiWord op x.toNat)))
    (wImm18 x.toNat ∉ [6, 7, 8, 9, 12] → traps (exec (.mfc core x) s) 0x29) ∧
    (wImm18 x.toNat ≠ 9 → traps (exec (.mtc core x) s) 0x2A) ∧ traps (exec (.ldseg core x) s) 0x2B ∧
    traps (exec (.tret core x) s) 0x2C ∧ (wD x.toNat = 2 → traps (exec (.cache core x) s) 0x2E)

/-- Waits and events (R136, R137): WFE takes a pending event with its sources, else waits at its PC; WFT ends at once for a
count of 0, else waits; its timeout gives 0; SEV signals a slot of the same tenant and tells whether it could. -/
def Obligations.WaitsAndEvents : Prop :=
  ∀ (core : Fin 5) (x : BitVec 26) (s : State), let c := core.val
    (∀ s1, s.ready core = some s1 → wImm18 x.toNat = 0 →
      (wA x.toNat = 0 → (s1.core c).evpend = true → exec (.wfe core x) s = .next (s1.goOn c (fun k =>
        { k.setG (wD x.toNat) (BitVec.ofNat 32 k.evsrc) with evpend := false, evsrc := 0 }))) ∧
      (wA x.toNat = 0 → (s1.core c).evpend = false → ∃ t, exec (.wfe core x) s = .next t ∧ (t.core c).run = .wfe ∧
        (t.core c).waitRd = wD x.toNat ∧ (t.core c).pc = (s1.core c).pc ∧ (t.core c).g = (s1.core c).g ∧ t.mem = s1.mem) ∧
      ((s1.gr c (wA x.toNat)).toNat % 65536 = 0 → exec (.wft core x) s = .next (s1.goOn c (·.setG (wD x.toNat) 0#32))) ∧
      ((s1.gr c (wA x.toNat)).toNat % 65536 ≠ 0 → exec (.wft core x) s =
        .next (s1.setCore c { s1.core c with run := .wft, waitRd := wD x.toNat })) ∧
      (let n := (s1.gr c (wA x.toNat)).toNat % 256
       (n < 64 → (s1.core c).tmode = false ∨ s1.slotTenant n = s1.coreTenant c →
         exec (.sev core x) s = .next ((s1.event n 0).goOn c (·.setG (wD x.toNat) 0#32))) ∧
       (64 ≤ n ∨ ((s1.core c).tmode = true ∧ s1.slotTenant n ≠ s1.coreTenant c) →
         exec (.sev core x) s = .next (s1.goOn c (·.setG (wD x.toNat) 1#32))))) ∧
    (s.isUp (6 + core) = true → (s.core c).run = .wft → exec (.wftTimeout core) s = .next (s.setCore c
      { (s.core c).setG (s.core c).waitRd 0#32 with run := .running, pc := (s.core c).pc + 4#32 }))

/-- Control registers (R112, R113): in M mode MFC reads, and MTC writes, each one it may; what MTC writes MFC reads back.
CYCLE reads a free value (log entry 33); it and the read-only registers do not change. LDSEG, SFUQ, CACHE, PRFM and FENCE
(R116, R122, R133, R138): what each does where its checks pass. PRFM traps for no address. -/
def Obligations.ControlSegmentCacheAndFence : Prop :=
  (∀ (core : Fin 5) (x : BitVec 26) (s s1 : State), s.ready core = some s1 → (s1.core core).tmode = false →
      let c := core.val
      let k := s1.core c
      let i := wImm18 x.toNat
      let v := s1.gr c (wA x.toNat)
      let reads := fun w : Word => exec (.mfc core x) s = .next (s1.goOn c (·.setG (wD x.toNat) w))
      let writes := fun k2 : Core → Core => exec (.mtc core x) s = .next (s1.goOn c k2)
      (wA x.toNat = 0 → (i = 0 → reads (BitVec.ofNat 32 k.status)) ∧ (i = 1 → reads k.epc) ∧ (i = 2 → reads k.cause) ∧
        (i = 3 → reads k.tval) ∧ (i = 4 → reads k.tinst) ∧ (i = 5 → reads k.vbase) ∧
        (i = 6 → ∃ w, exec (.mfc core x) s = .next ((s1.freeBits 32).2.goOn c (·.setG (wD x.toNat) w))) ∧
        (i = 7 → reads (BitVec.ofNat 32 s1.frameNum)) ∧ (i = 8 → reads (BitVec.ofNat 32 (s1.coreTenant c + 256 * c))) ∧
        (i = 9 → reads (BitVec.ofNat 32 k.evmask)) ∧ (i = 10 → reads k.scratch0) ∧ (i = 11 → reads k.scratch1) ∧
        (i = 12 → reads (BitVec.ofNat 32 c))) ∧
      (wD x.toNat = 0 → (i = 1 → writes (fun k => { k with epc := v })) ∧ (i = 2 → writes (fun k => { k with cause := v &&& 0x80000FFF#32 })) ∧
        (i = 3 → writes (fun k => { k with tval := v })) ∧ (i = 4 → writes (fun k => { k with tinst := v })) ∧
        (i = 5 → writes (fun k => { k with vbase := v &&& 0x00FFFFFC#32 })) ∧
        (i = 6 ∨ i = 7 ∨ i = 8 ∨ i = 12 → writes id) ∧ (i = 9 → writes (fun k => { k with evmask := v.toNat % 64 })) ∧
        (i = 10 → writes (fun k => { k with scratch0 := v })) ∧ (i = 11 → writes (fun k => { k with scratch1 := v })) ∧
        (i = 0 → ∃ k2, exec (.mtc core x) s = .next (s1.goOn c (fun _ => k2)) ∧ k2.tmode = false ∧ (c = 0 → k2.pmode = false) ∧
          (c ≠ 0 → k2.ie = false ∧ k2.pmode = v.getLsbD 1) ∧ k2.inTrap = v.getLsbD 2 ∧ k2.evpend = v.getLsbD 4 ∧ k2.useT = v.getLsbD 5 ∧
          k2.g = k.g)) ∧
      (wA x.toNat ≠ 0 ∨ 13 ≤ i → exec (.mfc core x) s = .next (s.settle (s1.trap c 3 0 0 (ekiWord 0x29 x.toNat))))) ∧
  (∀ (core : Fin 5) (x : BitVec 26) (s s1 : State), s.ready core = some s1 →
      let c := core.val
      let off := s1.gr c (wA x.toNat) + sImm15 x.toNat
      let sg := (s1.core c).dataSet.getD (wSegM x.toNat) {}
      let chk := fun (n : Nat) (al : Bool) => checkSeg sg (s1.core c).tmode (s1.coreTenant c) 8 off.toNat n al
      let a := sg.base + off.toNat
      (∀ v t, (s1.core c).tmode = false → wD x.toNat < 8 → chk 16 true = none → s1.loadDwords c sg a 2 = .data v t →
        exec (.ldseg core x) s = .next (t.goOn c (fun k => { k with mset := k.mset.set (wD x.toNat) (segOf (leBytes v 16)) }))) ∧
      (∀ v u t, chk 32 true = none → s1.loadDwords c sg a 4 = .data v u → u.drained c = some t →
        let r := t.sfuOffer c (leBytes v 32) (t.core c).dataSet (t.coreTenant c) (t.ctxOf c) (t.core c).tmode
        exec (.sfuq core x) s = .next (r.2.goOn c (·.setG (wD x.toNat) (BitVec.ofNat 32 r.1)))) ∧
      (wD x.toNat < 4 → (wD x.toNat = 2 → (s1.core c).tmode = false) → chk 1 false = none →
        exec (.cache core x) s = .next ((s1.cacheOp c (wD x.toNat) (lineOf a)).goOn c id)) ∧
      (wD x.toNat = 0 → chk 1 false = none → exec (.prfm core x) s = .next ((s1.prefetch c sg a).goOn c id)) ∧
      (wD x.toNat = 0 → chk 1 false ≠ none → exec (.prfm core x) s = .next (s1.goOn c id)) ∧
      (∀ t, s1.drained c = some t → x.toNat < 2 → exec (.fence core x) s = .next (t.goOn c id)) ∧
      (∀ t, s1.drained c = some t → x.toNat = 2 → exec (.fence core x) s = .next (t.goOn c (fun k => { k with ic := [] }))) ∧
      (3 ≤ x.toNat → exec (.fence core x) s = .next (s.settle (s1.trap c 3 0 0 (ekiWord 0x23 x.toNat)))))

/-- The instruction boundary (R117, R118, R127, R129): a fetch that hits the instruction cache touches that cache alone; an
interrupt of the CC that shows comes before an instruction that would go on; a fetch whose check fails traps with segment 0 and the
PC; a pending imprecise error is taken before either; a core that does not run executes nothing. Shown for ADDI. -/
def Obligations.InstructionBoundary : Prop :=
  ∀ (core : Fin 5) (x : BitVec 26) (s : State), let c := core.val
    (∀ l, s.runs c = true → (s.core c).sb = [] →
      checkSeg (s.core c).codeSeg (s.core c).tmode (s.coreTenant c) 2 (s.core c).pc.toNat 4 false = none →
      (s.core c).ic.find? (fun x => x.addr == lineOf ((s.core c).codeSeg.base + (s.core c).pc.toNat)) = some l →
      (s.boundary c = none → s.ready c = some (s.setCore c ((s.core c).icTake l))) ∧
      (∀ n u, c = 0 → s.takeInterrupt = some (n, u) → exec (.addi core x) s = .next u)) ∧
    (∀ code, s.runs c = true → (s.core c).sb = [] →
      checkSeg (s.core c).codeSeg (s.core c).tmode (s.coreTenant c) 2 (s.core c).pc.toNat 4 false = some code →
      exec (.addi core x) s = .next (s.settle (s.trap c code 0 (s.core c).pc.toNat (ekiWord 0x01 x.toNat)))) ∧
    (s.isUp (6 + c) = true → (s.core c).run = .running → (c = 0 ∨ (s.core c).slot ≠ none) → (s.core c).impDue = true →
      exec (.addi core x) s = .next (s.settle (s.takeImp c))) ∧
    (s.isUp (6 + c) = false ∨ (s.core c).run ≠ .running ∨ (c ≠ 0 ∧ (s.core c).slot = none) → exec (.addi core x) s = .next s)

/-! ### Register commands of one line -/

/-- CNT_CLR and its like: each zeroes the counters of its block and nothing else (R141, R155 and the register tables), where
the block answers. The register commands of PMU, IRQ, TEN, ERR, PROBE, the KEK and the reset control: each writes its field
and its register then acts (R62, R125, R160, R164, R207, R256–R258, R359, R367). -/
def Obligations.CounterClearsAndRegisterCommands : Prop :=
  (∀ s : State, s.aon = true → s.isUp 5 = true →
      (∀ core : Fin 5, s.isUp (6 + core) = true → exec (.cntClr core) s =
        .next (s.zero [fk (coreBase core + 0x08) 0, fk (coreBase core + 0x0C) 0, fk (coreBase core + 0x10) 0])) ∧
      (s.isUp 4 = true → ∃ t, exec .frameOvrClr s = .next t ∧ t.mem = s.mem ∧
        (∀ n, n < 64 → t.reg (fk (0x4000410C + 0x10 * n) 0) = 0 ∧ t.reg (fk (0x4000410C + 0x10 * n) 16) = 0)) ∧
      (s.isUp 47 = true → exec .dmaCntClr s = .next (s.zero [fk 0x4000E004 0, fk 0x4000E004 16])) ∧
      (s.isUp 49 = true → exec .cryptCntClr s = .next (s.zero [fk 0x40016040 0, fk 0x40016040 16])) ∧
      (∃ t, exec .memctlCntClr s = .next t ∧ t.mem = s.mem ∧
        (∀ n, n < 17 → t.reg (fk (0x40007040 + 4 * n) 0) = 0 ∧ t.reg (fk (0x40007040 + 4 * n) 16) = 0)) ∧
      exec .catCntClr s = .next (s.zero [kCatPoisons, kCatCorr, kCatUncorr, kCatRefused]) ∧
      (s.isUp 27 = true → exec .xramClr s = .next (s.zero [fk 0x40018000 0])) ∧
      (∃ t, exec .arbCntClr s = .next t ∧ t.mem = s.mem ∧
        (∀ i, i < 20 → t.reg (kArb i 0x14 0) = 0 ∧ t.reg (kArb i 0x14 16) = 0)) ∧
      (s.isUp 48 = true → exec .lockCntClr s = .next (s.zero [fk 0x40006014 0, fk 0x40006014 16, fk 0x4000601C 0])) ∧
      (s.isUp 0 = true → exec .spineCntClr s =
        .next (s.zero [fk 0x4000A070 0, fk 0x4000A070 16, fk 0x4000A074 0, fk 0x4000A074 16])) ∧
      (s.isUp 1 = true → exec .probeCntClr s =
        .next (s.zero [fk 0x4000B050 0, fk 0x4000B050 16, fk 0x4000B054 0, fk 0x4000B054 16])) ∧
      (s.isUp 55 = true → ∃ t, exec .bayuCntClr s = .next t ∧ t.mem = s.mem ∧
        (∀ n, n < 128 → ∀ l ∈ [0, 8, 16, 24], t.reg (kBayu n 0x1C l) = 0)) ∧
      (s.isUp 50 = true → ∃ t, exec .adcCntClr s = .next t ∧ t.mem = s.mem ∧
        (∀ c, c < 4 → t.reg (fk (0x40010028 + 0x10 * c) 0) = 0)) ∧
      (s.isUp 46 = true → exec .sfuCntClr s = .next (s.zero [fk 0x4000F004 0, fk 0x4000F004 16, fk 0x4000F008 0]))) ∧
  (∀ s : State, s.aon = true → s.isUp 5 = true →
      (∀ value : Word, value.toNat ≤ 4 → s.xsync 0 = false →
        exec (.pmuReefReq value) s = .next ((s.setReg kReefReq value.toNat).reefReq value.toNat)) ∧
      (∀ reason : Byte, s.xsync 0 = false → s.boot.warmDue = none → ∃ t, exec (.warm reason) s = .next t ∧
        t.boot.warmDue = some (2, reason.toNat)) ∧
      (∀ src : BitVec 17, s.isUp 6 = true → ∃ t, exec (.irqAck src) s = .next t ∧
        t.irqEdge = s.irqEdge - (s.irqEdge &&& src.toNat) ∧ t.regs = s.regs ∧ t.cores = s.cores) ∧
      (∀ tenant : Fin 64, s.ten.reset = none → ∃ s1 : State, exec (.tenResetGo tenant) s = .next (s1.settle (s1.resetStart tenant 0)) ∧
        s1.mem = s.mem ∧ s1.cores = s.cores ∧ s1.slots = s.slots) ∧
      (∀ tenant : Fin 64, s.ten.reset ≠ none → ∃ t, exec (.tenResetGo tenant) s = .next t ∧ t.flag (fk 0x40015304 16) = true ∧
        t.ten = s.ten ∧ t.cores = s.cores ∧ t.slots = s.slots) ∧
      (∀ tenant : Fin 64, ∃ s1 : State, exec (.tenEventPost tenant) s = .next (s1.postEvent tenant) ∧ s1.cores = s.cores ∧
        s1.slots = s.slots ∧ s1.mem = s.mem) ∧
      (s.err.active = true → exec .errDone s = .next s.errDone) ∧
      (∀ n : BitVec 6, ∃ t, exec (.errPopWrite n) s = .next t ∧ t.err = s.err.pop n.toNat ∧ t.cores = s.cores ∧ t.mem = s.mem) ∧
      (∀ (w : Fin 8) (v : Word), s.isUp 49 = true → exec (.kek w v) s = .next (s.kekWrite w v.toNat)) ∧
      (s.isUp 1 = true → ∃ t, exec .setWake s = .next t ∧ t.flag kWakeSeq = true ∧ (∀ k, k ≠ kWakeSeq → t.reg k = s.reg k) ∧
        t.mem = s.mem) ∧
      (s.isUp 1 = true → ∃ t, exec .setSleep s = .next t ∧ t.flag kSleepSeq = true ∧ (∀ k, k ≠ kSleepSeq → t.reg k = s.reg k) ∧
        t.mem = s.mem) ∧
      (∀ q : Fin 8, s.isUp 1 = true → ∃ t, exec (.probeRptPost q) s = .next t ∧ t.mem = s.mem ∧
        (s.spine.reports.any (fun r => r.buf == q.val) = false → t.spine.reports = s.spine.reports ++ [{ buf := q }]) ∧
        (s.spine.reports.any (fun r => r.buf == q.val) = true → t.spine.reports = s.spine.reports)) ∧
      (s.isUp 1 = true → ∃ t, exec .probeChunkRel s = .next t ∧ t.spine.chunkDone = none ∧ t.spine.chunkN = 0 ∧ t.mem = s.mem) ∧
      (s.isUp 44 = true → exec .recLock s = .next { s with boot := { s.boot with recLocked := true } }))

/-! ### Caches, the hub and the catalog -/

/-- The snoop hub (R174–R177, Table 9-2): after OWN no other core has the line and the requester has it Modified; after a read
miss the requester has it clean and no other copy is Modified; a non-caching write lands and leaves no copy; an eviction
notice writes the oldest entry of the line. -/
def Obligations.HubRequestsKeepOneOwner : Prop :=
  ∀ (core : Fin 5) (addr : Word) (s : State), let la := lineOf addr.toNat
    (s.hubOk core addr.toNat = true → ∃ t l, exec (.own core addr) s = .next t ∧ (t.core core).line la = some l ∧ l.dirty = true ∧
      (∀ d, d < 5 → d ≠ core.val → (t.core d).line la = none)) ∧
    (s.hubOk core addr.toNat = true → ∃ t l, exec (.readMiss core addr) s = .next t ∧ (t.core core).line la = some l ∧
      l.dirty = false ∧ (∀ d, d < 5 → d ≠ core.val → ((t.core d).line la).elim false (·.dirty) = false)) ∧
    (∀ data : List Byte, s.hubOk core addr.toNat = true → addr.toNat % 32 + data.length ≤ 32 → ∃ t,
      exec (.writeThroughStore core addr data) s = .next t ∧
      (∀ i, i < data.length → t.rd (addr.toNat + i) = data.getD i 0#8) ∧
      (∀ d, d < 5 → d ≠ core.val → (t.core d).line la = none)) ∧
    (s.sparOk addr.toNat = true → ∃ t, exec (.nonCachingRead addr) s = .next t ∧
      (∀ d, d < 5 → ((t.core d).line la).elim false (·.dirty) = false)) ∧
    (∀ data : List Byte, s.sparOk addr.toNat = true → addr.toNat % 32 + data.length ≤ 32 → ∃ t,
      exec (.nonCachingWrite addr data) s = .next t ∧
      (∀ i, i < data.length → t.rd (addr.toNat + i) = data.getD i 0#8) ∧ (∀ d, d < 5 → (t.core d).line la = none) ∧
      ((∀ d, d < 5 → (s.core d).line la = none ∧ (s.core d).eb = []) →
        ∀ b, b < addr.toNat ∨ addr.toNat + data.length ≤ b → t.rd b = s.rd b)) ∧
    (∀ l, s.hubOk core addr.toNat = true → (s.core core).eb = [l] → l.addr = la → ∃ t, exec (.evictionNotice core addr) s = .next t ∧
      (t.core core).eb = [] ∧ (∀ i, i < l.data.length → t.rd (la + i) = l.data.getD i 0#8) ∧
      (∀ b, b < la ∨ la + l.data.length ≤ b → t.rd b = s.rd b) ∧ t.regs = s.regs)

/-- R188, R189, Table 9-5: a catalog write by the CC: the first refusal that applies decides it and is counted; otherwise it
waits for room or enters the write buffer at its end, and no byte of the array changes. R190–R193: where the bank's arbiter grants
it, a full word whose verify passes is stored and its entry retires, with nothing else changed in memory; one that fails its fourth
attempt makes a map update due; the update changes the map and the summary, or lists its map word where that fails (R195), and
reports. -/
def Obligations.CatalogWritesAndAttempts : Prop :=
  ((∀ (addr : Word) (data : List Byte) (s : State) (k : Nat), s.isUp 5 = true → regionOf addr.toNat = .cat k →
      let off := addr.toNat - 0x20000000
      1 ≤ data.length → off % 8 + data.length ≤ 8 →
      (∀ r, s.wbRefusal .cc off = some (r, none) → exec (.catalogWrite addr data) s = .next (s.count kCatRefused 16 1)) ∧
      (s.wbRefusal .cc off = none → s.cat.wb.length = 32 → exec (.catalogWrite addr data) s = .next s) ∧
      (s.wbRefusal .cc off = none → s.cat.wb.length < 32 → ∃ t e, exec (.catalogWrite addr data) s = .next t ∧ t.mem = s.mem ∧
        t.regs = s.regs ∧ (∃ l, t.cat.wb = l ++ [e]) ∧ e.off ≤ off ∧ off < e.off + 16 ∧ e.origin = 1 ∧ e.attempts = 0)) ∧
    (∀ (s : State) (w : Writer) (off : Nat),
      (s.isUp (catDom off) = false → s.wbRefusal w off = some (.busErr, none)) ∧
      (s.isUp (catDom off) = true → catTop ≤ off → off < snapOff → w ≠ .scrub → s.wbRefusal w off = some (.busErr, none)) ∧
      (s.isUp (catDom off) = true → off < catTop → s.allow < 4 ∨ s.storeLow = true → s.wbRefusal w off = some (.refused, some 0x500)) ∧
      (s.isUp (catDom off) = true → snapOff ≤ off → w ≠ .scrub → w ≠ .cc → s.wbRefusal w off = some (.busErr, none)) ∧
      (∀ t, s.isUp (catDom off) = true → off < catTop → 4 ≤ s.allow → s.storeLow = false → s.recOwner off = some t →
        s.keyLoaded t = false → s.wbRefusal w off = some (.refused, some 6)))) ∧
  (∀ (s : State) (e : WbEnt) (rest : List WbEnt), s.cat.wb = e :: rest → s.isUp (catDom e.off) = true →
      (e.record = false → e.started = false → e.mask = 255 → e.left = 1 → e.data.length = 8 → s.harv.cutDecided = false → s.boot.inReset = false →
        s.cat.mapDue = [] → s.poisoned e.off = false → s.ten.reset = none → s.pmu.offHold = [] → ∀ m u,
        s.useArb (catInst e.off) (plainReq 2 1) = some u → ∃ t,
        exec (.writeAttempt false false m) s = .next t ∧ t.cat.wb = rest ∧ t.cat.mapDue = [] ∧ t.regs = u.regs ∧
        (∀ i, i < 8 → t.rd (catAddr e.off + i) = e.data.getD i 0#8) ∧
        (∀ a, a < catAddr e.off ∨ catAddr e.off + 8 ≤ a → t.rd a = s.rd a)) ∧
      (e.record = false → e.started = true → e.left = 1 → e.attempts = 3 → e.off < catTop → s.cat.mapDue = [] → ∀ m u,
        s.useArb (catInst e.off) (plainReq 2 1) = some u → ∃ t,
        exec (.writeAttempt true false m) s = .next t ∧ (∃ d, t.cat.mapDue = [d] ∧ d.offs = [e.off] ∧ d.poison = true ∧ d.retires = true) ∧
        (∀ a, a < 0x12000000 ∨ 0x12010000 ≤ a → a < catAddr e.off ∨ catAddr e.off + 8 ≤ a → t.rd a = s.rd a)) ∧
      (∀ d, s.cat.mapDue.any (·.retires) = true → exec (.writeAttempt d d 0#2) s = .next s)) ∧
  (∀ (s : State) (d : MapDue) (rest : List MapDue) (r : ErrRec) (u : State), s.cat.mapDue = d :: rest → d.report = some r →
      let w := mapIdx (d.offs.headD 0)
      (({ s with cat := { s.cat with mapDue := rest } } : State).power15).useArb 15 (plainReq 1 2) = some u →
      let done := fun v : State =>
        let v1 := ((v.count kCatPoisons 24 d.offs.length).setReg (fk 0x40008020 0) (d.offs.getLastD 0)).raise r
        if d.retires then v1.retire d.poison else v1
      ((u.eccKind (catTop + 8 * w)).1 = 0 → exec (.mapUpdate false) s = .next (done (u.mapApply d.offs d.poison)) ∧
        exec (.mapUpdate true) s = .next (done (u.mapWordFails w 4))) ∧
      ((u.eccKind (catTop + 8 * w)).1 = 2 → exec (.mapUpdate false) s = .next (done (u.mapWordFails w 0)))) ∧
  (∀ s : State, s.cat.mapDue = [] → ∀ f, exec (.mapUpdate f) s = .next s)

/-- R181, R187, R196–R198: a read that its bank's arbiter grants: a clean one changes nothing more, one bit in error is corrected and
counted, two poison the word; the summary's rebuild; the scrubber's word and its position. -/
def Obligations.CatalogReadsScrubAndSummary : Prop :=
  ∀ s : State,
    (∀ (addr : Word) (k : Nat), regionOf addr.toNat = .cat k → s.isUp 5 = true →
      let off := (addr.toNat - 0x20000000) / 8 * 8
      s.isUp (catDom off) = true → s.cat.wb = [] → s.cat.mapDue = [] → off < catTop → s.recOwner off = none →
      s.flag kSummaryValid = true → s.summaryBit (mapIdx off) = false →
      let found := fun n => if s.eccOf off < n then s.setEcc off n else s
      (∀ u, s.eccOf off = 0 → s.useArb (catInst off) (s.coreReq 0) = some u → exec (.catalogRead addr 0#2) s = .next u) ∧
      (∀ u, s.eccOf off ≤ 1 → (found 1).useArb (catInst off) (s.coreReq 0) = some u →
        exec (.catalogRead addr 1#2) s = .next (u.corrected off 3)) ∧
      (∀ u, s.eccOf off ≤ 2 → (found 2).useArb (catInst off) (s.coreReq 0) = some u →
        ∃ t, exec (.catalogRead addr 2#2) s = .next t ∧ (∃ d, t.cat.mapDue = [d] ∧ d.offs = [off] ∧ d.poison = true) ∧
        t.reg kCatUncorr = min (s.reg kCatUncorr + 1) 65535)) ∧
    (s.cat.rebuildDue = true → s.isUp 43 = true → s.isUp 5 = true → s.isUp 2 = true → ∃ t, exec .summaryRebuildStart s = .next t ∧
      t.flag kRebuilding = true ∧ t.cat.rebuildDue = false ∧ t.cat.hold15 = true ∧ t.mem = s.mem) ∧
    (∀ bad, s.flag kRebuilding = true → ∃ t, exec (.summaryRebuildDone bad) s = .next t ∧ t.flag kSummaryValid = true ∧
      t.flag kRebuilding = false) ∧
    (s.isUp 45 = true → s.isUp 5 = true → s.flag (fk 0x40017000 0) = true → s.cat.scrubbed < s.reg (fk 0x40017008 0) →
      s.reg kPhase ≠ 1 → let off := s.scrubPos
      (∀ err, s.scrubSkips off = true → exec (.scrubRead err) s = .next ((s.count (fk 0x40017018 0) 24 1).scrubAdvance off)) ∧
      (∀ u, s.scrubSkips off = false → s.useArb (catInst off) (plainReq 10 1) = some u → s.eccOf off = 0 →
        exec (.scrubRead 0#2) s = .next (u.scrubAdvance off)) ∧
      (∀ (err : BitVec 2) u v, s.scrubSkips off = false → s.useArb (catInst off) (plainReq 10 1) = some u →
        (if u.eccOf off < err.toNat then u.setEcc off err.toNat else u).scrubFound off = some v →
        exec (.scrubRead err) s = .next (v.scrubAdvance off))) ∧
    (∀ p, p + 8 < s.reg (fk 0x40017004 16) * 65536 → p % 8 = 0 → (s.scrubAdvance p).reg (fk 0x40017010 3) = p / 8 + 1 ∧
      (s.scrubAdvance p).cat.scrubbed = s.cat.scrubbed + 1 ∧ (s.scrubAdvance p).mem = s.mem)

/-! ### DMA and CRYPT -/

/-- R202–R204: GO on a free place starts a transfer that stands at instance 19 as its core's requester; on a busy one, or where its
requester, the instance or its tenant's reset refuses it, it is refused with a hint; a transfer starts once granted, with the first
failing check as its status; a fill beat writes 8 bytes and takes a beat of the burst, and without a grant nothing moves; the end
reports, frees the place and signals. -/
def Obligations.DmaTransfersFollowTheirPlace : Prop :=
  ∀ (place : Fin 5) (s : State), let pg := placePage place
    (∀ core : Fin 5, s.aon = true → s.isUp 47 = true → s.isUp 5 = true → exec (.go core place) s = .next (s.dmaGo core place)) ∧
    (∀ core : Fin 5, (s.place place).busy = false → s.placeFree 19 (dmaReq core) = true → s.arbFrozen 19 = false →
      s.fenced (s.ctxOf core) = false →
      let t := s.dmaGo core place
      (t.place place).busy = true ∧ (t.place place).started = false ∧ (t.place place).moved = 0 ∧ (t.place place).req = dmaReq core ∧
      (t.place place).ctx = s.ctxOf core ∧ t.mem = s.mem ∧
      t.reg (fk (pg + 0x24) 0) = 2 ^ 31 + placeTag (dmaReq core) (s.place place).count ∧ t.stands 19 (dmaReq core) = true) ∧
    (∀ core : Fin 5, (s.place place).busy = true ∨ s.placeFree 19 (dmaReq core) = false ∨ s.arbFrozen 19 = true ∨
      s.fenced (s.ctxOf core) = true → let t := s.dmaGo core place
      t.dma = s.dma ∧ t.mem = s.mem ∧ t.arbs = s.arbs ∧ t.reg (fk (pg + 0x24) 0) < 2 ^ 20) ∧
    (s.isUp 47 = true → (s.place place).busy = true → (s.place place).started = false → s.granted 19 (s.place place).req = true →
      exec (.dmaTransferStart place) s =
        .next (s.setPlace place { s.place place with started := true, status := s.dmaCheck (s.place place), hash := shaH0 })) ∧
    (s.isUp 47 = true → (s.place place).busy = true → (s.place place).started = true → (s.place place).status = none →
      let x := s.place place
      let d := dmaDesc x.desc
      let a := d.dstAddr x + x.moved
      (s.granted 19 x.req = false → exec (.dmaBeat place) s = .next s) ∧
      (∀ n, (s.arb 19).burst = some (x.req, n + 1) → d.op = 1 → x.half = false → regionOf a = .xram → s.isUp 27 = true →
        0x11008000 ≤ a → x.moved + 8 < d.len → ∃ t, exec (.dmaBeat place) s = .next t ∧
        (t.place place).moved = x.moved + 8 ∧ t.rdBytes a 8 = leBytes d.arg 4 ++ leBytes d.arg 4 ∧
        (∀ b, b < a ∨ a + 8 ≤ b → t.rd b = s.rd b) ∧ t.regs = s.regs ∧
        (t.arb 19).burst = (if n = 0 then none else some (x.req, n)))) ∧
    (∀ st, s.isUp 47 = true → (s.place place).busy = true → (s.place place).status = some st → ∃ t, exec (.dmaEnd place) s = .next t ∧
      t = (s.dmaEnd place st).dmaTell place (s.place place).ctx ∧ (place.val = 0 → (t.place place).busy = false ∧
        t.reg (fk (pg + 0x28) 0) = st ∧ t.reg (fk (pg + 0x28) 16) = (s.place place).tag ∧
        t.reg (fk (pg + 0x2C) 0) = (s.place place).moved ∧ t.mem = s.mem ∧ bit t.irqEdge 5 = true))

/-- R207–R209: CRYPT operations. A command while the place is taken, or the instance frozen, is refused; else the operation is in
hand with its tag, and UNWRAP stands for its blocks at instance 18. The end, once nothing of it stands, stores its outcome, counts
it, and raises interrupt 6. What each operation answers is stated where the manual gives it;
signatures and random bytes are free values (log entry 33). -/
def Obligations.CryptOperationsAnswer : Prop :=
  ∀ s : State, s.aon = true → s.isUp 49 = true → s.isUp 5 = true →
    (s.placeFree 18 1 = true → s.arbFrozen 18 = false →
      (∀ c n slot len, (c, n, slot, len) ∈ ([(.verifyImage, 4, 0, 0), (.verifyUnlock, 5, 0, 0), (.signAttest, 6, 0, 0), (.random, 7, 0, 0),
          (.attestPub, 8, 0, 0)] : List (Instr × Nat × Nat × Nat)) → exec c s = .next (s.cryptCmd n slot len)) ∧
      (∀ slot : Fin 64, exec (.unwrap slot) s = .next (s.cryptCmd 1 slot 0) ∧ exec (.clearKey slot) s = .next (s.cryptCmd 2 slot 0)) ∧
      (∀ len : Fin 1024, exec (.sha256 len) s = .next (s.cryptCmd 3 0 len)) ∧
      (∀ op slot len, ((s.cryptCmd op slot len).crypt.op.map (·.tag)) = some (placeTag 0 s.crypt.count) ∧
        (s.cryptCmd op slot len).mem = s.mem ∧ (s.cryptCmd op slot len).crypt.keys = s.crypt.keys ∧
        (s.cryptCmd op slot len).crypt.buf = s.crypt.buf ∧
        (s.cryptCmd op slot len).reg (fk 0x40016008 0) = 2 ^ 31 + placeTag 0 s.crypt.count ∧
        (s.cryptCmd op slot len).stands 18 1 = decide (op = 1))) ∧
    (s.placeFree 18 1 = false ∨ s.arbFrozen 18 = true → ∀ op slot len, (s.cryptCmd op slot len).crypt = s.crypt ∧
      (s.cryptCmd op slot len).reg (fk 0x40016008 0) < 2 ^ 20) ∧
    (∀ o, s.crypt.op = some o → s.stands 18 1 = true → exec .cryptOperationEnd s = .next s) ∧
    (∀ o, s.crypt.op = some o → s.stands 18 1 = false → ∃ t, exec .cryptOperationEnd s = .next t ∧ t.crypt.op = none ∧
      t.crypt.buf = o.buf.getD s.crypt.buf ∧ t.reg (fk 0x4001600C 0) = o.status ∧ t.reg (fk 0x4001600C 16) = o.tag ∧
      bit t.irqEdge 6 = true ∧ t.mem = s.mem ∧ (o.slot = none → t.crypt.keys = s.crypt.keys) ∧
      (∀ n k, o.slot = some (n, k) → Tab.get (fun _ => none) t.crypt.keys n = k ∧
        (∀ m, m ≠ n → Tab.get (fun _ => none) t.crypt.keys m = Tab.get (fun _ => none) s.crypt.keys m))) ∧
    (∀ n tag, (s.cryptResult 3 0 n tag).1.status = (if 512 < n then 3 else 0)) ∧
    (∀ slot n tag, (s.cryptResult 2 slot n tag).1.slot = some (slot, none)) ∧
    (∀ op slot n tag, 3 ≤ op → slot ≠ 0 → (s.cryptResult op slot n tag).1.status = 3 ∧ (s.cryptResult op slot n tag).1.buf = none) ∧
    (∀ slot n tag, s.kekValid = false → (s.cryptResult 1 slot n tag).1.status = 4 ∧ (s.cryptResult 1 slot n tag).1.slot = none)

/-! ### ARB and LOCK -/

/-- R211–R217: a request of a powered requester stands once, with the beats of its requester; a try request stands where its place is
free and the instance not frozen, and is refused with a hint otherwise; a decision grants one eligible request at most BURST_MAX
beats, takes it off (what is left stands on), counts the losers' waits and zeroes the winner's; a transfer's burst in hand runs on; a
forced requester comes before class and priority, and PRB before all. An access that a command makes is granted within it (log entry
141) wherever nothing else stands at an instance that is on and not frozen. -/
def Obligations.ArbiterGrantsOneRequester : Prop :=
  ∀ s : State,
    (∀ (inst : Fin 36) (k : Fin 11) (beats : Fin 17) (prio : Fin 8) (ctx : Fin 66) (r : ArbReq), s.arbOn inst = true →
      (arbReqDoms inst k).any s.isUp = true → beats.val ≠ 0 → s.arbMake inst k beats ctx = some r → r.tenant.elim false s.resetting = false →
      let o := exec (.arbRequest inst k beats prio ctx) s
      r.k = k.val ∧ r.beats = arbBeats inst k beats ∧
      (arbTry inst k = false → s.stands inst k = true → o = .next s) ∧
      (arbTry inst k = false → s.stands inst k = false → inst.val < 20 → o = .next (s.stand inst r)) ∧
      (s.stands inst k = false → 20 ≤ inst.val → ∃ t, o = .next t ∧ (t.arb inst).standing = (s.arb inst).standing ++ [r] ∧
        t.regs = s.regs ∧ t.mem = s.mem) ∧
      (arbTry inst k = true → s.placeFree inst k = true → s.arbFrozen inst = false → o = .next (s.stand inst r)) ∧
      (arbTry inst k = true → s.placeFree inst k = false ∨ s.arbFrozen inst = true → o = .next (s.tryRefuse inst k).2)) ∧
    (∀ inst : Fin 36, s.arbOn inst = true → s.burstHeld inst = false → exec (.arbDecision inst) s = .next (s.arbDecide inst)) ∧
    (∀ inst : Fin 36, s.arbOn inst = false → s.burstHeld inst = false →
      exec (.arbDecision inst) s = .next (s.setArb inst { s.arb inst with burst := none })) ∧
    (∀ inst : Fin 36, s.burstHeld inst = true → exec (.arbDecision inst) s = .next s) ∧
    (∀ i r, i < 20 → s.arbOn i = true → s.arbFreeze i = false → s.reg kPhase ≠ 1 → s.burstHeld i = false → (s.arb i).standing = [] →
      0 < s.burstMax i → i ≠ 19 → ∃ u, s.useArb i r = some u ∧ u.mem = s.mem ∧ u.cat = s.cat ∧ (u.arb i).standing = []) ∧
    (∀ (i : Nat) (w : ArbReq), i < 20 → s.arbWinner i (s.eligible i) = some w → 
      ((s.arbDecide i).arb i).burst = some (w.k, min w.beats (s.burstMax i)) ∧ ((s.arbDecide i).arb i).last = w.k ∧
      ((s.arbDecide i).arb i).wait w.k = 0 ∧ w ∈ s.eligible i ∧ (s.arbDecide i).mem = s.mem ∧
      (w.beats ≤ s.burstMax i → ((s.arbDecide i).arb i).standing = (s.arb i).standing.filter (fun r => r.k != w.k))) ∧
    (∀ i, s.eligible i = [] → s.arbDecide i = s.setArb i { s.arb i with burst := none }) ∧
    (∀ i r q, i < 20 → arbIsPrb i r.k = true → arbIsPrb i q.k = false → keyLess (s.arbKey i r) (s.arbKey i q) = true) ∧
    (∀ i r q, i < 20 → arbIsPrb i r.k = false → arbIsPrb i q.k = false → s.arbLimit i r.k ≤ (s.arb i).wait r.k →
      (s.arb i).wait q.k < s.arbLimit i q.k → keyLess (s.arbKey i r) (s.arbKey i q) = true)

/-- LOCK (R222–R231): what the accesses answer and do to a cleat: a free cleat is taken by a write or a wait read, a held one
is freed by its holder or completes its waiters; a wait on a held cleat stalls; an access that LOCK refuses is counted, and a store
is then an imprecise bus error (R127); a lease restarts, and expires with 0xFFFFFFFF. The fourth tick of a wait and the last of a
lease are those of a tick whose latch edge has not come yet.
R225 and R224: a cleat that its holder frees goes to its first waiter, with the waiter's token and the lease from LEASE; with
no waiter it is free. -/
def Obligations.LockCommandsAndFirstWaiter : Prop :=
  (∀ (core : Fin 5) (cleat : Fin 256) (s : State), let ctx := s.ctxOf core
      let x := s.cleat cleat
      (s.lockReach core = true → (s.core core).tmode = false → s.fenced ctx = false →
        (∀ v : Word, x.value = 0 → freeValue v.toNat = false → ∃ t, exec (.cleatValueWrite core cleat v) s = .next t ∧
          (t.cleat cleat).value = v.toNat ∧ (t.cleat cleat).holder = some ctx ∧ (∀ d, d ≠ cleat.val → t.cleat d = s.cleat d) ∧ t.mem = s.mem) ∧
        (∀ e v : Word, x.value ≠ e.toNat → exec (.cleatAcas core cleat e v) s = .next s) ∧
        (∀ v : Word, x.value = 0 → freeValue v.toNat = false → ∃ t, exec (.cleatAcas core cleat 0#32 v) s = .next t ∧
          (t.cleat cleat).value = v.toNat ∧ (t.cleat cleat).holder = some ctx) ∧
        (∀ rd : Fin 16, x.value = 0 → (∀ w ∈ s.lock.waits, w.ctx ≠ ctx) → ∃ t, exec (.cleatWaitRead core cleat rd) s = .next t ∧
          (t.cleat cleat).value = s.token ctx ∧ (t.cleat cleat).holder = some ctx ∧
          t.core core = { (s.core core).setG rd 0#32 with pc := (s.core core).pc + 4#32 }) ∧
        (∀ rd : Fin 16, freeValue x.value = false → x.holder ≠ some ctx → (∀ w ∈ s.lock.waits, w.ctx ≠ ctx) →
          ∃ t, exec (.cleatWaitRead core cleat rd) s = .next t ∧ (t.core core).run = .lockWait ∧ (t.core core).waitRd = rd.val ∧
            t.cleat cleat = x ∧ (t.lock.waits.any (fun w => w.ctx == ctx && w.cleat == cleat.val && w.result.isNone) = true)) ∧
        (x.holder = some ctx → exec (.cleatLeaseWrite core cleat) s = .next (s.setCleat cleat { x with lease := x.load })) ∧
        (x.holder ≠ some ctx → exec (.cleatLeaseWrite core cleat) s =
          .next ((s.count (fk 0x4000601C 0) 16 1).storeErr core (s.cleatEnt core cleat 2 0)))) ∧
      (s.lockReach core = true → (s.core core).tmode = true → s.rights (cleat / 16) (s.ctxTenant ctx) = false → ∀ v : Word,
        exec (.cleatValueWrite core cleat v) s =
          .next ((s.count (fk 0x4000601C 0) 16 1).storeErr core (s.cleatEnt core cleat 0 v.toNat))) ∧
      (∀ (c : Fin 65) (w : WaitRec), s.lock.waits.find? (fun w => w.ctx == c.val && w.result.isNone) = some w → s.isUp 48 = true →
        s.clk.tickDue = true → w.ticks = 3 →
        (c.val = 64 → exec (.waitTimeout c) s = .next (s.completeWait { w with ticks := 4 } 0x80000001)) ∧
        (c.val ≠ 64 → exec (.waitTimeout c) s = .next (s.setWait { w with ticks := 4, result := some 0x80000001 }))) ∧
      (s.isUp 48 = true → s.clk.tickDue = true → x.lease = 1 → exec (.leaseExpired cleat) s = .next (s.leaseExpires cleat)) ∧
      (∀ v, s.isUp 48 = true → s.flag (fk 0x40006000 0) = true → s.victim s.waitCycle = some v → s.waitsOn v = none → s.coreOf v = none →
        ∃ t, exec .waitBroken s = .next (s.settle t) ∧ (t.slot v).state = 1 ∧ (t.slot v).broken = true)) ∧
  (∀ (s : State) (c : Nat) (w : WaitRec),
      ((s.setCleat c { value := 0 }).firstWaiter c = some w → (s.setCleat c { value := 0 }).stalledOn w.ctx = none →
        let t := s.freeCleat c 0
        (t.cleat c).value = (s.setCleat c { value := 0 }).token w.ctx ∧ (t.cleat c).holder = some w.ctx ∧
        (t.cleat c).lease = s.reg (fk (0x40006108 + 0x10 * (c / 16)) 0) ∧ t.mem = s.mem) ∧
      ((s.setCleat c { value := 0 }).firstWaiter c = none → s.freeCleat c 0 = (s.setCleat c { value := 0 }).cleatEvent c))

/-! ### Bays, conversion, SFU and NOR -/

/-- R296. A trip makes the channel TRIPPED while RETRIES_LEFT is 1 or more, and LOCKED at 0; it counts in TRIPS, sets TRIP and
records CAUSE and FRAME_NUM[15:0], LOCKED also its own event. RETRIES_LEFT is loaded at the entry to RAMP from OFF and at
RESTART, not at a retry. -/
def Obligations.BayTripsCountRetriesDown : Prop :=
  ∀ (s : State) (n cause : Nat), let c := s.bayCh n
    let t := s.bayTrip n cause
    (c.retriesLeft ≠ 0 → (t.bayCh n).st = 3 ∧ (t.bayCh n).retriesLeft = c.retriesLeft - 1) ∧
    (c.retriesLeft = 0 → (t.bayCh n).st = 4 ∧ t.flag (kBayCh n 0x14 1) = true) ∧
    (t.bayCh n).trips = min (c.trips + 1) 255 ∧ t.flag (kBayCh n 0x14 0) = true ∧ t.reg (kBayCh n 0x18 0) = cause ∧
    t.reg (kBayCh n 0x18 16) = s.frameNum % 65536 ∧ (∀ m, m ≠ n → t.bayCh m = s.bayCh m) ∧ t.mem = s.mem ∧
    (let loaded := if c.st = 0 then s.reg (kBayCh n 4 0) else c.retriesLeft
     let u := s.setBayCh n { c with st := 1, backoff := none, retriesLeft := loaded }
     (s.admitChan n = u ∨ s.admitChan n = u.bayTrip n 2)) ∧
    (s.reg (kBayCh n 4 16) ≠ 1 → ((s.admitChan n).bayCh n).st = 1) ∧
    (c.st = 4 → s.bayRestart n = s.setBayCh n { c with st := 0, retriesLeft := s.reg (kBayCh n 4 0) }) ∧
    (c.st ≠ 4 → s.bayRestart n = s)

/-- The commands and events of bay channels (R295, R298–R302, R306–R309): START, STOP and gang commands stand until the latch
edge, RESTART acts at once; the end of a ramp, a short, a backoff, the supply monitor and the inputs move the channel as the
rules say. -/
def Obligations.BayCommandsAndEvents : Prop :=
  ∀ (chan : Fin 128) (s : State), let n := chan.val
    let c := s.bayCh n
    let s1 : State := { s with bay := { s.bay with lastBay := n } }
    (s.aon = true → s.isUp 5 = true → s.bayUp n = true →
      exec (.channelStart chan) s = .next (s1.setBayCh n { c with startReq := true }) ∧
      exec (.channelStop chan) s = .next (s1.setBayCh n { c with stopReq := true }) ∧
      exec (.restart chan) s = .next (s1.bayRestart n)) ∧
    (s.aon = true → s.isUp 5 = true → s.bayUp n = true → ∀ gangs : BitVec 8,
      exec (.gangCmdStart gangs) s = .next { s with bay := { s.bay with gangStart := s.bay.gangStart ||| gangs.toNat } } ∧
      exec (.gangCmdStop gangs) s = .next { s with bay := { s.bay with gangStop := s.bay.gangStop ||| gangs.toNat } }) ∧
    (s.bayUp n = true → c.st = 1 → exec (.rampEnd chan true) s = .next (s.setBayCh n { c with st := 2 }) ∧
      exec (.rampEnd chan false) s = .next (s.bayTrip n 1)) ∧
    (s.bayUp n = true → c.st = 1 ∨ c.st = 2 → exec (.shortTrip chan) s = .next (s.bayTrip n 0)) ∧
    (s.bayUp n = true → s.clk.tickDue = true → c.st = 3 → c.backoff = some 1 →
      (s.leftOut n = none → ∃ t, exec (.backoffExpiry chan) s = .next t ∧ t.bay.units = s.bay.units ++ [[n]] ∧
        t.bayCh n = { c with backoff := none }) ∧
      (∀ e, s.leftOut n = some e → ∃ t, exec (.backoffExpiry chan) s = .next t ∧ (t.bayCh n).st = 0 ∧
        t.flag (kBayCh n 0x14 e) = true)) ∧
    (s.bayUp n = true → s.bayRing n = false → exec (.prsChg chan true) s = exec (.prsChg chan false) s ∧
      exec (.flt chan true) s = exec (.flt chan false) s) ∧
    (s.bayUp n = true → s.bayRing n = true → c.prs.masked = none → c.prs.level ≠ some true → c.prs.changes < 32 → ∃ t, exec (.prsChg chan true) s = .next t ∧
      t.flag (kBayCh n 0x14 2) = true ∧ (t.bayCh n).prs = { c.prs with level := some true, raw := some true, changes := c.prs.changes + 1 }) ∧
    (s.bayUp n = true → s.bayRing n = true → c.prs.masked = none → c.prs.level ≠ some true → c.prs.changes = 32 → ∃ t, exec (.prsChg chan true) s = .next t ∧
      t.flag (kBayCh n 0x14 4) = true ∧ (t.bayCh n).prs.masked = some 64 ∧ (t.bayCh n).st = c.st) ∧
    (s.bayUp n = true → s.bayRing n = true → s.flag (kBayu n 0 1) = false → c.flt.masked = none → c.flt.level ≠ some true → c.flt.changes < 32 →
      s.flag (kBayIn (n / 16) 1) = false → (c.st = 1 ∨ c.st = 2) → ∃ t, exec (.flt chan true) s = .next t ∧
        t.flag (kBayCh n 0x14 3) = true ∧ (s.reg (kBayCh n 4 16) = 2 → (t.bayCh n).st = 0) ∧
        (s.reg (kBayCh n 4 16) = 1 → (t.bayCh n).st = if c.retriesLeft = 0 then 4 else 3) ∧
        (s.reg (kBayCh n 4 16) = 0 → (t.bayCh n).st = c.st)) ∧
    (s.bayUp n = true → c.prs.masked = some 0 → exec (.inputUnmask chan false) s =
      .next (s.setBayCh n { c with prs := { c.prs with masked := none, level := c.prs.raw } })) ∧
    (∀ g : Fin 8, s.isUp (55 + g) = true → exec (.vb12OkRise g) s = .next (s.setReg kVb12 (setBit (s.reg kVb12) g true))) ∧
    (∀ g : Fin 8, s.isUp (55 + g) = true → s.vb12 g = true → ∃ t, exec (.bayUv g) s = .next t ∧ t.mem = s.mem ∧
      (∀ m, m / 16 = g.val → (t.bayCh m).st ≠ 1 ∧ (t.bayCh m).st ≠ 2 ∧ t.queued m = false) ∧
      (∀ m, m / 16 ≠ g.val → t.bayCh m = s.bayCh m))

/-- The serial ports (R310–R315): a written character enters the transmit FIFO, or is counted when it is full; a read takes
the oldest received word; a received character joins the FIFO of an admitted, enabled port, or is counted; ring moves; false
starts; admission. -/
def Obligations.BaySerialPorts : Prop :=
  ∀ (chan : Fin 128) (s : State), let n := chan.val
    let p := s.port n
    let s1 : State := { s with bay := { s.bay with lastBayu := n } }
    (s.aon = true → s.isUp 5 = true → s.bayUp n = true → ∀ data : Byte,
      (p.tx.length < 16 → exec (.bayuTx chan data) s =
        .next (s1.setPort n (({ p with tx := p.tx ++ [data.toNat] } : BayuCh).take (s.flag (kBayu n 0 0))))) ∧
      (16 ≤ p.tx.length → exec (.bayuTx chan data) s = .next (s1.count (kBayu n 0x1C 8) 8 1))) ∧
    (s.aon = true → s.bayUp n = true → (∀ w rest, p.rx = w :: rest → exec (.bayuRx chan) s = .next (s.setPort n { p with rx := rest })) ∧
      (p.rx = [] → exec (.bayuRx chan) s = .next s)) ∧
    (s.bayUp n = true → s.flag (kBayu n 0 0) = true → s.bayRing n = true → s.flag (kBayu n 0 1) = false ∨ p.shifting.isSome = true →
      ∀ data : Byte, (s.rxAdmitted n = true → p.rx.length < 16 → exec (.characterReceived chan data false false) s =
        .next (s.setPort n { p with rx := p.rx ++ [data.toNat] })) ∧
      (s.rxAdmitted n = true → 16 ≤ p.rx.length → exec (.characterReceived chan data false false) s =
        .next (s.count (kBayu n 0x1C 0) 8 1)) ∧
      (s.rxAdmitted n = false → exec (.characterReceived chan data false false) s =
        .next (s.count (fk (0x40038010 + 4 * (n / 16)) 0) 16 1))) ∧
    (s.bayRing n = false → s.flag (kBayu n 0 1) = false → (∀ data pe fe, exec (.characterReceived chan data pe fe) s = .next s) ∧
      exec (.falseStart chan) s = .next s) ∧
    (s.bayUp n = true → s.bayRing n = true → s.flag (kBayu n 0 0) = true → s.flag (kBayu n 0 1) = false → s.rxAdmitted n = true →
      exec (.falseStart chan) s = .next (s.count (kBayu n 0x1C 16) 8 1)) ∧
    (∀ ch, s.bayUp n = true → p.shifting = some ch →
      (p.tx = [] → exec (.characterShiftedOut chan) s = .next (s.setPort n { p with shifting := none })) ∧
      (∀ w rest, p.tx = w :: rest → s.flag (kBayu n 0 0) = true → exec (.characterShiftedOut chan) s =
        .next (s.setPort n { p with shifting := some w, tx := rest }))) ∧
    (∀ w rest u, p.rx = w :: rest → s.bayUp n = true → s.reg (kBayu n 4 0) ≠ 0 → s.reef1Leave.useArb 19 (plainReq 1 1) = some u →
      (p.head + 65536 - s.reg (kBayu n 8 0)) % 65536 < 2 ^ s.reg (kBayu n 4 0) →
      let a := s.reg (kBayu n 4 6) * 64 + 2 * (p.head % 2 ^ s.reg (kBayu n 4 0))
      s.sparOk a = true → ∃ t, exec (.bayuRingMove chan) s = .next t ∧ t.rdBytes a 2 = leBytes w 2 ∧ (t.port n).rx = rest ∧
        (t.port n).head = (p.head + 1) % 65536) ∧
    (∀ g : Fin 8, s.isUp (55 + g) = true → exec (.receiverAdmission g) s = .next (s.setReg kAdmit (setBit (s.reg kAdmit) g true)))

/-- Conversion (R321–R329): the start of a sequencer at entry 0, the result word of a conversion with the reference on and
off, a full FIFO, the move into a ring, REF_OK, and a sequencer word with the DELAY staged for its entry. -/
def Obligations.AdcSequencersAndResults : Prop :=
  ∀ (conv : Fin 4) (s : State), let c := conv.val
    let x := s.conv c
    (s.groupReady c = true → s.convTrig c = false → x.running = false → s.lockGroup c = [c] →
      ∃ t, exec (.converterStart conv) s = .next t ∧ (t.conv c).running = true ∧ (t.conv c).entry = 0 ∧ (t.conv c).results = 0 ∧
        (∀ d, d ≠ c → t.conv d = s.conv d) ∧ t.regs = s.regs ∧ t.mem = s.mem) ∧
    (∀ uv, s.isUp (50 + c) = true → x.running = true → x.waiting = false → x.stopping = false → bits x.w0 16 3 = 0 → x.taken = 0 →
      x.sum = 0 → x.results ≠ bits x.w0 8 8 →
      let code := if bits x.w0 0 8 = 0x2A then 0 else min 4095 ((uv + 250).toNat / 500)
      let word := x.entry * 4096 + c * 2 ^ 18 + ofBool x.lostBefore * 2 ^ 30
      ((s.adc.fifo.filter (fun f => f.1 == c)).length < 8 → s.isUp 54 = true → x.unsettled = false → x.beganOk = true →
        ∃ t, exec (.conversionDone conv uv) s = .next t ∧ t.adc.fifo = s.adc.fifo ++ [(c, bits x.w0 20 2, code + word)] ∧
          (t.conv c).results = x.results + 1 ∧ t.regs = s.regs ∧ t.mem = s.mem) ∧
      ((s.adc.fifo.filter (fun f => f.1 == c)).length < 8 → s.isUp 54 = false →
        ∃ t, exec (.conversionDone conv uv) s = .next t ∧ t.adc.fifo = s.adc.fifo ++ [(c, bits x.w0 20 2, word + 2 ^ 31)]) ∧
      (8 ≤ (s.adc.fifo.filter (fun f => f.1 == c)).length → ∃ t, exec (.conversionDone conv uv) s = .next t ∧ t.adc.fifo = s.adc.fifo ∧
        (t.conv c).lostBefore = true ∧ t.reg (fk (0x40010028 + 0x10 * c) 0) = min (s.reg (fk (0x40010028 + 0x10 * c) 0) + 1) 65535)) ∧
    (∀ k r w rest u, s.adc.fifo = (k, r, w) :: rest → s.reef1Leave.useArb 19 (plainReq 0 1) = some u → let a := 0x40010100 + 0x10 * r
      let dst := s.reg (fk a 6) * 64 + 4 * (s.reg (fk (a + 0xC) 0) % 2 ^ s.reg (fk (a + 4) 0))
      (s.reg (fk (a + 0xC) 0) + 65536 - s.reg (fk (a + 8) 0)) % 65536 < 2 ^ s.reg (fk (a + 4) 0) → s.sparOk dst = true →
      ∃ t, exec .adcRingMove s = .next t ∧ t.adc.fifo = rest ∧ t.rdBytes dst 4 = leBytes w 4 ∧
        t.reg (fk (a + 0xC) 0) = (s.reg (fk (a + 0xC) 0) + 1) % 65536) ∧
    (s.isUp 54 = true → exec .refOk s = .next { s with adc := { s.adc with refOk := true } }) ∧
    (∀ (e : Fin 64) (v : Word), s.aon = true → s.isUp 5 = true → s.isUp (50 + c) = true → let a := seqAddr c e
      ∃ t, exec (.seqEntryWrite conv e v) s = .next t ∧ t.adc.conv = s.adc.conv ∧ t.mem = s.mem ∧
        t.reg (fk a 0) = (if bits v.toNat 0 8 ∈ adcInputs then bits v.toNat 0 8 else s.reg (fk a 0)) ∧
        t.reg (fk a 8) = bits v.toNat 8 8 ∧ t.reg (fk a 20) = bits v.toNat 20 2 ∧
        t.reg (fk a 16) = (if bits v.toNat 16 3 ≤ 4 then bits v.toNat 16 3 else s.reg (fk a 16)) ∧
        t.reg (fk (a + 4) 0) = (s.stagedDelay c e).getD (s.reg (fk (a + 4) 0)))

/-- SFU (R335–R348): a granted job with no failing check starts and one with a failing check ends with its status; the end
writes the record, frees the place and answers the row operation; table writes wait for jobs that use the slot; the row
operations and NORM's k. -/
def Obligations.SfuJobsAndRows : Prop :=
  (∀ (place : Fin 6) (s : State), let j := s.job place
    (s.isUp 46 = true → j.busy = true → j.started = false → s.granted 17 place = true → s.flag kStdReady = true →
      (s.jobCheck j = none → exec (.sfuJobStart place) s = .next (s.setJob place { j with started := true })) ∧
      (∀ st, s.jobCheck j = some st → exec (.sfuJobStart place) s = .next (s.jobEnd place 0 0 st))) ∧
    (s.flag kStdReady = false → exec (.sfuJobStart place) s = .next s) ∧
    (s.isUp 46 = true → j.busy = true → j.started = true → (s.arb 17).standing = [] → j.ctx = 64 → s.tabWait = [] →
      let d := jobDesc j.desc
      let r := s.ncReadN (j.addr d.srcSeg d.src) (2 * d.n)
      let l := (List.range d.n).map (fun i => sval 16 (leAt r.1 (2 * i) 2))
      let a := j.addr d.dstSeg d.res
      d.op = 0 → (∃ b, regionOf a = .spar b) → ∃ t, exec (.sfuJobEnd place) s = .next t ∧ (t.job place).busy = false ∧
        t.rdBytes a 16 = jobRecord (sumI l) 0 0 j.tag j.ticks ∧ bit t.irqEdge 4 = true)) ∧
  (∀ (addr value : Word) (s : State), s.isUp 46 = true → tableWritable addr.toNat = true →
    (s.slotUsed (tableSlot addr.toNat) = false → ∃ t, exec (.tableWrite addr value) s = .next t ∧
      t.rdBytes addr.toNat 4 = leBytes value.toNat 4 ∧ (∀ b, b < addr.toNat ∨ addr.toNat + 4 ≤ b → t.rd b = s.rd b)) ∧
    (s.slotUsed (tableSlot addr.toNat) = true → exec (.tableWrite addr value) s =
      .next { s with tabWait := s.tabWait ++ [(addr.toNat, value.toNat)] })) ∧
  (∀ s : State, s.isUp 46 = true → exec .stdReady s = .next (s.setFlag kStdReady true)) ∧
  (∀ (s : State) (slot eps : Nat) (l : List Int), l ≠ [] →
    (s.rowOp 0 slot eps l).value = l.sum ∧ (s.rowOp 1 slot eps l).value = (2 * l.sum + l.length).ediv (2 * l.length) ∧
    (∀ op ∈ [2, 3], let r := s.rowOp op slot eps l
      l[r.index]? = some r.value ∧ (∀ i, i < r.index → l[i]? ≠ some r.value) ∧
      (∀ y ∈ l, if op = 2 then y ≤ r.value else r.value ≤ y)) ∧
    (0 ≤ (s.rowOp 4 slot eps l).value ∧ (s.rowOp 4 slot eps l).value ≤ 32767) ∧
    (s.rowOp 8 slot eps l).out = some (l.map (fun y => (s.lookup slot y).1))) ∧
  (∀ v : Int, 1 ≤ v → v ≤ 32767 → let ku := normShift v
    ku.1 ≤ 6 ∧ -1 ≤ ku.1 ∧ 2048 ≤ ku.2 ∧ ku.2 ≤ 8191 ∧ ku.2 = if ku.1 = -1 then v / 4 else v * 4 ^ ku.1.toNat)

/-- The NOR store (R378–R382): a command on an idle store starts its operation, or ends LOCKED or PAGE_CROSS with nothing else
done; the blank check, programming as AND, erasing to 0xFF, the verification, and the suspension of an erase. -/
def Obligations.NorOperations : Prop :=
  ∀ s : State, s.isUp 44 = true → let o := s.norOp
    let at_ := s.reg (fk 0x40009000 0)
    let n := s.reg (fk 0x40009004 0)
    (s.aon = true → s.isUp 5 = true → o.state = 0 → exec .eraseSector s = .next (s.norStart 1 false) ∧
      exec .eraseBlock s = .next (s.norStart 2 false) ∧ (∀ p, exec (.program p) s = .next (s.norStart 3 p))) ∧
    (s.norLocked (at_ / 4096 * 4096) 4096 = true → s.norStart 1 false = s.setReg kNorResult 3) ∧
    (∀ p, s.norLocked at_ n = false → n ≤ 256 → 256 < at_ % 256 + n → s.norStart 3 p = s.setReg kNorResult 4) ∧
    (∀ a k, s.norLocked a k = true ↔ 0x7F0000 < a + k ∨ (s.boot.recLocked = true ∧ 0x630000 < a + k ∧ a < 0x7F0000)) ∧
    (o.state = 1 → (∀ i, i < o.target.2 → s.rd (norBase + o.target.1 + i) = 0xFF#8) →
      exec .norCheckDone s = .next (s.setNor { o with state := 2 })) ∧
    (∀ i, o.state = 1 → i < o.target.2 → (∀ k, k < i → s.rd (norBase + o.target.1 + k) = 0xFF#8) →
      s.rd (norBase + o.target.1 + i) ≠ 0xFF#8 → ∃ t, exec .norCheckDone s = .next t ∧ t.norOp.state = 0 ∧ t.reg kNorResult = 1 ∧
        t.reg kNorOff = o.target.1 + i ∧ t.mem = s.mem ∧ bit t.irqEdge 8 = true) ∧
    (o.state = 2 → o.op = 3 → ∃ t, exec (.norOperationDone none) s = .next t ∧ t.norOp.state = 5 ∧
      (∀ i, i < o.data.length → t.rd (norBase + o.addr + i) = s.rd (norBase + o.addr + i) &&& o.data.getD i 0#8) ∧
      (∀ a, a < norBase + o.addr ∨ norBase + o.addr + o.data.length ≤ a → t.rd a = s.rd a)) ∧
    (o.state = 3 → o.op = 1 → o.addr < 0x800000 →
      let b := norBase + o.addr / 4096 * 4096
      ∃ t, exec (.norOperationDone none) s = .next t ∧ t.norOp.state = 5 ∧
      (∀ a, b ≤ a → a < b + 4096 → t.rd a = 0xFF#8) ∧ (∀ a, a < b ∨ b + 4096 ≤ a → t.rd a = s.rd a)) ∧
    (o.state = 5 → o.op = 3 → (∀ i, i < o.data.length → s.rd (norBase + o.addr + i) = o.data.getD i 0#8) →
      exec .norVerifyDone s = .next (((s.setNor {}).setReg kNorResult 0).irq 8)) ∧
    (∀ addr : Word, regionOf addr.toNat = .nor → (o.state = 3 → ∃ t, exec (.norWindowRead addr) s = .next t ∧ t.norOp.state = 4 ∧
        t.mem = s.mem ∧ t.reg (fk 0x40009020 0) = min (s.reg (fk 0x40009020 0) + 1) 65535) ∧
      (o.state ≠ 3 → exec (.norWindowRead addr) s = .next s)) ∧
    (o.state = 4 → exec .eraseResume s = .next (s.setNor { o with state := 3 }))

/-! ### Errors, start-up and service ports -/

/-- ERR and the resets (R357, R359, R362–R369): a record enters the queue's end, or is counted in LOST when it is full, and
interrupts; a DEVICE_FATAL record is kept; warm resets fall due, start and end; WDT_OUT_N. Start-up (R370, R371, R387): ROM's
step 1 while the NOR is off, then the rest, after which Cyntoux accepts commands and RSTOUT_N is released; the warm path with
a valid snapshot, and without one; the choice of a slot. -/
def Obligations.ErrorRecordsResetsAndRomBoot : Prop :=
  (∀ s : State,
      (∀ (cls : Fin 4) (source : Byte) (tenant : Fin 64) (code seq : BitVec 16) (address offset : Word) (segment : Fin 8) (detail : List Byte),
        s.isUp 5 = true → 2 ≤ cls.val ∨ Tab.get (fun _ => 0) s.err.perSource source.toNat < 8 →
        let o := exec (.errRecord cls source tenant code seq address offset segment detail) s
        (s.err.count < 32 → ∃ t, o = .next t ∧ t.err.count = s.err.count + 1 ∧
          t.err.recAt s.err.count = { cls := cls, source := source.toNat, tenant := tenant, count := 1, code := code.toNat, seq := seq.toNat, address := address.toNat, frame := s.frameNum, stamp := s.err.stamp, offset := offset.toNat, segment := segment, detail := (detail.take 7).map (·.toNat) } ∧
          (∀ i, i < s.err.count → t.err.recAt i = s.err.recAt i) ∧ t.regs = s.regs ∧ t.mem = s.mem ∧
          (s.flag (fk 0x40014000 0) = true → s.err.active = false → s.err.handled ≤ s.err.count → t.err.active = true) ∧
          (cls = 3 → s.err.fatal = none → t.err.keepValid = true ∧ t.err.fatal = some (s.err.stamp, 0) ∧
            t.err.fatalResets = min (s.err.fatalResets + 1) 255)) ∧
        (s.err.count = 32 → ∃ t, o = .next t ∧ t.err.count = 32 ∧ t.err.lost = min (s.err.lost + 1) 65535 ∧ t.err.slots = s.err.slots)) ∧
      (∀ n e, s.err.fatal = some (n, e) → s.boot.warmDue = none →
        (2 ≤ e → exec .fatalResetDue s = .next { s with boot := { s.boot with warmDue := some (3, 0) } }) ∧
        (e < 2 → exec .fatalResetDue s = .next s)) ∧
      (s.aon = true → s.boot.warmDue = none → exec (.rstN true) s =
        .next { s with boot := { s.boot with rstLow := true, warmDue := some (1, 0) } }) ∧
      (s.boot.warmDue ≠ none ∨ s.aon = false → exec (.rstN true) s = .next { s with boot := { s.boot with rstLow := true } }) ∧
      (exec (.rstN false) s = .next { s with boot := { s.boot with rstLow := false } }) ∧
      (∀ src reason, s.boot.warmDue = some (src, reason) → s.aon = true → s.boot.inReset = false → ∃ t, exec .warmResetStart s = .next t ∧
        t.boot.inReset = true ∧ t.boot.rstOutLow = true ∧ t.boot.accepting = false ∧ t.boot.warmDue = some (src, reason) ∧
        (src = 3 → t.boot.wdtLow = true) ∧ t.serv.unlocked = false ∧ t.cyn.queue = [] ∧ t.cyn.kept = []) ∧
      (∀ boot strap src reason, s.boot.warmDue = some (src, reason) → s.aon = true → s.boot.inReset = true → s.boot.rstLow = false →
        s.cat.wb = [] → s.cat.mapDue = [] → ∃ u t, exec (.warmResetEnd boot strap) s = .next t ∧ t = startDomains.foldl (fun s d => s.onDom d) u ∧
          u.boot.inReset = false ∧ u.boot.warmDue = none ∧ u.boot.starting = true ∧ u.boot.bootBalls = boot.toNat ∧ u.reg kBootCause = 1 ∧
          u.reg (fk 0x40000060 4) = src ∧ u.reg (fk 0x40000060 16) = (if src = 2 then reason else 0) ∧ u.err.fatal = none) ∧
      exec .wdtOutNRelease s = .next { s with boot := { s.boot with wdtLow := false } }) ∧
  (∀ s : State, s.aon = true → s.isUp 6 = true → s.isUp 5 = true → s.boot.starting = true →
      (s.reg kBootCause ≠ 2 → ∀ id, (s.isUp 44 = false → exec (.romBoot id) s = .next s.bootStep1) ∧
        (s.isUp 44 = true → ∃ t, exec (.romBoot id) s = .next t ∧ t.boot.accepting = true ∧ t.boot.starting = false ∧
          t.boot.rstOutLow = false)) ∧
      (s.reg kBootCause = 2 → s.boot.full = false →
        (s.snapValid = true → ∃ t, exec .warmPath s = .next t ∧ t.boot.accepting = true ∧ t.boot.starting = false) ∧
        (s.snapValid = false → ∃ t, exec .warmPath s = .next t ∧ t.flag kSnapBad = true ∧ t.boot.full = true ∧ t.boot.starting = true)) ∧
      (s.boot.bootBalls = 2 → s.chooseSlot = (3, false)) ∧
      (s.boot.bootBalls = 0 → s.imageOk s.activeSlot = true → s.chooseSlot = (s.activeSlot, false)) ∧
      (s.boot.bootBalls = 0 → s.imageOk 0 = false → s.imageOk 1 = false → s.chooseSlot = (if s.imageOk 2 then (2, true) else (3, true))))

/-- Ethernet, consoles, GPIO and shelf control (R390–R398): what each event of a port answers or counts; a frame sent carries
its padding and FCS. JTAG and trace (R400–R402): each instruction of Table 18-3 puts itself in force; DEBUG on a locked part
and every unlisted code act as BYPASS; TRST_N resets the TAP; a packet enters the trace FIFO behind the count of those
dropped, or is dropped. -/
def Obligations.ServicePortsJtagAndTrace : Prop :=
  (∀ (port : Bool) (s : State), let p := ofBool port
      (∀ f : List Byte, s.reg (kSgmIp p) ≠ 0 → s.sgmUp p = true → let g := f ++ List.replicate (60 - f.length) 0#8
        Tab.get (fun _ => []) (s.ethSend p f).serv.ethOut p = g ++ leBytes (crc32 g) 4) ∧
      (∀ f, s.reg (kSgmIp p) = 0 → s.ethSend p f = s) ∧
      (∀ f, s.sgmUp p = true → frameKept p f = false → exec (.ethernetFrame port f) s = .next (s.count (kSgmDrop p) 16 1)) ∧
      (∀ f, s.sgmUp p = true → frameKept p f = true → s.isArp p f = false → s.isEcho p f = false → s.isCommand p f = false →
        exec (.ethernetFrame port f) s = .next (s.reef1Leave.count (kSgmDrop p) 16 1)) ∧
      (∀ f, s.sgmUp p = true → frameKept p f = true → s.isArp p f = true → exec (.arpRequest port f) s =
        .next (s.reef1Leave.ethSend p (((f.drop 6).take 6) ++ macOf p ++ beBytes 0x0806 2 ++
          (beBytes 0x0001080006040002 8 ++ macOf p ++ (f.drop 38).take 4 ++ (f.drop 22).take 10)))) ∧
      (∀ f, s.sgmUp p = true → frameKept p f = true → s.isEcho p f = true → let q := ipOf f
        exec (.icmpEcho port f) s = .next (s.reef1Leave.ethSend p (((f.drop 6).take 6) ++ macOf p ++ beBytes 0x0800 2 ++
          ipPacket 1 (beAt q 16 4) (beAt q 12 4) ([0#8, 0#8] ++ beBytes (ipCheck ([0#8, 0#8, 0#8, 0#8] ++ q.drop 24)) 2 ++ q.drop 24)))) ∧
      (s.isUp (63 + p) = true → s.flag (kClkStat 3) = true → exec (.linkUp port true) s = .next (s.setFlag (kSgmLink p) true)) ∧
      (s.isUp (63 + p) = true → s.flag (kClkStat 3) = true → s.flag (fk (sgmBase p) 0) = true → exec (.linkUp port false) s =
        .next (s.setFlag (fk (sgmBase p + 0x40) 1) true)) ∧
      (∃ t, exec (.linkDown port) s = .next t ∧ t.flag (kSgmLink p) = false ∧ t.mem = s.mem) ∧
      (∀ b : Byte, s.isUp 69 = true → bit s.serv.consRx p = true → s.serv.io.vio33 = true →
        (((s.consBuf p).filter (· < 256)).length < 2048 → exec (.consoleByte port b) s =
          .next ((s.reef1Leave.setCons p (s.consBuf p ++ [b.toNat])).halyard 14)) ∧
        (2048 ≤ ((s.consBuf p).filter (· < 256)).length → ∃ t, exec (.consoleByte port b) s = .next t ∧
          t.reg (kConsDrop p) = min (s.reg (kConsDrop p) + 1) 65535)) ∧
      (∀ (pin : Fin 64) (l : Bool), s.isUp 5 = true → s.serv.io.vio33 = true → ∃ t, exec (.gpioEvent pin l) s = .next t ∧ t.regs = s.regs ∧
        t.serv.gpioIn = setBit s.serv.gpioIn pin l ∧ (bit s.serv.gpioIn pin ≠ l →
          bit (s.reg (fk (0x40012018 + 4 * (pin / 32)) 0)) (pin % 32) = true → t.serv.gpioEvent = setBit s.serv.gpioEvent pin true)) ∧
      (s.serv.io.vio33 = false → (∀ b : Byte, exec (.consoleByte port b) s = .next s) ∧ (∀ fan : Fin 4, exec (.fanTachEdge fan) s = .next s) ∧
        ∀ pin : Fin 64, exec (.gpioEvent pin true) s = exec (.gpioEvent pin false) s) ∧
      (s.aon = true → exec (.psuPg true) s = .next { s with serv := { s.serv with pg := true, pgWait := none } }) ∧
      (s.aon = true → exec (.psuPg false) s = .next { s with serv := { s.serv with pg := false } }) ∧
      (s.serv.alert = false → exec (.psuAlert true) s = .next (State.halyard { s with serv := { s.serv with alert := true } } 13)) ∧
      (exec (.psuAlert false) s = .next { s with serv := { s.serv with alert := false } }) ∧
      (∀ v : Dword, s.isUp 5 = true → exec (.ledShift v) s =
        .next { s with serv := { s.serv with led := v.toNat, ledOut := some v.toNat } }) ∧
      (∀ fan : Fin 4, s.isUp 5 = true → s.serv.io.vio33 = true → ∃ t, exec (.fanTachEdge fan) s = .next t ∧
        Tab.get (fun _ => 0) t.serv.tachNow fan = Tab.get (fun _ => 0) s.serv.tachNow fan + 1 ∧ t.regs = s.regs ∧ t.mem = s.mem)) ∧
  (∀ s : State, s.aon = true → let tap := s.serv.tap
      let force := fun (o : Out) (t : Tap) => o = .next { s with serv := { s.serv with tap := t } }
      (∀ c v, force (exec (.extest c v) s) { ir := 0, dr := v, cells := c, sampled := v, drive := true, hiz := false } ∧
        force (exec (.samplePreload c v) s) { ir := 1, dr := v, cells := c, sampled := v, drive := false, hiz := false }) ∧
      force (exec .idcode s) { tap with ir := 2, dr := 0x1EB649AF, drive := false, hiz := false } ∧
      force (exec .clamp s) { tap with ir := 3, dr := 0, drive := true, hiz := false } ∧
      force (exec .highz s) { tap with ir := 4, dr := 0, drive := false, hiz := true } ∧
      (s.debugLocked = false → s.isUp 70 = true → ∃ t, exec .jtagDebug s = .next t ∧ t.serv.tap.ir = 0x10 ∧ t.serv.tap.drive = false ∧
        t.serv.tap.hiz = false ∧ t.regs = s.regs ∧ t.mem = s.mem) ∧
      (s.debugLocked = true ∨ s.isUp 70 = false → force (exec .jtagDebug s) { tap with ir := 0x1F, dr := 0, drive := false, hiz := false }) ∧
      (∀ code : BitVec 5, code.toNat ∉ [0, 1, 2, 3, 4, 0x10] →
        force (exec (.bypass code) s) { tap with ir := 0x1F, dr := 0, drive := false, hiz := false }) ∧
      force (exec .trstN s) {} ∧
      (∀ (source : Fin 6) (kind : BitVec 5) (payload : List (BitVec 16)), s.isUp 71 = true → s.debugLocked = false →
        traceWords kind.toNat = some payload.length → let o := exec (.tracePacket source kind payload) s
        let pkt := (2 ^ 16 + source.val * 2 ^ 13 + kind.toNat * 2 ^ 8 + payload.length) :: payload.map (·.toNat)
        (s.serv.traceDropped = 0 → s.serv.trace.length + pkt.length ≤ 64 → o =
          .next { s with serv := { s.serv with trace := s.serv.trace ++ pkt, traceDropped := 0 } }) ∧
        (64 < s.serv.trace.length + pkt.length → o = .next { s with serv := { s.serv with traceDropped := s.serv.traceDropped + 1 } })))

/-! ### The rack spine and probes -/

/-- R249–R256, Table 11-6: an admitted node that can work answers each operation with the status and layout of the rules, or
refuses it by allowance, directory and sequence; without admission nothing is carried out; a lookup whose read waits, or whose
bank grants nothing, is BUSY (log entry 130). R246, R250, R263, R9, R12: a valid query
frame is taken from the port that delivered it, port A's where both did and differ; a bad CRC is counted; a query for this shelf is
answered, one for every shelf acts without a reply, and a reply leaves at its start, BUSY where its data came late. -/
def Obligations.QueriesAnswerAndReplyLeaves : Prop :=
  (∀ s : State, (s.admitted = false → exec .status s = .next s ∧ exec .gauge s = .next s ∧ exec .time s = .next s) ∧
      (s.prbOn = true → s.admitted = true →
      let rep := fun (o : Out) (st pl : Nat) => ∃ t, o = .next t ∧ t.spine.reply = some { status := st, payload := pl }
      (2 ≤ s.allow → rep (exec .status s) 0 s.statusLayout ∧ rep (exec .gauge s) 0 s.gaugeLayout ∧ rep (exec .time s) 0 s.timeLayout) ∧
      (s.allow < 2 → rep (exec .status s) 4 0 ∧ rep (exec .gauge s) 4 0 ∧ rep (exec .time s) 4 0) ∧
      (6 ≤ s.allow → s.flag kSleepSeq = false → ∃ t, exec .wakeShelf s = .next t ∧ t.flag kWakeSeq = true ∧
        t.spine.reply.map (·.status) = some 0) ∧
      (s.allow < 6 → rep (exec .wakeShelf s) 4 s.statusLayout) ∧ (6 ≤ s.allow → s.flag kSleepSeq = true → rep (exec .wakeShelf s) 7 s.statusLayout) ∧
      (2 ≤ s.allow → s.flag kWakeSeq = false → ∃ t, exec .sleepShelf s = .next t ∧ t.flag kSleepSeq = true ∧
        t.spine.reply.map (·.status) = some 0) ∧
      (∀ (n : Fin 64) (key : BitVec 48) (late : Bool) (tk : BitVec 16),
        (s.allow < 3 → rep (exec (.probe n key late) s) 4 0 ∧ rep (exec (.ticketFetch n tk) s) 4 0) ∧
        (3 ≤ s.allow → s.flag kDirValid = false → rep (exec (.probe n key late) s) 3 0 ∧ rep (exec (.ticketFetch n tk) s) 3 0) ∧
        (3 ≤ s.allow → s.flag kDirValid = true → s.dirKnown n = false →
          rep (exec (.probe n key late) s) 5 0 ∧ rep (exec (.ticketFetch n tk) s) 5 0) ∧
        (3 ≤ s.allow → s.flag kDirValid = true → s.dirKnown n = true →
          let i := tk.toNat % 256
          let bk := bucketsOf (bits (s.dirEntry n) 1 5) (bits (s.dirEntry n) 6 10) key.toNat
          let offs := entryOffs bk
          let u := s.reef1Leave.prbBanks offs
          (s.ticketFree i = true ∨ s.ticketGen i ≠ tk.toNat / 256 ∨ s.ticketTenant i ≠ n → rep (exec (.ticketFetch n tk) s) 8 0) ∧
          (s.ticketFree i = false → s.ticketGen i = tk.toNat / 256 → s.ticketTenant i = n → s.ticketState i ≠ 2 →
            rep (exec (.ticketFetch n tk) s) 2 (tk.toNat * 256)) ∧
          (s.ticketFree i = false → s.ticketGen i = tk.toNat / 256 → s.ticketTenant i = n → s.ticketState i = 2 → ∃ t,
            exec (.ticketFetch n tk) s = .next t ∧ t.rd (ticketAddr i + 0x18) = 0#8 ∧ ∃ r, t.spine.reply = some r ∧ r.status < 9 ∧
            (bits (s.rdLe (ticketAddr i + 8) 1) 0 4 < 9 → r.status = bits (s.rdLe (ticketAddr i + 8) 1) 0 4)) ∧
          (∃ t, exec (.probe n key true) s = .next t ∧ t.spine.reply = some { status := 7, payload := 0, late := true }) ∧
          (u.prbWaits offs = true ∨ u.prbAsk [bk.1, bk.2] = none → rep (exec (.probe n key false) s) 7 0) ∧
          (u.prbWaits offs = false → ∀ w v, u.prbAsk [bk.1, bk.2] = some w →
            (∀ e, w.prbLook key.toNat offs = (.hit e, v) → rep (exec (.probe n key false) s) 0 (entryLayout e)) ∧
            (w.prbLook key.toNat offs = (.miss, v) → rep (exec (.probe n key false) s) 1 0) ∧
            (w.prbLook key.toNat offs = (.poisoned, v) → rep (exec (.probe n key false) s) 6 0) ∧
            (∀ e, w.prbLook key.toNat offs = (.deferred e, v) → rep (exec (.probe n key false) s) (v.ticketFor n key.toNat).1
              (if (v.ticketFor n key.toNat).1 = 2 then (v.ticketFor n key.toNat).2.1 * 256 else 0))))) ∧
      (∀ data : BitVec 48, 2 ≤ s.allow → s.flag kChunkEn = true → s.spine.chunkDone = none → s.spine.chunkN = 0 → ∃ t,
        exec (.cmdChunk 32#6 data) s = .next t ∧ t.spine.chunkN = 1 ∧ t.rdBytes 0x12005000 6 = beBytes data.toNat 6 ∧
        t.spine.reply.map (·.status) = some 0) ∧
      (∀ data : BitVec 48, 2 ≤ s.allow → s.flag kChunkEn = true → s.spine.chunkDone = none → s.spine.chunkN = 0 → ∃ t,
        exec (.cmdChunk 1#6 data) s = .next t ∧ t.spine.chunkN = 0 ∧ t.spine.reply.map (·.status) = some 8))) ∧
  ((∀ (ports : BitVec 2) (a b : BitVec 72) (late : Bool) (s u : State),
      (s.pickFrame { ports := ports, a := a, b := b } crc8Ok = (none, u) → exec (.query ports a b late) s = .next u) ∧
      (∀ f, s.pickFrame { ports := ports, a := a, b := b } crc8Ok = (some f, u) → let n := f.toNat
        crc8 (beBytes (n / 256) 8) = n % 256 ∧
        (bits n 66 6 = s.shelf → s.shelf ≠ 63 → exec (.query ports a b late) s =
          .next (u.frameAccepted.answer (bits n 62 4) (bits n 56 6) (bits n 8 48) late).takeChunk) ∧
        (bits n 66 6 = 63 → exec (.query ports a b late) s = .next (u.frameAccepted.broadcast (bits n 62 4)).takeChunk) ∧
        (bits n 66 6 ≠ s.shelf → bits n 66 6 ≠ 63 → exec (.query ports a b late) s = .next u.takeChunk))) ∧
    (∀ (r : Rx 72) (ok : BitVec 72 → Bool) (s : State), let p := r.ports.toNat &&& s.rxPorts
      (p = 0 → s.pickFrame r ok = (none, s)) ∧
      (p = 1 → s.pickFrame r ok = if ok r.a then (some r.a, s.sdSeen) else (none, s.sdSeen.crcFail)) ∧
      (p = 2 → s.pickFrame r ok = if ok r.b then (some r.b, s.sdSeen) else (none, s.sdSeen.crcFail)) ∧
      (p = 3 → ok r.a = true → ok r.b = true → r.a = r.b → s.pickFrame r ok = (some r.a, s.sdSeen)) ∧
      (p = 3 → ok r.a = true → ok r.b = true → r.a ≠ r.b → s.pickFrame r ok = (some r.a, s.sdSeen.setFlag (kSpineEvent 5) true)) ∧
      (p = 3 → ok r.a = true → ok r.b = false → s.pickFrame r ok = (some r.a, s.sdSeen.crcFail)) ∧
      (p = 3 → ok r.a = false → ok r.b = true → s.pickFrame r ok = (some r.b, s.sdSeen.crcFail)) ∧
      (p = 3 → ok r.a = false → ok r.b = false → s.pickFrame r ok = (none, s.sdSeen.crcFail.crcFail))) ∧
    (∀ (s : State) (op : Nat), (s.broadcast op).spine.reply = s.spine.reply ∧ (op ≠ 2 → op ≠ 3 → s.broadcast op = s)) ∧
    (∀ (s u : State) (r : SpReply), s.spine.reply = some r → s.prbOn = true →
      ({ s with spine := { s.spine with reply := none } } : State).useArb 16 (sptxReq 1) = some u →
      exec .replyStart s = .next (u.spineSend (withCrc16 0x55
        (beBytes (if r.late then 7 * 2 ^ 68 else r.status % 16 * 2 ^ 68 + r.payload % 2 ^ 68) 9)))) ∧
    (∀ (s : State) (bs : List Byte), s.txPorts ≠ 0 → let t := s.spineSend bs
      t.spine = { s.spine with tx := bs } ∧ t.reg (fk 0x4000A074 0) = min (s.reg (fk 0x4000A074 0) + 1) 65535 ∧
      (∀ k, k ≠ fk 0x4000A074 0 → t.reg k = s.reg k) ∧ t.mem = s.mem))

/-- Excursions, slots and guards of the spine (R10, R71, R241, R252, R258–R265): what starts and ends an excursion, the frames
counted, and what a node sends and takes in the slots that the beacon governs; a transmission leaves once the transmitter's
arbiter has granted it (log entry 141). -/
def Obligations.SpineSlotsAndGuards : Prop :=
  ∀ s : State,
    (∀ port, s.reg kLevel = 2 ∨ s.reg kLevel = 3 → bit s.rxPorts (ofBool port) = true → s.spine.exc = false → ∃ t, exec (.energyDetect port) s = .next t ∧
      t.spine.exc = true ∧ t.spine.sdSeen = false ∧ t.isUp 68 = true ∧ t.isUp 1 = true ∧ t.isUp 3 = true ∧ t.mem = s.mem) ∧
    (∀ bank : Fin 16, s.spine.banks.contains (28 + bank.val) = true → s.domSt (28 + bank) = .rising →
      exec (.catalogBankReady bank) s = .next (s.setDom (28 + bank) .up)) ∧
    (s.spine.exc = true → s.spine.sdSeen = false → exec .excursionTimeout s = .next s.excEnd) ∧
    (s.spine.sdSeen = true → exec .excursionTimeout s = .next s) ∧ exec .slotEnd s = .next s.excEnd ∧
    (∀ sd b0 b1, s.spine.exc = true → s.foreign sd b0 b1 = true → exec (.foreignFrame sd b0 b1) s = .next s.excEnd) ∧
    (s.excEnd.spine.exc = false ∧ s.excEnd.spine.banks = [] ∧ s.excEnd.mem = s.mem ∧ s.excEnd.regs = s.regs) ∧
    (∀ port sd nbits bytes, bit s.rxPorts (ofBool port) = true →
      (frameLen (BitVec.toNat sd) (byteAt bytes 0) = none → exec (.spineFrameDiscarded port sd nbits bytes) s =
        .next ((if sd = 0x66#8 then s.sdSeen else s).count (fk 0x4000A074 16) 16 1)) ∧
      (∀ n, frameLen sd.toNat (byteAt bytes 0) = some n → nbits ≠ n → exec (.spineFrameDiscarded port sd nbits bytes) s =
        .next (s.sdSeen.count (fk 0x4000A074 16) 16 1)) ∧
      (frameLen sd.toNat (byteAt bytes 0) = some nbits → bytes.length * 8 = nbits → sd ≠ 0x33#8 →
        crc16 (bytes.take (bytes.length - 2)) ≠ ofBe (bytes.drop (bytes.length - 2)) →
        exec (.spineFrameDiscarded port sd nbits bytes) s = .next (s.sdSeen.count (fk 0x4000A070 16) 16 1))) ∧
    (∀ u, s.headActive = true → s.spine.reply = none → s.useArb 16 (sptxReq 0) = some u → u.txPorts ≠ 0 → ∃ t,
      exec (.headBeacon false) s = .next t ∧ t.spine.tx = withCrc16 0x0F u.headBody ∧ t.spine.headBase = u.spine.headBase ∧
      t.spine.headStop = false) ∧
    (∀ u, s.headActive = true → s.spine.reply = none → s.useArb 16 (sptxReq 0) = some u → ∃ t, exec (.headBeacon true) s = .next t ∧
      t.spine.headStop = true ∧ t.flag (kSpineEvent 4) = true) ∧
    (∀ (k : Fin 32) r rest u, s.spine.reports = r :: rest → s.slotOk = true → s.reportSlot k = true → s.slotOwner k = s.shelf →
      s.spine.reply = none → s.useArb 16 (sptxReq 2) = some u → ∃ t, exec (.reportFragment k) s = .next t ∧ t.mem = u.mem ∧
        (u.rptFrags r.buf ≤ r.sent + 1 → t.spine.reports = rest) ∧
        (r.sent + 1 < u.rptFrags r.buf → t.spine.reports = { r with sent := r.sent + 1, ticks := 0 } :: rest)) ∧
    (s.flag kSpineEn = true → s.flag kHead = true → s.spine.headStop = false → s.isUp 0 = true → s.spine.headRun = true →
      s.headTick = { s with spine := { s.spine with headBase := (s.spine.headBase + s.reg (fk 0x4000A014 0)) % 63 } }) ∧
    (∀ r, s.spine.reports.find? (fun r => decide (8 ≤ r.ticks)) = some r → ∃ t, exec .undelivered s = .next t ∧
      t.spine.reports = s.spine.reports.filter (fun x => x.buf != r.buf) ∧ t.flag (kProbeEvent 1) = true ∧
      t.reg (fk 0x4000B048 0) = s.rptTag r.buf) ∧
    (∀ u, s.pairFrame = true → s.slotOk = true → s.pairSender = true → s.spine.pairSent = false →
      s.reg kTxTail ≠ s.reg (fk 0x4000B018 0) → s.useArb 16 (sptxReq 3) = some u → u.txPorts ≠ 0 → ∃ t, exec .pairTx s = .next t ∧
      t.spine.pairSent = true ∧ t.spine.tx = withCrc16 0x66 ([BitVec.ofNat 8 (u.shelf + 64),
        BitVec.ofNat 8 u.pairPeer, BitVec.ofNat 8 (byteAt u.pairOldest 4 % 16)] ++ u.pairOldest.take 4)) ∧
    (∀ frame : Rx 72, s.pairFrame = true → s.slotOk = true → s.pairSender = false →
      (∀ u, s.pickFrame frame (crc16Ok 9) = (none, u) → exec (.pair frame) s = .next u) ∧
      (∀ f u, s.pickFrame frame (crc16Ok 9) = (some f, u) → let bs := beBytes f.toNat 9
        crc16 (bs.take 7) = ofBe (bs.drop 7) ∧ exec (.pair frame) s = .next (u.pairTake bs))) ∧
    (∀ bs : List Byte, bs.length = 9 → s.reg kRxHead < 64 → byteAt bs 0 / 64 = 1 → byteAt bs 0 % 64 = s.pairPeer → byteAt bs 1 % 64 = s.shelf →
        s.spine.pairSeq ≠ some (byteAt bs 2 % 16) → (s.reg kRxHead + 1) % 64 ≠ s.reg (fk 0x4000B01C 0) → let t := s.pairTake bs
        t.rdBytes (0x1200C200 + 8 * s.reg kRxHead) 4 = (bs.drop 3).take 4 ∧
        t.reg kRxHead = (s.reg kRxHead + 1) % 64 ∧ t.spine.pairSeq = some (byteAt bs 2 % 16) ∧ t.spine.pairDone = true) ∧
    (∀ (frame : Rx 88) f u, s.flag kPairEn = true → s.pairSender = true → s.spine.pairSent = true →
      s.pickFrame frame (crc16Ok 11) = (some f, u) → let bs := beBytes f.toNat 11
      byteAt bs 0 / 64 = 2 → byteAt bs 0 % 64 = s.pairPeer → byteAt bs 1 % 64 = s.shelf →
      byteAt bs 2 % 16 = byteAt s.pairOldest 4 % 16 → crc16 (bs.take 9) = ofBe (bs.drop 9) ∧ ∃ t, exec (.pairAck frame) s = .next t ∧
        t.spine.pairDone = true ∧ t.reg kTxTail = (if byteAt bs 2 / 16 = 0 then (s.reg kTxTail + 1) % 64 else s.reg kTxTail)) ∧
    (s.pairFrame = true → s.spine.pairDone = false → exec .pairMiss s = .next (s.setFlag (kProbeEvent 0) true)) ∧
    (∀ port, bit s.txPorts (ofBool port) = true → s.isUp 0 = true → s.flag kSpineEn = true → exec (.jabber port) s =
      .next ((s.setFlag (kSpineEvent (ofBool port)) true).setFlag (kSpineStat (5 + ofBool port)) true)) ∧
    (∀ port, bit s.rxPorts (ofBool port) = true → exec (.stuck port) s =
      .next ((s.setFlag (kSpineEvent (2 + ofBool port)) true).setFlag (kSpineStat (3 + ofBool port)) true)) ∧
    (∀ port, s.isUp 0 = true → exec (.edMaskTestEnd port true) s = .next (s.setFlag (kSpineStat (3 + ofBool port)) false)) ∧
    (∀ port, exec (.edMaskTestEnd port false) s = .next s)

/-! ### Contexts, tenants and the CC -/

/-- Contexts and tenants (R125, R127, R136, R145, R154, R155, R159, R166): interrupts and imprecise errors enter their
handlers, an imprecise error that is due first; events reach their context, a context is parked or spent, INIT waits in its shadow,
and a tenant's reset ends. The CYCLE of a parked context is free. -/
def Obligations.ContextsTenantsAndInterrupts : Prop :=
  ∀ s : State,
    (∀ n s1, s.takeInterrupt = some (n, s1) → n ≠ 17 → (s1.core 0).inTrap = true ∧ (s1.core 0).ie = false ∧
      (s1.core 0).pc = (s.core 0).vbase + 0x100#32 ∧ (s1.core 0).cause = BitVec.ofNat 32 (2 ^ 31 + n) ∧ bit s.irqShown n = true ∧
      (∀ k, k < n → bit s.irqShown k = false) ∧
      (s1.cynRuns = true → exec .ccInterrupt s = .next (match n with
        | 0 => s1.halyardIrq
        | 2 => s1.errIrq
        | 3 => s1.mailboxIrq
        | 9 => s1.takeChunk
        | 13 => s1.takeDatagrams
        | _ => s1))) ∧
    (∀ s1, s.takeInterrupt = some (17, s1) → (s.core 0).run = .wfe ∧ (s1.core 0).imp = none ∧ (s1.core 0).inTrap = true ∧
      (s1.core 0).pc = (s.core 0).vbase ∧ exec .ccInterrupt s = .next s1) ∧
    (s.takeInterrupt = none → exec .ccInterrupt s = .next s) ∧
    (∀ (core : Fin 5) sg off m, (s.core core).imp = some (sg, off, m) → m = (s.core core).tmode → (s.core core).run = .running →
      s.isUp (6 + core) = true → ∃ t, exec (.busErr core) s = .next t ∧ (t.core core).imp = none ∧ (t.core core).epc = (s.core core).pc ∧
        (t.core core).tval = BitVec.ofNat 32 off ∧ (t.core core).pc = (s.core core).vbase ∧ (t.core core).inTrap = true ∧
        (t.core core).cause = BitVec.ofNat 32 (0x0A + sg * 256 + 2048)) ∧
    (∀ src : Fin 6, (s.core 0).run = .running → bit (s.core 0).evmask src = true → exec (.evpend 64 src) s =
      .next (s.setCore 0 { s.core 0 with evpend := true, evsrc := setBit (s.core 0).evsrc src true })) ∧
    (∀ src : Fin 6, bit (s.core 0).evmask src = false → exec (.evpend 64 src) s = .next (s.setCore 0 (s.core 0))) ∧
    (∀ (core : Fin 4) n, (s.core (core + 1)).slot = some n → (s.core (core + 1)).run = .wfe → ∃ t, exec (.parked core) s = .next (s.settle t) ∧
      (t.slot n).state = 3 ∧ (t.core (core + 1)).slot = none) ∧
    (∀ (core : Fin 4) n, (s.core (core + 1)).slot = some n → (s.core (core + 1)).run ≠ .halted → ∃ t, exec (.ovrBudget core) s =
      .next (s.settle t) ∧ (t.slot n).state = 4 ∧ (t.slot n).cycleLast = s.slotBudget n % 2 ^ 32 ∧ (t.core (core + 1)).slot = none) ∧
    (∀ slot : Fin 64, let a := 0x40004100 + 0x10 * slot.val
      s.aon = true → s.isUp 5 = true → s.isUp 4 = true → s.last (fk a 0) ≤ 63 → s.last (fk a 8) ≤ 15 → s.last (fk a 12) ≤ 7 →
      s.last (fk a 15) ≤ 1 → ∃ t, exec (.init slot) s = .next t ∧ t.pendingVal (fk a 16) = some 1 ∧ t.regs = s.regs ∧ t.mem = s.mem ∧
        (∀ lo ∈ [0, 8, 12, 15], t.pendingVal (fk a lo) = some (s.last (fk a lo)))) ∧
    (∀ r, s.ten.reset = some r → r.edge = true → ∃ u, exec .tenResetComplete s = .next (s.settle u) ∧ u.ten.reset = none ∧
      u.reg (fk 0x40015304 0) = 0 ∧ u.ten.rpt = r.bytes (s.slotsOf r.tenant).length) ∧
    (∀ r, s.ten.reset = some r → r.edge = false → exec .tenResetComplete s = .next s) ∧
    (∀ (t : Fin 64) (v : Word), s.isUp 27 = true → exec (.doorbell t v) s =
      .next ((s.memWrite (0x11000000 + 0x200 * t.val) (leBytes v.toNat 4)).takeMailbox t))

/-! ### Cyntoux (R268–R291) -/

/-- Packets (R272–R278, Table 12-4): one with a bad magic, header CRC or fewer than 16 bytes is dropped and counted; then the
version, the length and the CRC decide; a duplicate is answered from what was kept; a refused one is replied to; an accepted
one is queued, or BUSY. Datagrams and console frames bring packets; a port holds a datagram while Cyntoux does not run. -/
def Obligations.PacketsAreJudgedInOrder : Prop :=
  (∀ (s0 : State) (src : CmdSrc) (q : List Byte), let s := s0.reef1Leave
    let head := 16 ≤ q.length ∧ byteAt q 0 = 0xEB ∧ crc16 (q.take 10) = leAt q 10 2
    let c := cmdOf src q
    let v := s.touchUdp src
    let n := leAt q 8 2
    (¬head → s0.packet src q = { s with cyn := { s.cyn with drop := s.cyn.drop + 1 } }) ∧
    (head → byteAt q 1 ≠ 1 → s0.packet src q = v.reject c 0x0100) ∧
    (head → byteAt q 1 = 1 → 1024 < n ∨ q.length ≠ 16 + n ∨ (c.onMailbox = true ∧ 224 < q.length) → s0.packet src q = v.reject c 0x0101) ∧
    (head → byteAt q 1 = 1 → n ≤ 1024 → q.length = 16 + n → c.onMailbox = false ∨ q.length ≤ 224 → crc32c (q.take (12 + n)) ≠ c.pcrc →
      s0.packet src q = v.reject c 0x0102) ∧
    (head → byteAt q 1 = 1 → n ≤ 1024 → q.length = 16 + n → c.onMailbox = false ∨ q.length ≤ 224 → crc32c (q.take (12 + n)) = c.pcrc →
      s0.packet src q = v.acceptCmd c)) ∧
  (∀ (s : State) (c : Cmd), let same := fun x : Kept => sameSrc x.src c.src && x.seq == c.seq && x.pcrc == c.pcrc
    (∀ x, s.cyn.kept.find? same = some x → (x.done = false → s.acceptCmd c = s) ∧
      (∀ r, x.done = true → x.reply = some r → s.acceptCmd c = s.send c.src c.seq r) ∧ (x.done = true → x.reply = none → s.acceptCmd c = s)) ∧
    (s.cyn.kept.find? same = none →
      (∀ st, s.refusal c = some st → s.acceptCmd c = s.send c.src c.seq (c.reply st [] [])) ∧
      (s.refusal c = none → 16 ≤ s.cyn.queue.length → s.acceptCmd c = s.send c.src c.seq (c.reply 0x0104 [] [])) ∧
      (s.refusal c = none → s.cyn.queue.length < 16 → ∃ v, s.acceptCmd c = { v with cyn := { v.cyn with queue := v.cyn.queue ++ [(s.admitCmd c).1] } } ∧
        v = (s.admitCmd c).2))) ∧
  (∀ (port : Bool) (f : List Byte) (s : State), let n := ofBool port
    let q := ipOf f
    s.sgmUp n = true → frameKept n f = true → s.isCommand n f = true →
      (s.cynRuns = true → s.serv.dgrams = [] → exec (.udpDatagram port f) s =
        .next (s.packet (.udp port (BitVec.ofNat 32 (beAt q 12 4)) (BitVec.ofNat 16 (beAt q 20 2)) (BitVec.ofNat 48 (beAt f 6 6)))
          ((q.drop 28).take (beAt q 24 2 - 8)))) ∧
      (s.cynRuns = false → exec (.udpDatagram port f) s =
        .next { s with serv := { s.serv with dgrams := s.serv.dgrams ++ [(n, f)] } })) ∧
  (∀ (port : Bool) (s : State) (f rest : List Nat), let n := ofBool port
    s.cynRuns = true → s.isUp 69 = true → s.consBuf n = f ++ 0xC0 :: rest → 0xC0 ∉ f → let v := s.setCons n rest
    (f = [] → exec (.consoleFrame port) s = .next v) ∧
    (f ≠ [] → slipDecode f = none → exec (.consoleFrame port) s = .next (v.count (kSlipErr n) 16 1)) ∧
    (∀ b, f ≠ [] → slipDecode f = some b → b.length ≤ 1040 → exec (.consoleFrame port) s = .next (v.packet (.console port) b)))

/-- The queue (R281–R283, R288, R398): the waiting command with the highest PRIO starts, among equals the oldest; the first
executing one that can go on does; one marked L whose hardware is busy has started and tries again; one of a tenant whose reset has
begun ends TENANT_RESETTING; CLEAT_ACQUIRE tries five times; a wake sequence without PSU_PG in time ends NOT_READY. -/
def Obligations.CommandsStartCompleteAndRetry : Prop :=
  ∀ s : State, s.cynRuns = true →
    (∀ c, s.nextCmd = some c → c ∈ s.cyn.queue ∧ ∀ d ∈ s.cyn.queue, d.prio < c.prio ∨ (d.prio = c.prio ∧ c.order ≤ d.order)) ∧
    (∀ c, s.nextCmd = some c → s.boot.accepting = true → s.cynOccupied = false →
      let v : State := { s with cyn := { s.cyn with queue := s.cyn.queue.erase c } }
      (opScoped c.op = true → s.resetting c.ten = true → exec .commandStart s = .next (v.finish c 0x0400 [] [])) ∧
      (opScoped c.op = false ∨ s.resetting c.ten = false → s.resourceHeld c = true → exec .commandStart s = .next (v.finish c 0x0104 [] [])) ∧
      (opScoped c.op = false ∨ s.resetting c.ten = false → s.resourceHeld c = false →
        (∀ st bs es t, v.run c = (.done st bs es, t) → exec .commandStart s = .next (t.finish c st bs es)) ∧
        (∀ w es t, v.run c = (.long w es, t) → exec .commandStart s = .next (t.addLong (c.withEntries es) w)) ∧
        (∀ t, v.run c = (.wait, t) → exec .commandStart s = .next (if c.isLong then v.addLong c .retry else s)))) ∧
    (∀ c w, (s.addLong c w).cyn.longs = s.cyn.longs ++ [(c, w)]) ∧
    (∀ c, s.stopped c = true → ∀ w, s.poll c w = (.done 0x0400 [] [], s)) ∧
    (∀ c, s.stopped c = false → s.poll c .retry = s.run c) ∧
    (s.cyn.queue = [] → exec .commandStart s = .next s) ∧
    (∀ c w rest, s.cyn.longs = (c, w) :: rest →
      (∀ st bs es t, s.poll c w = (.done st bs es, t) → exec .commandComplete s =
        .next (State.finish { t with cyn := { t.cyn with longs := rest } } c st bs es)) ∧
      (∀ w' es t, s.poll c w = (.long w' es, t) → exec .commandComplete s =
        .next { t with cyn := { t.cyn with longs := (c.withEntries es, w') :: rest } })) ∧
    (∀ c g cl tries cyc due, s.cyn.longs = [(c, .cleat g tries cyc due)] → 0 < due → s.isUp 48 = true → cl = s.cleat g →
      (cl.value = 0 → ∃ t : State, exec .cleatAcquireRetry s = .next (State.finish { t with cyn := { t.cyn with longs := [] } } c 0 (leBytes 0 4) []) ∧
        (t.cleat g).value = s.token 64) ∧
      (freeValue cl.value = false → tries < 4 → exec .cleatAcquireRetry s =
        .next { s with cyn := { s.cyn with longs := [(c, .cleat g (tries + 1) cyc (due - 1))] } }) ∧
      (freeValue cl.value = false → 4 ≤ tries → exec .cleatAcquireRetry s = .next (State.finish { s with cyn := { s.cyn with longs := [] } } c
        (if cyc < s.reg kCycles then 0x0600 else 0x0104) (leBytes cl.value 4) []))) ∧
    (∀ n, s.serv.pgWait = some n → s.reg (fk 0x40012104 0) ≤ n → ∃ t, exec .pgTimeout s = .next t ∧ t.serv.pgWait = none ∧
      t.cyn.seq = none ∧ t.flag kWakeSeq = false)

/-- Rows 6 to 13 of Table 12-4: an opcode that the rows refuse is answered with the first status that applies and changes
nothing else; the order of the rows. -/
def Obligations.OpcodesAreRefusedInRowOrder : Prop :=
  (∀ (c : CmdIn) (s : State), s.cynRuns = true → ∀ e ∈ ([(.nop, 0x0000), (.ident, 0x0001), (.cfgSet, 0x0002), (.cfgGet, 0x0003), (.regRead, 0x0004), (.rptRead, 0x0005),
      (.rptClear, 0x0006), (.warmReset, 0x0007), (.powerStat, 0x1000), (.reefReq, 0x1001), (.shelfWake, 0x1002),
      (.shelfSleep, 0x1003), (.powerSet, 0x1004), (.bayStat, 0x2000), (.baySet, 0x2001), (.gangStart, 0x2002),
      (.gangStop, 0x2003), (.bayRestart, 0x2004), (.serSend, 0x2005), (.serRecv, 0x2006), (.catLookup, 0x3000),
      (.catPut, 0x3001), (.catDelete, 0x3002), (.catRead, 0x3003), (.catWrite, 0x3004), (.catRegion, 0x3005),
      (.tenStat, 0x4000), (.tenSeg, 0x4001), (.tenActivate, 0x4002), (.tenReset, 0x4003), (.tenLoad, 0x4004),
      (.slotStat, 0x4005), (.cleatRead, 0x5000), (.cleatWrite, 0x5001), (.cleatAcquire, 0x5002), (.arbSet, 0x5003),
      (.gaugeRead, 0x6000), (.harvSet, 0x6001), (.timeGet, 0x7000), (.timeSet, 0x7001), (.alarmSet, 0x7002), (.adcSet, 0x8000),
      (.adcTable, 0x8001), (.adcRingRead, 0x8002), (.sfuTableLoad, 0x9000), (.sfuTableCrc, 0x9001), (.sfuRun, 0x9002),
      (.norRead, 0xA000), (.norErase, 0xA001), (.norProgram, 0xA002), (.imageActivate, 0xA003), (.keyLoad, 0xB000),
      (.keyClear, 0xB001), (.attest, 0xB002), (.attestKey, 0xB003), (.unlockChallenge, 0xB004), (.unlockResponse, 0xB005),
      (.errRead, 0xE000), (.errPop, 0xE001), (.errStat, 0xE002)] : List ((CmdIn → Instr) × Nat)),
    ∀ st, s.refusal (cmdOfIn c e.2) = some st → exec (e.1 c) s = .next (s.send c.src c.seq.toNat ((cmdOfIn c e.2).reply st [] []))) ∧
  (∀ (s : State) (c : Cmd) (i : OpInfo),
    (s.boot.accepting = false → s.refusal c = some 0x0104) ∧
    (s.boot.accepting = true → c.op / 4096 = 0xF → s.refusal c = some (if s.debugLocked then 0x0103 else 0x0100)) ∧
    (s.boot.accepting = true → c.op / 4096 ≠ 0xF → opInfo c.op = none → s.refusal c = some 0x0100) ∧
    (s.boot.accepting = true → c.op / 4096 ≠ 0xF → opInfo c.op = some i →
      (c.permitted i = false → s.refusal c = some 0x0103) ∧
      (c.permitted i = true → opLenOk c.op c.params = false → s.refusal c = some 0x0101) ∧
      (c.permitted i = true → opLenOk c.op c.params = true → opScoped c.op = true → s.resetting c.ten = true → s.refusal c = some 0x0400) ∧
      (c.permitted i = true → opLenOk c.op c.params = true → s.resetting c.ten = false → c.op ∈ [0x3000, 0x3001, 0x3002] →
        s.reg (fk (0x40008100 + 8 * c.ten) 0) = 0 → s.refusal c = some 0x0401) ∧
      (c.permitted i = true → opLenOk c.op c.params = true → s.resetting c.ten = false → s.reg (fk (0x40008100 + 8 * c.ten) 0) ≠ 0 →
        s.allow < c.min i → s.refusal c = some 0x0500) ∧
      (c.permitted i = true → opLenOk c.op c.params = true → s.resetting c.ten = false → s.reg (fk (0x40008100 + 8 * c.ten) 0) ≠ 0 →
        c.min i ≤ s.allow → s.refusal c = if s.resourceHeld c then some 0x0104 else none)))

/-- Table 12-5, the commands that are field lists (R284): where no pair is refused and no catalog regions come to overlap, the
pairs are applied in order and the command ends OK with the entries they made; the first refused pair decides otherwise, and
nothing changes. A list that would assert PSU_EN below allowance 6 is refused as a whole (log entry 150). -/
def Obligations.FieldListCommandsApplyTheirPairs : Prop :=
  ∀ (c : CmdIn) (s : State), s.cynRuns = true → s.cynOccupied = false →
    ∀ e ∈ ([(.cfgSet, 0x0002, fun _ _ => true), (.powerSet, 0x1004, inBlocks [0x00, 0x11, 0x02]), (.baySet, 0x2001, inBlocks [0x17, 0x18]),
      (.catRegion, 0x3005, fun b o => b == 8 && (o == 0x100 + 8 * (c.tenant.toNat % 64) || o == 0x104 + 8 * (c.tenant.toNat % 64))),
      (.arbSet, 0x5003, inBlocks [0x05, 0x06]), (.harvSet, 0x6001, inBlocks [0x01]),
      (.alarmSet, 0x7002, fun b o => b == 3 && decide (0x020 ≤ o ∧ o < 0x040)), (.adcSet, 0x8000, inBlocks [0x10])] :
        List ((CmdIn → Instr) × Nat × (Nat → Nat → Bool))),
    let k := (s.admitCmd (cmdOfIn c e.2.1)).1
    let u := (s.admitCmd (cmdOfIn c e.2.1)).2
    let ps := fieldPairs k.params
    s.refusal (cmdOfIn c e.2.1) = none → s.cyn.queue.length < 16 →
    (e.2.1 = 0x2001 → ∀ q ∈ ps, inBlocks [0x17, 0x18] (q.1 / 1024) 0 = true → (bayOfId q.1).elim false u.bayLocked = false) →
    (u.psuBarred ps = true → exec (e.1 c) s = .next (u.finish k 0x0500 [] [])) ∧
    (u.psuBarred ps = false → (∀ q ∈ ps, u.pairRefusal e.2.2 q.1 = none) → u.overlapAt ps = none → ∃ t, exec (e.1 c) s = .next (t.finish k 0 [] (u.applyFields ps).1) ∧
      ((∀ q ∈ ps, q.1 / 1024 ≠ 8) → t = (u.applyFields ps).2)) ∧
    (∀ i q st, u.psuBarred ps = false → ps[i]? = some q → u.pairRefusal e.2.2 q.1 = some st → (∀ j r, j < i → ps[j]? = some r → u.pairRefusal e.2.2 r.1 = none) →
      exec (e.1 c) s = .next (u.finish k st (leBytes i 2) []))

/-- Table 12-5, classes 0x0 to 0x2 (R282, R284, R290, R294): each accepted command ends with its result, or waits for what it
has started. A command on a LOCKED bay is answered BAY_LOCKED and changes nothing. -/
def Obligations.GeneralPowerAndBayCommands : Prop :=
  ∀ (c : CmdIn) (s : State), s.cynRuns = true → s.cynOccupied = false →
    let k := fun op => (s.admitCmd (cmdOfIn c op)).1
    let u := fun op => (s.admitCmd (cmdOfIn c op)).2
    let p := fun op i n => (k op).par i n
    let ready := fun op => s.refusal (cmdOfIn c op) = none ∧ s.cyn.queue.length < 16
    let ends := fun (o : Out) (op st : Nat) (bs : List Byte) (es : List Nat) (t : State) => ready op → o = .next (t.finish (k op) st bs es)
    let waits := fun (o : Out) (op : Nat) (w : CmdWait) (t : State) => ready op →
      o = .next { t with cyn := { t.cyn with longs := t.cyn.longs ++ [(k op, w)] } }
    ends (exec (.nop c) s) 0x0000 0 [] [] (u 0) ∧
    ends (exec (.ident c) s) 0x0001 0 (u32s [(u 1).wordView 0x40000FF0, Config.serial.toNat % 2 ^ 32, Config.serial.toNat / 2 ^ 32,
      (u 1).boot.version]) [] (u 1) ∧
    (c.params.length = 2 → (u 3).blockOn (p 3 0 2 / 1024) = true →
      ends (exec (.cfgGet c) s) 0x0003 0 (leBytes ((u 3).readField (p 3 0 2)).1 4) [] ((u 3).readField (p 3 0 2)).2) ∧
    (p 4 4 2 = 1 → (u 4).addrOn (p 4 0 4 / 4 * 4) = true → ends (exec (.regRead c) s) 0x0004 0
      (leBytes ((u 4).busRead 0 (p 4 0 4 / 4 * 4)).1 4) [] ((u 4).busRead 0 (p 4 0 4 / 4 * 4)).2) ∧
    (let g := (u 5).gring
     let n := min g.valid (((k 5).room - 4) / 4)
     ends (exec (.rptRead c) s) 0x0005 0 ([BitVec.ofNat 8 n, 0#8] ++ leBytes g.lost 2 ++ (List.range n).flatMap (fun i =>
       leBytes (Tab.get (fun _ => 0) g.slots ((g.next + 64 - g.valid + i) % 64)) 4)) [] (u 5)) ∧
    ends (exec (.rptClear c) s) 0x0006 0 [] [] ((u 6).regCommand 0x40000DF8 (2 ^ 31)) ∧
    (∃ tag, ends (exec (.warmReset c) s) 0x0007 0 [] [] { u 7 with cyn := { (u 7).cyn with warm := some (p 7 0 1, tag) } }) ∧
    (let r := (u 0x1000).busWords [0x40000040, 0x40000030, 0x40000034, 0x40000038, 0x40000044, 0x40000048]
     ends (exec (.powerStat c) s) 0x1000 0 r.1 [] r.2) ∧
    (p 0x1001 0 1 < 2 → let r := (u 0x1001).writeField 5 (p 0x1001 0 1)
      ends (exec (.reefReq c) s) 0x1001 0 (leBytes (r.2.reg kRefuse) 1) r.1 r.2) ∧
    (2 ≤ p 0x1001 0 1 → p 0x1001 0 1 ≤ 4 → (u 0x1001).cat.wb = [] → (u 0x1001).cat.mapDue = [] →
      let r := ((u 0x1001).writeSnapshot (p 0x1001 0 1)).writeField 5 (p 0x1001 0 1)
      ends (exec (.reefReq c) s) 0x1001 0 (leBytes (r.2.reg kRefuse) 1) r.1 r.2) ∧
    ((u 0x1002).flag kSleepSeq = false → waits (exec (.shelfWake c) s) 0x1002 (.shelf true) ((u 0x1002).regCommand 0x4000B004 0x100)) ∧
    ((u 0x1002).flag kSleepSeq = true → ends (exec (.shelfWake c) s) 0x1002 0x0104 [] [] (u 0x1002)) ∧
    ((u 0x1003).flag kWakeSeq = false → waits (exec (.shelfSleep c) s) 0x1003 (.shelf false) ((u 0x1003).regCommand 0x4000B004 0x200)) ∧
    ((u 0x1003).flag kWakeSeq = true → ends (exec (.shelfSleep c) s) 0x1003 0x0104 [] [] (u 0x1003)) ∧
    (let f := p 0x2000 0 1
     let n := p 0x2000 1 1
     f ≤ 127 → 1 ≤ n → f + n ≤ 128 → n ≤ 64 → 8 * n ≤ (k 0x2000).room → (∀ i, i < n → (u 0x2000).bayAnswers (f + i) = true) →
     ends (exec (.bayStat c) s) 0x2000 0 (((List.range n).map (· + f)).flatMap (u 0x2000).bayBytes) [] (u 0x2000)) ∧
    ((u 0x2002).regOn 0x40028040 = true → let locked := (gangsOf (p 0x2002 0 1)).any (fun g => ((u 0x2002).gangChannels g).any (u 0x2002).bayLocked)
      (locked = true → ends (exec (.gangStart c) s) 0x2002 0x0700 [] [] (u 0x2002)) ∧
      (locked = false → waits (exec (.gangStart c) s) 0x2002 (.gangs (p 0x2002 0 1)) ((u 0x2002).regCommand 0x40028040 (p 0x2002 0 1)))) ∧
    ((u 0x2003).regOn 0x40028040 = true → let locked := (gangsOf (p 0x2003 0 1)).any (fun g => ((u 0x2003).gangChannels g).any (u 0x2003).bayLocked)
      (locked = true → ends (exec (.gangStop c) s) 0x2003 0x0700 [] [] (u 0x2003)) ∧
      (locked = false → ends (exec (.gangStop c) s) 0x2003 0 [] [] ((u 0x2003).regCommand 0x40028040 (p 0x2003 0 1 * 256)))) ∧
    (p 0x2004 0 1 ≤ 127 → (u 0x2004).bayAnswers (p 0x2004 0 1) = true → ends (exec (.bayRestart c) s) 0x2004 0 [] []
      ((u 0x2004).regCommand (0x40020008 + 0x100 * p 0x2004 0 1) 4)) ∧
    (let n := p 0x2005 0 1
     n ≤ 127 → (u 0x2005).bayAnswers n = true →
     ((u 0x2005).bayLocked n = true → ends (exec (.serSend c) s) 0x2005 0x0700 [] [] (u 0x2005)) ∧
     (∀ b : Byte, (u 0x2005).bayLocked n = false → (k 0x2005).params.drop 1 = [b] → ((u 0x2005).port n).tx.length < 16 →
       ends (exec (.serSend c) s) 0x2005 0 (leBytes 1 2) [] ((u 0x2005).regCommand (0x40030014 + 0x100 * n) b.toNat)) ∧
     (∀ b : Byte, (u 0x2005).bayLocked n = false → (k 0x2005).params.drop 1 = [b] → 16 ≤ ((u 0x2005).port n).tx.length →
       ends (exec (.serSend c) s) 0x2005 0 (leBytes 0 2) [] (u 0x2005))) ∧
    (let n := p 0x2006 0 1
     let m := p 0x2006 2 2
     n ≤ 127 → 1 ≤ m → m ≤ (k 0x2006).room → (u 0x2006).bayAnswers n = true →
     ((u 0x2006).bayLocked n = true → ends (exec (.serRecv c) s) 0x2006 0x0700 [] [] (u 0x2006)) ∧
     ((u 0x2006).bayLocked n = false → (u 0x2006).reg (kBayu n 4 0) = 0 →
       ends (exec (.serRecv c) s) 0x2006 0 ((u 0x2006).takeRx n m).1 [] ((u 0x2006).takeRx n m).2))

/-- Table 12-5, classes 0x3 to 0x7 (R286–R288, R54, R104): each accepted command ends with its result or refusal, or waits for
what it has started; a catalog lookup follows the lookup rule. -/
def Obligations.CatalogTenantAndTimeCommands : Prop :=
  ∀ (c : CmdIn) (s : State), s.cynRuns = true → s.cynOccupied = false →
    let k := fun op => (s.admitCmd (cmdOfIn c op)).1
    let u := fun op => (s.admitCmd (cmdOfIn c op)).2
    let p := fun op i n => (k op).par i n
    let ready := fun op => s.refusal (cmdOfIn c op) = none ∧ s.cyn.queue.length < 16
    let ends := fun (o : Out) (op st : Nat) (bs : List Byte) (es : List Nat) (t : State) => ready op → o = .next (t.finish (k op) st bs es)
    let waits := fun (o : Out) (op : Nat) (w : CmdWait) (t : State) => ready op →
      o = .next { t with cyn := { t.cyn with longs := t.cyn.longs ++ [(k op, w)] } }
    let goes := fun (o : Out) (op : Nat) (a : Ans) => ready op → (∀ st bs es t, a = (.done st bs es, t) → o = .next (t.finish (k op) st bs es)) ∧
      (∀ w es t, a = (.long w es, t) → o = .next { t with cyn := { t.cyn with longs := t.cyn.longs ++ [((k op).withEntries es, w)] } })
    (∀ offs es t, (u 0x3000).readBuckets (k 0x3000).ten (p 0x3000 0 6) = (.entries offs es, t) →
      (∀ e, lookRule (p 0x3000 0 6) es = .hit e → ends (exec (.catLookup c) s) 0x3000 0 (leBytes e 16) [] t) ∧
      (lookRule (p 0x3000 0 6) es = .miss → ends (exec (.catLookup c) s) 0x3000 0x0302 [] [] t) ∧
      (lookRule (p 0x3000 0 6) es = .poisoned → ends (exec (.catLookup c) s) 0x3000 0x0300 [] [] t) ∧
      (∀ e, lookRule (p 0x3000 0 6) es = .deferred (some e) → ends (exec (.catLookup c) s) 0x3000 0x0301 (leBytes e 16) [] t)) ∧
    (let e := ofLe ((k 0x3001).params.take 16)
     ∀ offs es t i, (u 0x3001).readBuckets (k 0x3001).ten (bits e 0 48) = (.entries offs es, t) → holderOf (bits e 0 48) es = some i →
      goes (exec (.catPut c) s) 0x3001 ((t.catTag (k 0x3001)).catPost (entryWrite offs es i e))) ∧
    (∀ offs es t, (u 0x3002).readBuckets (k 0x3002).ten (p 0x3002 0 6) = (.entries offs es, t) →
      (∀ i, holderOf (p 0x3002 0 6) es = some i → goes (exec (.catDelete c) s) 0x3002
        ((t.catTag (k 0x3002)).catPost [(offs.getD i 0, leBytes (setBits (es.getD i (0, false)).1 55 4 4) 8)])) ∧
      (holderOf (p 0x3002 0 6) es = none → t.overflowOf (k 0x3002).ten (p 0x3002 0 6) = none →
        ends (exec (.catDelete c) s) 0x3002 0x0302 [] [] t)) ∧
    (p 0x3003 4 2 = 8 → p 0x3003 0 4 % 8 = 0 → (u 0x3003).catRegionOk (k 0x3003).ten (p 0x3003 0 4) 8 = true → ∀ w t, w.length = 8 →
      (u 0x3003).catRead ((u 0x3003).coreReq 0) (p 0x3003 0 4) = (.data w, t) → ends (exec (.catRead c) s) 0x3003 0 w [] t) ∧
    (p 0x3003 4 2 = 8 → (u 0x3003).catRegionOk (k 0x3003).ten (p 0x3003 0 4) 8 = false → ends (exec (.catRead c) s) 0x3003 0x0103 [] [] (u 0x3003)) ∧
    (let d := (k 0x3004).params.drop 4
     ((u 0x3004).catRegionOk (k 0x3004).ten (p 0x3004 0 4) d.length = false → ends (exec (.catWrite c) s) 0x3004 0x0103 [] [] (u 0x3004)) ∧
     ((u 0x3004).catRegionOk (k 0x3004).ten (p 0x3004 0 4) d.length = true → goes (exec (.catWrite c) s) 0x3004
       (((u 0x3004).catTag (k 0x3004)).catPost (catPieces 66 (p 0x3004 0 4) d)))) ∧
    (∀ (v : State) o bs rest, (∀ a t, v.wbAccept .cc o bs (v.ccTag o) = (a, t) → (a = .accepted → v.catPost ((o, bs) :: rest) = t.catPost rest) ∧
      (a = .full → v.catPost ((o, bs) :: rest) = (.long (.catalog ((o, bs) :: rest)) [], t)))) ∧
    ends (exec (.tenStat c) s) 0x4000 0 (leBytes ((u 0x4000).wordView (0x40015200 + 4 * (k 0x4000).ten)) 4) [] (u 0x4000) ∧
    (let n := p 0x4001 0 1
     let a := (u 0x4001).descAddr (k 0x4001).ten n
     let d := ((k 0x4001).params.drop 4).take 16
     n ≤ 7 → (u 0x4001).sparOk a = true →
     ((u 0x4001).segRefused (k 0x4001).ten n (segOf d) = true → ends (exec (.tenSeg c) s) 0x4001 0x0103 [] [] (u 0x4001)) ∧
     ((u 0x4001).segRefused (k 0x4001).ten n (segOf d) = false → ends (exec (.tenSeg c) s) 0x4001 0 [] [] ((u 0x4001).ncWriteN a d))) ∧
    (let r := (u 0x4002).applyFields [(0x5410 + 4 * (k 0x4002).ten, p 0x4002 0 1), (0x5411 + 4 * (k 0x4002).ten, p 0x4002 1 1)]
     ends (exec (.tenActivate c) s) 0x4002 0 [] r.1 r.2) ∧
    ((u 0x4003).ten.reset = none → waits (exec (.tenReset c) s) 0x4003 (.tenReset (k 0x4003).ten)
      ((u 0x4003).settle ((u 0x4003).resetStart (k 0x4003).ten 1))) ∧
    ((u 0x4003).ten.reset.isSome = true → ends (exec (.tenReset c) s) 0x4003 0x0104 [] [] ((u 0x4003).setFlag (fk 0x40015304 16) true)) ∧
    (let g := (u 0x4004).descOf (k 0x4004).ten 0
     let d := (k 0x4004).params.drop 4
     let a := g.base + p 0x4004 0 4
     g.typ ≠ 0 → p 0x4004 0 4 + d.length ≤ g.limit + 1 → d ≠ [] →
     ((u 0x4004).tenState (k 0x4004).ten ≠ 0 → ends (exec (.tenLoad c) s) 0x4004 0x0104 [] [] (u 0x4004)) ∧
     ((u 0x4004).tenState (k 0x4004).ten = 0 → (u 0x4004).regionOn (regionOf a) = true → (u 0x4004).regionOn (regionOf (a + d.length - 1)) = true →
       ends (exec (.tenLoad c) s) 0x4004 0 [] [] ((u 0x4004).ncWriteN a d))) ∧
    (p 0x4005 0 1 ≤ 63 → p 0x4005 1 1 = 1 → ends (exec (.slotStat c) s) 0x4005 0 (u32s [(u 0x4005).wordView (0x40004108 + 0x10 * p 0x4005 0 1),
      (u 0x4005).wordView (0x4000410C + 0x10 * p 0x4005 0 1)]) [] (u 0x4005)) ∧
    (∀ t, (u 0x5000).isUp 48 = true → mailboxOf c.src = some t → (u 0x5000).rights (p 0x5000 0 1 / 16) t = false →
      ends (exec (.cleatRead c) s) 0x5000 0x0103 [] [] (u 0x5000)) ∧
    ((u 0x5000).isUp 48 = true → (∀ t, mailboxOf c.src = some t → (u 0x5000).rights (p 0x5000 0 1 / 16) t = true) →
      let x := (u 0x5000).cleat (p 0x5000 0 1)
      ends (exec (.cleatRead c) s) 0x5000 0 (u32s [x.value, x.lease, (u 0x5000).cleatInfo (p 0x5000 0 1)]) [] (u 0x5000)) ∧
    ((u 0x5001).isUp 48 = true → ends (exec (.cleatWrite c) s) 0x5001 0 [] []
      ((u 0x5001).cleatStore (p 0x5001 0 1) 0 64 (p 0x5001 4 4) false).2) ∧
    ((u 0x5002).isUp 48 = true → let x := (u 0x5002).cleat (p 0x5002 0 1)
      (freeValue x.value = false → waits (exec (.cleatAcquire c) s) 0x5002 (.cleat (p 0x5002 0 1) 1 ((u 0x5002).reg kCycles) 0) (u 0x5002)) ∧
      (x.value = 0 → ends (exec (.cleatAcquire c) s) 0x5002 0 (leBytes 0 4) []
        ((u 0x5002).cleatSwap (p 0x5002 0 1) 0 64 0 ((u 0x5002).token 64) false).2)) ∧
    (let v := u 0x6000
     ends (exec (.gaugeRead c) s) 0x6000 0 (u32s [v.reg kEnergy, v.reg (fk 0x40001084 0), v.reg (fk 0x40001088 0)] ++ leBytes (v.reg kVstore) 2 ++
       leBytes (v.reg kStamp) 2 ++ [BitVec.ofNat 8 v.allow, 0#8, 0#8, 0#8]) [] v) ∧
    (let r := ((u 0x7000).regCommand 0x40003000 2).busWords [0x40003010, 0x40003014, 0x40003018, 0x40003040]
     ends (exec (.timeGet c) s) 0x7000 0 r.1 [] r.2) ∧
    (let r := (u 0x7001).writeWords [(0x40003004, p 0x7001 0 4), (0x40003008, p 0x7001 4 4)]
     ends (exec (.timeSet c) s) 0x7001 0 [] r.1 (r.2.regCommand 0x40003000 1))

/-- Table 12-5, classes 0x8 to 0xE (R289, R330, R335, R347, R360, R374, R378, R383, R401): each accepted command ends with its
result, or waits for what it has started. Signatures, random bytes and keys are the free values of log entry 33. -/
def Obligations.AdcSfuNorSecurityAndErrorCommands : Prop :=
  ∀ (c : CmdIn) (s : State), s.cynRuns = true → s.cynOccupied = false →
    let k := fun op => (s.admitCmd (cmdOfIn c op)).1
    let u := fun op => (s.admitCmd (cmdOfIn c op)).2
    let p := fun op i n => (k op).par i n
    let ready := fun op => s.refusal (cmdOfIn c op) = none ∧ s.cyn.queue.length < 16
    let ends := fun (o : Out) (op st : Nat) (bs : List Byte) (es : List Nat) (t : State) => ready op → o = .next (t.finish (k op) st bs es)
    let waits := fun (o : Out) (op : Nat) (w : CmdWait) (t : State) => ready op →
      o = .next { t with cyn := { t.cyn with longs := t.cyn.longs ++ [(k op, w)] } }
    (let cv := p 0x8001 0 1
     let e := p 0x8001 1 1
     cv ≤ 3 → e ≤ 63 → p 0x8001 2 1 = 1 → (u 0x8001).regOn (seqAddr cv 0) = true →
     let r := (u 0x8001).writeWords [(seqAddr cv e + 4, p 0x8001 8 4), (seqAddr cv e, p 0x8001 4 4)]
     ends (exec (.adcTable c) s) 0x8001 0 [] r.1 r.2) ∧
    (let a := 0x40010100 + 0x10 * p 0x8002 0 1
     let v := u 0x8002
     p 0x8002 0 1 ≤ 3 → p 0x8002 2 2 = 4 → v.regOn a = true → (v.reg (fk (a + 0xC) 0) + 65536 - v.reg (fk (a + 8) 0)) % 65536 = 1 →
     let w := v.ncReadN (v.reg (fk a 6) * 64 + 4 * (v.reg (fk (a + 8) 0) % 2 ^ v.reg (fk (a + 4) 0))) 4
     ends (exec (.adcRingRead c) s) 0x8002 0 w.1 [] ((w.2.holdAdc (ofLe w.1)).regCommand (a + 8) ((v.reg (fk (a + 8) 0) + 1) % 65536))) ∧
    (let b := p 0x9000 0 1
     let a := 0x60000000 + 0x1000 * b + p 0x9000 2 2
     8 ≤ b → b ≤ 15 → (k 0x9000).params.length = 8 → (u 0x9000).isUp 46 = true → tableWritable a = true → tableSlot a = b →
     ((u 0x9000).slotUsed b = false → (∀ w ∈ (u 0x9000).tabWait, tableSlot w.1 ≠ b) → ends (exec (.sfuTableLoad c) s) 0x9000 0 [] []
       ((u 0x9000).wrBytes a (leBytes (p 0x9000 4 4) 4))) ∧
     ((u 0x9000).slotUsed b = true → waits (exec (.sfuTableLoad c) s) 0x9000 (.table b)
       { u 0x9000 with tabWait := (u 0x9000).tabWait ++ [(a, p 0x9000 4 4)] })) ∧
    (p 0x9001 0 1 ≤ 15 → (u 0x9001).isUp 46 = true → let b := (u 0x9001).tableBytes (0x60000000 + 0x1000 * p 0x9001 0 1) 3088
      ends (exec (.sfuTableCrc c) s) 0x9001 0 (leBytes (if p 0x9001 0 1 < 8 ∧ (u 0x9001).reg (fk 0x4000F000 0) = 1
        then stdCrc (p 0x9001 0 1) else crc32c b.1) 4) [] b.2) ∧
    ((u 0x9002).isUp 46 = true → let r := (u 0x9002).sfuOffer 0 ((k 0x9002).params.take 32) ((u 0x9002).core 0).mset 0 64 false
      (bit r.1 31 = true → waits (exec (.sfuRun c) s) 0x9002 (.sfu (r.1 % 65536)) r.2) ∧
      (bit r.1 31 = false → bit r.1 30 = true → ends (exec (.sfuRun c) s) 0x9002 0x0500 [] [] r.2) ∧
      (bit r.1 31 = false → bit r.1 30 = false → waits (exec (.sfuRun c) s) 0x9002 .retry (u 0x9002))) ∧
    (let n := p 0xA000 4 2
     1 ≤ n → n ≤ (k 0xA000).room → (u 0xA000).isUp 44 = true → (u 0xA000).norOp.state = 0 → p 0xA000 0 4 + n ≤ 0x800000 →
     ends (exec (.norRead c) s) 0xA000 0 ((u 0xA000).rdBytes (0x01000000 + p 0xA000 0 4) n) [] (u 0xA000)) ∧
    (let off := p 0xA001 0 4
     let v := u 0xA001
     v.isUp 44 = true → v.norOp.state = 0 →
     (p 0xA001 4 1 = 0 → 0x10000 ≤ off / 4096 * 4096 → off / 4096 * 4096 + 4096 ≤ 0x630000 →
       waits (exec (.norErase c) s) 0xA001 (.nor false) (v.norIssue 1 off [] false)) ∧
     (p 0xA001 4 1 = 1 → 0x10000 ≤ off / 65536 * 65536 → off / 65536 * 65536 + 65536 ≤ 0x630000 →
       waits (exec (.norErase c) s) 0xA001 (.nor false) (v.norIssue 2 off [] false)) ∧
     (p 0xA001 4 1 = 0 → off < 0x10000 → ends (exec (.norErase c) s) 0xA001 0x0103 [] [] v)) ∧
    (let off := p 0xA002 0 4
     let d := (k 0xA002).params.drop 6
     off % 256 + d.length ≤ 256 → (u 0xA002).isUp 44 = true → (u 0xA002).norOp.state = 0 → 0x10000 ≤ off → off + d.length ≤ 0x630000 →
     waits (exec (.norProgram c) s) 0xA002 (.nor true) ((u 0xA002).norIssue 3 off d (bit (p 0xA002 4 1) 0))) ∧
    (let b := p 0xA003 0 1
     let v := u 0xA003
     b ≤ 1 → v.isUp 44 = true → v.norOp.state = 0 → (v.imageOk b = false → ends (exec (.imageActivate c) s) 0xA003 0x0202 [] [] v) ∧
     (v.imageOk b = true → let r := v.newRecord b
       waits (exec (.imageActivate c) s) 0xA003 (.image r.1 0 r.2) (v.norIssue 1 (0x1000 * r.1) [] false))) ∧
    (∀ op, (u op).isUp 49 = true → (u op).placeFree 18 1 = true → (u op).arbFrozen 18 = false →
      (op = 0xB000 → ∀ w, (u op).useArb 18 cryptReq = some w → let r := w.cryptDo 1 (k op).ten ((k op).params.take 72)
        ends (exec (.keyLoad c) s) op (if r.1 = 0 then 0 else 0x0201) [] [] r.2) ∧
      (op = 0xB001 → ends (exec (.keyClear c) s) op 0 [] [] ((u op).cryptDo 2 (k op).ten []).2) ∧
      (op = 0xB002 → let body := leBytes ((u op).wordView 0x40000FF0) 4 ++ leBytes Config.serial.toNat 8 ++ leBytes (u op).frameNum 4 ++
          (u op).boot.digest ++ (k op).params.take 32
        ∃ sig t, ends (exec (.attest c) s) op 0 (body ++ sig) [] t) ∧
      (op = 0xB003 → let r := ((u op).cryptDo 8 0 []).2
        ends (exec (.attestKey c) s) op 0 (r.crypt.buf.take 64) [] r) ∧
      (op = 0xB004 → ∃ ch t, ends (exec (.unlockChallenge c) s) op 0 ch [] t ∧ t.serv.challenge = some ch) ∧
      (op = 0xB005 → (u op).serv.challenge = none → ends (exec (.unlockResponse c) s) op 0x0201 [] []
        { u op with serv := { (u op).serv with challenge := none } }) ∧
      (op = 0xB005 → ∀ ch, (u op).serv.challenge = some ch → (u op).serv.unlockFails < 3 → ∃ st t, ends (exec (.unlockResponse c) s) op st [] [] t ∧
        t.serv.challenge = none ∧ (st = 0 → t.serv.unlocked = true) ∧ (st ≠ 0 → st = 0x0201 ∧ t.serv.unlockFails = (u op).serv.unlockFails + 1))) ∧
    (let n := p 0xE000 0 1
     1 ≤ n → n ≤ 16 → 32 * n ≤ (k 0xE000).room → ends (exec (.errRead c) s) 0xE000 0
       ((List.range (min n (u 0xE000).err.count)).flatMap (fun i => ((u 0xE000).err.recAt i).bytes)) [] (u 0xE000)) ∧
    (let n := p 0xE001 0 1
     1 ≤ n → n ≤ 32 → let t := (u 0xE001).regCommand 0x40014010 n
     ends (exec (.errPop c) s) 0xE001 0 (leBytes t.err.popped 1) [] t) ∧
    ends (exec (.errStat c) s) 0xE002 0 (u32s [(u 0xE002).wordView 0x40014004, (u 0xE002).wordView 0x40014008]) [] (u 0xE002)

/-! ### Every command completes somewhere -/

/-- That every event and command of power, levels, clocks, the frame, the hub, the catalog, DMA, CRYPT, ARB, LOCK and the contexts
completes, under conditions on the state and its operands alone: those under which its rule lets it happen (the unit released or
powered, the request in hand, the place free, the arbiter granting), and with the effect the rule gives it (R38–R52, R58–R72,
R79–R97, R127, R145–R166, R176–R198, R202–R209, R211–R231). Each clause names one command. -/
def Obligations.EventsOfPowerClocksAndMemoriesComplete : Prop :=
  ∀ s : State,
    -- power
    (∀ v h d n, s.aon = true → s.cat.hold15 = false → s.domSt 4 ≠ .off → 3 ≤ (s.publish v h d n).reg kAllow →
      exec (.gaugeUpdate v h d n) s = .next (s.publish v h d n).startSample) ∧
    (∀ input uv, s.aon = true → s.harv.sampling = some input → ∃ t, exec (.mpptSampleEnd input uv) s = .next t ∧
      t.harv.sampling = none ∧ t.reg (kVoc input) = vocOf input uv) ∧
    (s.aon = true → s.harv.st = .harvest → exec .loadCut s = .next { s with harv := { s.harv with cutDecided := true } }) ∧
    (s.harv.cutDecided = true → s.harv.st = .harvest → s.cat.wb = [] → s.cat.mapDue = [] → ∃ t, exec .loadSwitchOpen s = .next t ∧
      t.aon = false ∧ ∀ d, t.domSt d = .off) ∧
    (s.aon = true → ∃ t, exec .fullRise s = .next t ∧ t.flag (kHarvStat 2) = true ∧ t.harv.sampling = none) ∧
    (s.aon = true → s.flag (kHarvStat 2) = true → ∃ t, exec .fullClear s = .next t ∧ t.flag (kHarvStat 2) = false) ∧
    (s.aon = true → s.vstbyOk = false → s.storeLow = false → ∃ t, exec .storeLow s = .next t ∧ t.flag (kHarvStat 3) = true ∧
      t.harv.lowTicks = some 0) ∧
    (s.aon = true → s.storeLow = true → ∃ t, exec .storeLowEnd s = .next t ∧ t.flag (kHarvStat 3) = false ∧ t.harv.lowTicks = none) ∧
    (∀ n, s.aon = true → s.storeLow = true → s.harv.lowTicks = some n → 4 ≤ n → s.pmu.entry = none → s.pmu.req = none →
      s.reg kPhase = 0 → s.reg kLevel = 0 → exec .storeLowForcedEntry s = .next (s.entryStart 3 true false)) ∧
    (s.harv.kept = false → ∃ t, exec .keepCellLoad s = .next t ∧ t.harv.kept = true ∧ t.reg kCut = 220) ∧
    (s.harv.kept = true → ∃ t, exec .keepCellLoss s = .next t ∧ t.harv.kept = false ∧ t.mem = s.mem) ∧
    (s.harv.st = .bare → s.harv.kept = true → ∃ t, exec .loadReconnect s = .next t ∧ t.harv.st = .harvest ∧ t.harv.por = true) ∧
    (∀ boot strap, s.harv.por = true → ∃ t, exec (.aonPorRelease boot strap) s = .next t ∧ t.boot.starting = true ∧
      t.boot.bootBalls = boot.toNat) ∧
    (s.harv.st = .bare → ∃ t, exec .stbyUp s = .next t ∧ t.harv.st = .standby ∧ t.harv.por = true) ∧
    (s.harv.st = .standby → s.harv.por = false → ∃ t, exec .stbyLost s = .next t ∧ t.harv.st = .harvest) ∧
    -- levels
    (∀ l, s.aon = true → s.pmu.req = some l → s.reg kPhase = 0 → exec .entrySequenceStart s = .next (s.entryStart l false s.pmu.reqLow)) ∧
    (∀ l, s.pmu.entry = some l → s.reg kPhase = 1 → s.err.fatal = none → s.drainedAll = true → exec .entrySwitchOff s = .next (s.enterLevel l)) ∧
    (s.aon = true → s.reg kLevel = 0 → s.reg kPhase = 0 → s.pmu.req1 = true → s.reef1Ok = true → ∃ t, exec .reef1Entry s = .next t ∧
      t.reg kLevel = 1 ∧ t.pmu.req1 = false) ∧
    (s.aon = true → s.reg kLevel = 1 → s.reg kHalStat &&& s.reg kHalEn ≠ 0 → ∃ t, exec .reef1Exit s = .next t ∧ t.reg kLevel = 0) ∧
    (s.aon = true → 2 ≤ s.reg kLevel → s.reg kPhase = 0 → 2 ≤ s.allow → s.wakeCause ≠ 0 → exec .fullWakeStart s = .next s.fullWake) ∧
    (s.aon = true → s.reg kPhase = 2 → s.wakeDone = true → ∃ t, exec .wakeComplete s = .next t ∧ t.reg kPhase = 0 ∧ t.reg kLevel = 0) ∧
    (∀ d : Fin 72, s.aon = true → s.domSt d = .rising → ∃ t, exec (.domainRelease d) s = .next t ∧ t.domSt d = .up) ∧
    (∀ d : Fin 72, s.aon = true → s.reg kPhase = 2 → s.domSt d = .rising → ∃ t, exec (.wakeDomainRelease d) s = .next t ∧ t.domSt d = .up) ∧
    -- clocks
    (s.aon = true → ∃ t, exec .xt1Judged s = .next t ∧ t.flag (kClkStat 0) = true) ∧
    (s.aon = true → s.flag (kClkStat 0) = true → ∃ t, exec .xt1Fail s = .next t ∧ t.flag (kClkStat 0) = false ∧ t.flag (kRtcEvent 2) = true) ∧
    (s.isUp 67 = true → exec .xt2Ok s = .next (s.setFlag (kClkStat 1) true)) ∧
    (s.isUp 67 = true → s.flag (kClkStat 1) = false → s.reg kPhase = 0 → exec .xt2Fail s = .next (s.clkEvent 1)) ∧
    (s.isUp 67 = true → s.flag (kClkStat 1) = true → exec .xt2Stop s =
      .next ((((s.setFlag (kClkStat 1) false).clkEvent 1).pllLoss 0).pllLoss 1)) ∧
    (∀ pll, s.isUp (65 + ofBool pll) = true → s.flag (kClkStat 1) = true → exec (.pllLock pll) s =
      .next (s.setFlag (kClkStat (2 + ofBool pll)) true)) ∧
    (∀ pll, s.flag (kClkStat (2 + ofBool pll)) = true → ∃ t, exec (.pllLockLoss pll) s = .next t ∧
      t.flag (kClkStat (2 + ofBool pll)) = false) ∧
    (s.aon = true → exec .clkoutChange s = .next { s with clk := { s.clk with
      outSel := s.reg (fk 0x40002014 0), outDiv := s.reg (fk 0x40002014 16) } }) ∧
    (∀ value : Word, s.isUp 5 = true → s.aon = true → ∃ t, exec (.start value) s = .next t ∧ t.flag (kFmStat 2) = true ∧ t.reg kFmRes = 0) ∧
    (∀ n, s.aon = true → s.flag (kFmStat 2) = true → s.clkRuns (s.reg (fk 0x40002020 0)) = true → ∃ t,
      exec (.fmeasDone n) s = .next t ∧ t.flag (kFmStat 0) = true ∧ t.flag (kFmStat 2) = false) ∧
    (s.tickLogic = true → s.isUp 4 = true → ∃ t, exec .frameTick s = .next t ∧ t.clk.tickDue = true) ∧
    (s.aon = true → s.isUp 4 = true → s.clk.tickDue = true → exec .latchEdge s = .next s.latchEdge) ∧
    (∀ (frame : Rx 208) (e : Int) (per : Nat) f u, s.tickLogic = true → s.pickFrame frame (crc16Ok 26) = (some f, u) →
      exec (.beacon frame e per) s = .next (u.judgeBeacon (beBytes f.toNat 26) e per)) ∧
    (s.aon = true → 7 ≤ s.reg kAge → ∃ t, exec .unanchored s = .next t ∧ t.flag (kFrameStat 0) = false) ∧
    -- hub and catalog
    (∀ (core : Fin 5) (addr : Word), s.hubOk core addr.toNat = true → let la := lineOf addr.toNat
      exec (.readMiss core addr) s = .next (s.readMiss core la) ∧ exec (.own core addr) s = .next (s.own core la) ∧
      exec (.evictionNotice core addr) s = .next (s.notice core la) ∧
      ∀ data : List Byte, addr.toNat % 32 + data.length ≤ 32 → exec (.writeThroughStore core addr data) s = .next (s.writeThrough core addr.toNat data)) ∧
    (∀ addr : Word, s.sparOk addr.toNat = true → exec (.nonCachingRead addr) s = .next (s.ncRead addr.toNat 8).2 ∧
      ∀ data : List Byte, addr.toNat % 32 + data.length ≤ 32 → exec (.nonCachingWrite addr data) s = .next (s.ncWrite addr.toNat data)) ∧
    (∀ (addr : Word) (data : List Byte) k, s.isUp 5 = true → regionOf addr.toNat = .cat k → let off := addr.toNat - 0x20000000
      1 ≤ data.length → off % 8 + data.length ≤ 8 → s.wbRefusal .cc off = none → s.cat.wb.length < 32 →
      exec (.catalogWrite addr data) s = .next (s.wbAccept .cc off data (s.ccTag off)).2) ∧
    (∀ e rest u f0 f1 m, s.cat.wb = e :: rest → e.started = true → e.left = 1 → s.cat.mapDue = [] → s.isUp (catDom e.off) = true →
      s.useArb (catInst e.off) (plainReq 2 1) = some u → ∃ t, exec (.writeAttempt f0 f1 m) s = .next t ∧ s.attempt e rest f0 f1 = some t) ∧
    (∀ d rest u f, s.cat.mapDue = d :: rest →
      (({ s with cat := { s.cat with mapDue := rest } } : State).power15).useArb 15 (plainReq 1 2) = some u →
      exec (.mapUpdate f) s = .next (s.mapUpdate f)) ∧
    (∀ core : Fin 5, s.isUp (6 + core) = true → (s.core core).impDue = true → (s.core core).run = .running →
      exec (.busErr core) s = .next (s.takeImp core)) ∧
    (∀ (addr : Word) k, regionOf addr.toNat = .cat k → s.isUp 5 = true → let off := (addr.toNat - 0x20000000) / 8 * 8
      s.eccOf off = 0 → exec (.catalogRead addr 0#2) s = .next (s.catRead (s.coreReq 0) off).2) ∧
    (s.cat.rebuildDue = true → s.isUp 43 = true → s.isUp 5 = true → s.isUp 2 = true → ∃ t, exec .summaryRebuildStart s = .next t ∧
      t.flag kRebuilding = true ∧ t.cat.rebuildDue = false) ∧
    (∀ bad, s.flag kRebuilding = true → ∃ t, exec (.summaryRebuildDone bad) s = .next t ∧ t.flag kSummaryValid = true) ∧
    (∀ err, s.isUp 45 = true → s.isUp 5 = true → s.flag (fk 0x40017000 0) = true → s.cat.scrubbed < s.reg (fk 0x40017008 0) →
      s.reg kPhase ≠ 1 → exec (.scrubRead err) s = .next (s.scrubStep err.toNat)) ∧
    -- DMA and CRYPT
    (∀ core place : Fin 5, s.aon = true → s.isUp 47 = true → s.isUp 5 = true → (s.place place).busy = false →
      s.placeFree 19 (dmaReq core) = true → s.arbFrozen 19 = false → s.fenced (s.ctxOf core) = false →
      ∃ t, exec (.go core place) s = .next t ∧ (t.place place).busy = true) ∧
    (∀ place : Fin 5, let x := s.place place
      s.isUp 47 = true → x.busy = true → s.granted 19 x.req = true →
      (x.started = false → exec (.dmaTransferStart place) s = .next (s.setPlace place { x with started := true, status := s.dmaCheck x, hash := shaH0 })) ∧
      (x.started = true → x.status = none → exec (.dmaBeat place) s = .next (s.dmaBeat place))) ∧
    (∀ (place : Fin 5) st, s.isUp 47 = true → (s.place place).busy = true → (s.place place).status = some st →
      exec (.dmaEnd place) s = .next ((s.dmaEnd place st).dmaTell place (s.place place).ctx)) ∧
    (s.aon = true → s.isUp 49 = true → s.isUp 5 = true → s.placeFree 18 1 = true → s.arbFrozen 18 = false →
      (∀ slot : Fin 64, exec (.unwrap slot) s = .next (s.cryptCmd 1 slot 0) ∧ exec (.clearKey slot) s = .next (s.cryptCmd 2 slot 0)) ∧
      (∀ len : Fin 1024, exec (.sha256 len) s = .next (s.cryptCmd 3 0 len)) ∧ exec .verifyImage s = .next (s.cryptCmd 4 0 0) ∧
      exec .verifyUnlock s = .next (s.cryptCmd 5 0 0) ∧ exec .signAttest s = .next (s.cryptCmd 6 0 0) ∧
      exec .random s = .next (s.cryptCmd 7 0 0) ∧ exec .attestPub s = .next (s.cryptCmd 8 0 0)) ∧
    (∀ o, s.crypt.op = some o → s.isUp 49 = true → s.stands 18 1 = false → exec .cryptOperationEnd s = .next (s.cryptEnd o)) ∧
    -- ARB and LOCK
    (∀ (inst : Fin 36) (k : Fin 11) (beats : Fin 17) (prio : Fin 8) (ctx : Fin 66) (r : ArbReq), s.arbOn inst = true →
      (arbReqDoms inst k).any s.isUp = true → beats.val ≠ 0 → inst.val < 20 → arbTry inst k = false → s.stands inst k = false →
      s.arbMake inst k beats ctx = some r → r.tenant.elim false s.resetting = false → exec (.arbRequest inst k beats prio ctx) s = .next (s.stand inst r)) ∧
    (∀ inst : Fin 36, s.arbOn inst = true → s.burstHeld inst = false → exec (.arbDecision inst) s = .next (s.arbDecide inst)) ∧
    (∀ (core : Fin 5) (cleat : Fin 256), let ctx := s.ctxOf core
      let x := s.cleat cleat
      s.lockReach core = true → (s.core core).tmode = false → s.fenced ctx = false →
      (∀ v : Word, x.value = 0 → freeValue v.toNat = false → ∃ t, exec (.cleatValueWrite core cleat v) s = .next t ∧
       (t.cleat cleat).value = v.toNat) ∧
      (∀ v : Word, x.value = 0 → freeValue v.toNat = false → ∃ t, exec (.cleatAcas core cleat 0#32 v) s = .next t ∧
       (t.cleat cleat).value = v.toNat) ∧
      (∀ rd : Fin 16, x.value = 0 → (∀ w ∈ s.lock.waits, w.ctx ≠ ctx) → ∃ t, exec (.cleatWaitRead core cleat rd) s = .next t ∧
       (t.cleat cleat).value = s.token ctx) ∧
      (x.holder = some ctx → exec (.cleatLeaseWrite core cleat) s = .next (s.setCleat cleat { x with lease := x.load }))) ∧
    (∀ w, s.lock.waits.find? (fun w => w.ctx == 64 && w.result.isNone) = some w → s.isUp 48 = true → s.clk.tickDue = true → w.ticks = 3 →
      exec (.waitTimeout 64) s = .next (s.completeWait { w with ticks := 4 } 0x80000001)) ∧
    (∀ cleat : Fin 256, s.isUp 48 = true → s.clk.tickDue = true → (s.cleat cleat).lease = 1 →
      exec (.leaseExpired cleat) s = .next (s.leaseExpires cleat)) ∧
    (∀ v, s.isUp 48 = true → s.flag (fk 0x40006000 0) = true → s.victim s.waitCycle = some v → s.waitsOn v = none → s.coreOf v = none →
      ∃ t, exec .waitBroken s = .next (s.settle t) ∧ (t.slot v).state = 1 ∧ (t.slot v).broken = true) ∧
    -- contexts
    (∀ n s1, s.takeInterrupt = some (n, s1) → s1.cynRuns = true → n ∉ [0, 2, 3, 9, 13] → exec .ccInterrupt s = .next s1) ∧
    (∀ (core : Fin 4) n, (s.core (core + 1)).slot = some n → (s.core (core + 1)).run = .wfe →
      exec (.parked core) s = .next (s.settle (s.preempt (core + 1) 3 none))) ∧
    (∀ (core : Fin 4) n, (s.core (core + 1)).slot = some n → (s.core (core + 1)).run ≠ .halted → ∃ t,
      exec (.ovrBudget core) s = .next (s.settle t) ∧ (t.slot n).state = 4) ∧
    (∀ slot : Fin 64, let a := 0x40004100 + 0x10 * slot.val
      s.aon = true → s.isUp 5 = true → s.isUp 4 = true → s.last (fk a 0) ≤ 63 → s.last (fk a 8) ≤ 15 → s.last (fk a 12) ≤ 7 →
      s.last (fk a 15) ≤ 1 → ∃ t, exec (.init slot) s = .next t ∧ t.pendingVal (fk a 16) = some 1) ∧
    (∀ r, s.ten.reset = some r → r.edge = true → exec .tenResetComplete s = .next (s.resetComplete r)) ∧
    (∀ (tenant : Fin 64) (v : Word), s.isUp 27 = true → exec (.doorbell tenant v) s =
      .next ((s.memWrite (mboxAddr tenant) (leBytes v.toNat 4)).takeMailbox tenant))

/-- That every event and command of the bays, their serial ports, conversion, SFU, NOR, errors, start-up, the service ports, JTAG,
the spine and Cyntoux's queue completes, under conditions on the state and its operands alone: those under which its rule lets it
happen, and with the effect the rule gives it (R9, R71, R241–R265, R278–R288, R295–R315, R321–R329, R335–R348, R353–R371, R378–R382,
R387, R390–R402). Each clause names its commands. -/
def Obligations.EventsOfBaysPortsSpineAndQueueComplete : Prop :=
  ∀ s : State,
    -- bays
    (∀ chan : Fin 128, let n := chan.val
      s.aon = true → s.isUp 5 = true → s.bayUp n = true →
      (∃ t, exec (.channelStart chan) s = .next t ∧ (t.bayCh n).startReq = true) ∧ (∃ t, exec (.channelStop chan) s = .next t ∧ (t.bayCh n).stopReq = true) ∧
      ((s.bayCh n).st = 4 → ∃ t, exec (.restart chan) s = .next t ∧ (t.bayCh n).st = 0)) ∧
    (∀ gangs : BitVec 8, s.aon = true → s.isUp 5 = true → s.isUp 55 = true →
      (∃ t, exec (.gangCmdStart gangs) s = .next t ∧ t.bay.gangStart = s.bay.gangStart ||| gangs.toNat) ∧
      (∃ t, exec (.gangCmdStop gangs) s = .next t ∧ t.bay.gangStop = s.bay.gangStop ||| gangs.toNat)) ∧
    (∀ chan : Fin 128, let n := chan.val
      s.bayUp n = true → (s.bayCh n).st = 1 → exec (.rampEnd chan true) s = .next (s.setBayCh n { s.bayCh n with st := 2 }) ∧
      exec (.shortTrip chan) s = .next (s.bayTrip n 0)) ∧
    (∀ chan : Fin 128, s.bayUp chan = true → s.clk.tickDue = true → (s.bayCh chan).st = 3 → (s.bayCh chan).backoff = some 1 →
      exec (.backoffExpiry chan) s = .next (s.backoffExpiry chan)) ∧
    (∀ g : Fin 8, s.isUp (55 + g) = true → exec (.vb12OkRise g) s = .next (s.setReg kVb12 (setBit (s.reg kVb12) g true)) ∧
      (s.vb12 g = true → ∃ t, exec (.bayUv g) s = .next t ∧ ∀ n, n / 16 = g.val → (t.bayCh n).st ≠ 1 ∧ (t.bayCh n).st ≠ 2) ∧
      exec (.receiverAdmission g) s = .next (s.setReg kAdmit (setBit (s.reg kAdmit) g true))) ∧
    (∀ chan : Fin 128, let n := chan.val
      let c := s.bayCh n
      s.bayUp n = true → s.bayRing n = true →
      (c.prs.masked = none → c.prs.level ≠ some true → c.prs.changes < 32 → ∃ t, exec (.prsChg chan true) s = .next t ∧
       t.flag (kBayCh n 0x14 2) = true ∧ (t.bayCh n).prs.level = some true) ∧
      (s.flag (kBayu n 0 1) = false → c.flt.masked = none → c.flt.level ≠ some true → c.flt.changes < 32 → ∃ t, exec (.flt chan true) s = .next t ∧
       (t.bayCh n).flt.level = some true)) ∧
    (∀ chan : Fin 128, let n := chan.val
      let c := s.bayCh n
      s.bayUp n = true → c.prs.masked = some 0 → exec (.inputUnmask chan false) s =
      .next (s.setBayCh n { c with prs := { c.prs with masked := none, level := c.prs.raw } })) ∧
    -- ports
    (∀ chan : Fin 128, let n := chan.val
      let p := s.port n
      (∀ data : Byte, s.aon = true → s.isUp 5 = true → s.bayUp n = true → p.tx.length < 16 → p.shifting.isSome = true → ∃ t,
       exec (.bayuTx chan data) s = .next t ∧ (t.port n).tx = p.tx ++ [data.toNat]) ∧
      (∀ w rest, s.aon = true → s.bayUp n = true → p.rx = w :: rest → exec (.bayuRx chan) s = .next (s.setPort n { p with rx := rest })) ∧
      (∀ data : Byte, s.bayUp n = true → s.flag (kBayu n 0 0) = true → s.bayRing n = true → s.rxAdmitted n = true → p.rx.length < 16 →
       s.flag (kBayu n 0 1) = false ∨ p.shifting.isSome = true →
       exec (.characterReceived chan data false false) s = .next (s.setPort n { p with rx := p.rx ++ [data.toNat] })) ∧
      (s.bayUp n = true → s.bayRing n = true → s.flag (kBayu n 0 0) = true → s.flag (kBayu n 0 1) = false → s.rxAdmitted n = true →
       exec (.falseStart chan) s = .next (s.count (kBayu n 0x1C 16) 8 1)) ∧
      (∀ ch, s.bayUp n = true → p.shifting = some ch → p.tx = [] → exec (.characterShiftedOut chan) s = .next (s.setPort n { p with shifting := none }))) ∧
    (∀ (chan : Fin 128) w rest u, let n := chan.val
      let p := s.port n
      let a := s.reg (kBayu n 4 6) * 64 + 2 * (p.head % 2 ^ s.reg (kBayu n 4 0))
      p.rx = w :: rest → s.bayUp n = true → s.reg (kBayu n 4 0) ≠ 0 → (p.head + 65536 - s.reg (kBayu n 8 0)) % 65536 < 2 ^ s.reg (kBayu n 4 0) →
      s.sparOk a = true → s.reef1Leave.useArb 19 (plainReq 1 1) = some u → exec (.bayuRingMove chan) s =
      .next ((u.memWrite a (leBytes w 2)).setPort n { p with rx := rest, head := (p.head + 1) % 65536 })) ∧
    -- conversion
    (∀ conv : Fin 4, s.groupReady conv = true → s.convTrig conv = false → s.groupIdle conv = true →
      exec (.converterStart conv) s = .next (s.startGroup conv)) ∧
    (∀ (conv : Fin 4) uv, s.isUp (50 + conv) = true → (s.conv conv).running = true → (s.conv conv).waiting = false →
      exec (.conversionDone conv uv) s = .next (s.conversion conv uv)) ∧
    (∀ k r w rest u, s.adc.fifo = (k, r, w) :: rest → s.reef1Leave.useArb 19 (plainReq 0 1) = some u → let a := 0x40010100 + 0x10 * r
      let dst := s.reg (fk a 6) * 64 + 4 * (s.reg (fk (a + 0xC) 0) % 2 ^ s.reg (fk (a + 4) 0))
      (s.reg (fk (a + 0xC) 0) + 65536 - s.reg (fk (a + 8) 0)) % 65536 < 2 ^ s.reg (fk (a + 4) 0) → s.sparOk dst = true →
      ∃ t, exec .adcRingMove s = .next t ∧ t.adc.fifo = rest) ∧
    (s.isUp 54 = true → exec .refOk s = .next { s with adc := { s.adc with refOk := true } }) ∧
    (∀ (conv : Fin 4) (e : Fin 64) (v : Word), s.aon = true → s.isUp 5 = true → s.isUp (50 + conv) = true → ∃ t,
      exec (.seqEntryWrite conv e v) s = .next t ∧ t.reg (fk (seqAddr conv e) 8) = bits v.toNat 8 8) ∧
    -- SFU and NOR
    (∀ place : Fin 6, let j := s.job place
      s.isUp 46 = true → j.busy = true →
      (j.started = false → s.granted 17 place = true → s.flag kStdReady = true → s.jobCheck j = none →
       exec (.sfuJobStart place) s = .next (s.setJob place { j with started := true })) ∧
      (j.started = true → (s.arb 17).standing = [] → ∃ t, exec (.sfuJobEnd place) s = .next t ∧ (t.job place).busy = false)) ∧
    (∀ addr value : Word, s.isUp 46 = true → tableWritable addr.toNat = true → s.slotUsed (tableSlot addr.toNat) = false →
      exec (.tableWrite addr value) s = .next (s.wrBytes addr.toNat (leBytes value.toNat 4))) ∧
    (s.isUp 46 = true → exec .stdReady s = .next (s.setFlag kStdReady true)) ∧
    (s.aon = true → s.isUp 5 = true → s.isUp 44 = true → s.norOp.state = 0 → exec .eraseSector s = .next (s.norStart 1 false) ∧
      exec .eraseBlock s = .next (s.norStart 2 false) ∧ ∀ p, exec (.program p) s = .next (s.norStart 3 p)) ∧
    (s.isUp 44 = true → s.norOp.state = 1 → ∃ t, exec .norCheckDone s = .next t ∧ (t.norOp.state = 0 ∨ t.norOp.state = 2)) ∧
    (s.isUp 44 = true → s.norOp.state = 2 → ∃ t, exec (.norOperationDone none) s = .next t ∧ t.norOp.state = 5) ∧
    (s.isUp 44 = true → s.norOp.state = 5 → ∃ t, exec .norVerifyDone s = .next t ∧ t.norOp.state = 0) ∧
    (∀ addr : Word, s.isUp 44 = true → regionOf addr.toNat = .nor → s.norOp.state = 3 → ∃ t, exec (.norWindowRead addr) s = .next t ∧
      t.norOp.state = 4) ∧
    (s.isUp 44 = true → s.norOp.state = 4 → ∃ t, exec .eraseResume s = .next t ∧ t.norOp.state = 3) ∧
    -- errors and start-up
    (∀ (cls : Fin 4) (source : Byte) (tenant : Fin 64) (code seq : BitVec 16) (address offset : Word) (segment : Fin 8) (detail : List Byte),
      s.isUp 5 = true → 2 ≤ cls.val → s.err.count < 32 → ∃ t,
      exec (.errRecord cls source tenant code seq address offset segment detail) s = .next t ∧ t.err.count = s.err.count + 1) ∧
    (∀ n e, s.err.fatal = some (n, e) → 2 ≤ e → s.boot.warmDue = none → exec .fatalResetDue s =
      .next { s with boot := { s.boot with warmDue := some (3, 0) } }) ∧
    (s.aon = true → s.boot.warmDue = none → exec (.rstN true) s = .next { s with boot := { s.boot with rstLow := true, warmDue := some (1, 0) } }) ∧
    (∀ src reason, s.boot.warmDue = some (src, reason) → s.aon = true → s.boot.inReset = false →
      exec .warmResetStart s = .next (s.warmStart src reason)) ∧
    (∀ boot strap src reason, s.boot.warmDue = some (src, reason) → s.aon = true → s.boot.inReset = true → s.boot.rstLow = false →
      s.cat.wb = [] → s.cat.mapDue = [] → ∃ t, exec (.warmResetEnd boot strap) s = .next t ∧ t.boot.inReset = false ∧ t.boot.starting = true) ∧
    (∀ id, s.aon = true → s.isUp 6 = true → s.isUp 5 = true → s.boot.starting = true → s.isUp 44 = true → s.reg kBootCause ≠ 2 → ∃ t,
      exec (.romBoot id) s = .next t ∧ t.boot.accepting = true ∧ t.boot.starting = false) ∧
    (s.aon = true → s.isUp 6 = true → s.isUp 5 = true → s.boot.starting = true → s.reg kBootCause = 2 → s.boot.full = false →
      s.snapValid = true → ∃ t, exec .warmPath s = .next t ∧ t.boot.accepting = true) ∧
    (exec .wdtOutNRelease s = .next { s with boot := { s.boot with wdtLow := false } }) ∧
    -- service ports
    (∀ (port : Bool) (f : List Byte), let p := ofBool port
      s.sgmUp p = true →
      (frameKept p f = false → exec (.ethernetFrame port f) s = .next (s.count (kSgmDrop p) 16 1)) ∧
      (frameKept p f = true → s.isArp p f = true → ∃ r, exec (.arpRequest port f) s = .next (s.reef1Leave.ethSend p r)) ∧
      (frameKept p f = true → s.isEcho p f = true → ∃ r, exec (.icmpEcho port f) s = .next (s.reef1Leave.ethSend p r)) ∧
      (frameKept p f = true → s.isCommand p f = true → s.cynRuns = false → exec (.udpDatagram port f) s =
       .next { s with serv := { s.serv with dgrams := s.serv.dgrams ++ [(p, f)] } })) ∧
    (∀ port : Bool, (s.isUp (63 + ofBool port) = true → s.flag (kClkStat 3) = true → exec (.linkUp port true) s =
      .next (s.setFlag (kSgmLink (ofBool port)) true)) ∧
      (∃ t, exec (.linkDown port) s = .next t ∧ t.flag (kSgmLink (ofBool port)) = false)) ∧
    (∀ (port : Bool) (d : Byte), s.isUp 69 = true → bit s.serv.consRx (ofBool port) = true → s.serv.io.vio33 = true →
      ((s.consBuf (ofBool port)).filter (· < 256)).length < 2048 → ∃ t, exec (.consoleByte port d) s = .next t ∧
      t.consBuf (ofBool port) = s.consBuf (ofBool port) ++ [d.toNat]) ∧
    (∀ (port : Bool) rest, s.cynRuns = true → s.isUp 69 = true → s.consBuf (ofBool port) = 0xC0 :: rest →
      exec (.consoleFrame port) s = .next (s.setCons (ofBool port) rest)) ∧
    (∀ (pin : Fin 64) (l : Bool), s.isUp 5 = true → s.serv.io.vio33 = true → ∃ t, exec (.gpioEvent pin l) s = .next t ∧
      t.serv.gpioIn = setBit s.serv.gpioIn pin l) ∧
    (s.aon = true → exec (.psuPg true) s = .next { s with serv := { s.serv with pg := true, pgWait := none } }) ∧
    (s.serv.alert = false → ∃ t, exec (.psuAlert true) s = .next t ∧ t.serv.alert = true) ∧
    (∀ v : Dword, s.isUp 5 = true → exec (.ledShift v) s = .next { s with serv := { s.serv with led := v.toNat, ledOut := some v.toNat } }) ∧
    (∀ fan : Fin 4, s.isUp 5 = true → s.serv.io.vio33 = true → ∃ t, exec (.fanTachEdge fan) s = .next t ∧
      Tab.get (fun _ => 0) t.serv.tachNow fan = Tab.get (fun _ => 0) s.serv.tachNow fan + 1) ∧
    (s.aon = true → (∀ c v, ∃ t, exec (.extest c v) s = .next t ∧ t.serv.tap.ir = 0 ∧ t.serv.tap.drive = true) ∧
      (∀ c v, ∃ t, exec (.samplePreload c v) s = .next t ∧ t.serv.tap.ir = 1 ∧ t.serv.tap.dr = v) ∧
      (∃ t, exec .idcode s = .next t ∧ t.serv.tap.ir = 2 ∧ t.serv.tap.dr = 0x1EB649AF) ∧ (∃ t, exec .clamp s = .next t ∧ t.serv.tap.ir = 3) ∧
      (∃ t, exec .highz s = .next t ∧ t.serv.tap.ir = 4 ∧ t.serv.tap.hiz = true) ∧
      (s.debugLocked = false → s.isUp 70 = true → ∃ t, exec .jtagDebug s = .next t ∧ t.serv.tap.ir = 0x10) ∧
      (∀ code : BitVec 5, code.toNat ∉ [0, 1, 2, 3, 4, 0x10] → ∃ t, exec (.bypass code) s = .next t ∧ t.serv.tap.ir = 0x1F) ∧
      (∃ t, exec .trstN s = .next t ∧ t.serv.tap = {})) ∧
    (∀ (source : Fin 6) (kind : BitVec 5) (payload : List (BitVec 16)), s.isUp 71 = true → s.debugLocked = false →
      traceWords kind.toNat = some payload.length → s.serv.traceDropped = 0 → s.serv.trace.length + payload.length + 1 ≤ 64 → ∃ t,
      exec (.tracePacket source kind payload) s = .next t ∧ t.serv.trace.length = s.serv.trace.length + payload.length + 1) ∧
    -- spine
    (s.prbOn = true → s.admitted = true → let rep := fun (o : Out) => ∃ t, o = .next t ∧ t.spine.reply.isSome = true
      rep (exec .status s) ∧ rep (exec .wakeShelf s) ∧ rep (exec .sleepShelf s) ∧ rep (exec .gauge s) ∧ rep (exec .time s) ∧
      ∀ (n : Fin 64) (key : BitVec 48) (late : Bool) (tk : BitVec 16), rep (exec (.probe n key late) s) ∧ rep (exec (.ticketFetch n tk) s)) ∧
    (∀ data : BitVec 48, s.prbOn = true → s.admitted = true → 2 ≤ s.allow → s.flag kChunkEn = true → s.spine.chunkDone = none → s.spine.chunkN = 0 → ∃ t,
      exec (.cmdChunk 32#6 data) s = .next t ∧ t.spine.chunkN = 1) ∧
    (∀ (ports : BitVec 2) (x y : BitVec 72) (late : Bool) f u, s.pickFrame { ports := ports, a := x, b := y } crc8Ok = (some f, u) →
      exec (.query ports x y late) s = .next (u.query f late).takeChunk) ∧
    (∀ r u, s.spine.reply = some r → s.prbOn = true → ({ s with spine := { s.spine with reply := none } } : State).useArb 16 (sptxReq 1) = some u →
      ∃ bs, exec .replyStart s = .next (u.spineSend bs)) ∧
    (∀ port, s.reg kLevel = 2 ∨ s.reg kLevel = 3 → bit s.rxPorts (ofBool port) = true → s.spine.exc = false → ∃ t,
      exec (.energyDetect port) s = .next t ∧ t.spine.exc = true) ∧
    (∀ bank : Fin 16, s.spine.banks.contains (28 + bank.val) = true → s.domSt (28 + bank) = .rising →
      exec (.catalogBankReady bank) s = .next (s.setDom (28 + bank) .up)) ∧
    (s.spine.exc = true → (s.spine.sdSeen = false → exec .excursionTimeout s = .next s.excEnd) ∧ exec .slotEnd s = .next s.excEnd ∧
      ∀ sd b0 b1, s.foreign sd b0 b1 = true → exec (.foreignFrame sd b0 b1) s = .next s.excEnd) ∧
    (∀ u, s.headActive = true → s.spine.reply = none → s.useArb 16 (sptxReq 0) = some u → ∃ t, exec (.headBeacon false) s = .next t ∧
      t.spine.headStop = false) ∧
    (∀ (k : Fin 32) r rest u, s.spine.reports = r :: rest → s.slotOk = true → s.reportSlot k = true → s.slotOwner k = s.shelf →
      s.spine.reply = none → s.useArb 16 (sptxReq 2) = some u → ∃ t, exec (.reportFragment k) s = .next t ∧ t.spine.reports ≠ r :: rest) ∧
    (∀ r, s.spine.reports.find? (fun r => decide (8 ≤ r.ticks)) = some r → ∃ t, exec .undelivered s = .next t ∧
      t.spine.reports = s.spine.reports.filter (fun x => x.buf != r.buf) ∧ t.flag (kProbeEvent 1) = true) ∧
    (s.pairFrame = true → s.slotOk = true →
      (∀ u, s.pairSender = true → s.spine.pairSent = false → s.reg kTxTail ≠ s.reg (fk 0x4000B018 0) → s.useArb 16 (sptxReq 3) = some u → ∃ t,
       exec .pairTx s = .next t ∧ t.spine.pairSent = true) ∧
      (∀ (frame : Rx 72) f u, s.pairSender = false → s.pickFrame frame (crc16Ok 9) = (some f, u) →
       exec (.pair frame) s = .next (u.pairTake (beBytes f.toNat 9)))) ∧
    (∀ (frame : Rx 88) f u, s.flag kPairEn = true → s.pairSender = true → s.spine.pairSent = true →
      s.pickFrame frame (crc16Ok 11) = (some f, u) → exec (.pairAck frame) s = .next (u.pairAcked (beBytes f.toNat 11))) ∧
    (s.pairFrame = true → s.spine.pairDone = false → exec .pairMiss s = .next (s.setFlag (kProbeEvent 0) true)) ∧
    (∀ port, (bit s.txPorts (ofBool port) = true → s.isUp 0 = true → s.flag kSpineEn = true → ∃ t, exec (.jabber port) s = .next t ∧
       t.flag (kSpineStat (5 + ofBool port)) = true) ∧
      (bit s.rxPorts (ofBool port) = true → ∃ t, exec (.stuck port) s = .next t ∧ t.flag (kSpineStat (3 + ofBool port)) = true) ∧
      (s.isUp 0 = true → exec (.edMaskTestEnd port true) s = .next (s.setFlag (kSpineStat (3 + ofBool port)) false))) ∧
    (∀ port sd nbits bytes, bit s.rxPorts (ofBool port) = true → frameLen (BitVec.toNat sd) (byteAt bytes 0) = none →
      sd ≠ 0x66#8 → exec (.spineFrameDiscarded port sd nbits bytes) s = .next (s.count (fk 0x4000A074 16) 16 1)) ∧
    -- the queue
    (∀ c st bs es t, s.cynRuns = true → s.boot.accepting = true → s.cynOccupied = false → s.nextCmd = some c →
      s.resetting c.ten = false → s.resourceHeld c = false →
      ({ s with cyn := { s.cyn with queue := s.cyn.queue.erase c } } : State).run c = (.done st bs es, t) → exec .commandStart s = .next (t.finish c st bs es)) ∧
    (∀ c w rest st bs es t, s.cynRuns = true → s.cyn.longs = (c, w) :: rest → s.poll c w = (.done st bs es, t) →
      exec .commandComplete s = .next (State.finish { t with cyn := { t.cyn with longs := rest } } c st bs es)) ∧
    (∀ c g tries cyc due, s.cynRuns = true → s.cyn.longs = [(c, .cleat g tries cyc due)] → 0 < due → s.isUp 48 = true →
      (s.cleat g).value = 0 → ∃ t : State, exec .cleatAcquireRetry s = .next (State.finish { t with cyn := { t.cyn with longs := [] } } c 0 (leBytes 0 4) []) ∧
      (t.cleat g).value = s.token 64) ∧
    (∀ n, s.cynRuns = true → s.serv.pgWait = some n → s.reg (fk 0x40012104 0) ≤ n → ∃ t, exec .pgTimeout s = .next t ∧
      t.serv.pgWait = none ∧ t.flag kWakeSeq = false)
end

