-- ==== Sys2Proof/Laws/Tab.lean ====
section
/-! SUPPORT. Sparse tables: reading after writing, and the canonical form that every write keeps. -/
namespace Sys2Proof.Machine

variable {α : Type}

@[simp] theorem Tab.get_nil (d : Nat → α) (k : Nat) : Tab.get d [] k = d k := rfl

theorem Tab.get_insert (d : Nat → α) (t : Tab α) (k j : Nat) (v : α) :
    Tab.get d (Tab.insert t k v) j = if k = j then v else Tab.get d t j := by
  induction t with
  | nil => simp [Tab.insert, Tab.get]
  | cons e t ih =>
    obtain ⟨k', v'⟩ := e
    unfold Tab.insert
    split
    · simp [Tab.get]
    · split
      · subst_vars; simp only [Tab.get]; split <;> rfl
      · simp only [Tab.get, ih]; split <;> split <;> simp_all

theorem Tab.get_erase (d : Nat → α) (t : Tab α) (k j : Nat) :
    Tab.get d (Tab.erase t k) j = if k = j then d j else Tab.get d t j := by
  induction t with
  | nil => simp [Tab.erase, Tab.get]
  | cons e t ih =>
    obtain ⟨k', v'⟩ := e
    simp only [Tab.erase]
    split
    · simp only [ih, Tab.get]; split <;> simp_all
    · simp only [Tab.get, ih]; split <;> split <;> simp_all

/-- A read of the key just written answers the value. -/
@[simp] theorem Tab.get_set_same [DecidableEq α] (d : Nat → α) (t : Tab α) (k : Nat) (v : α) :
    Tab.get d (Tab.set d t k v) k = v := by
  unfold Tab.set; split
  · simp [Tab.get_erase, *]
  · simp [Tab.get_insert]

/-- A write leaves every other key alone. -/
theorem Tab.get_set_other [DecidableEq α] (d : Nat → α) (t : Tab α) (k j : Nat) (v : α) (h : k ≠ j) :
    Tab.get d (Tab.set d t k v) j = Tab.get d t j := by
  unfold Tab.set; split
  · simp [Tab.get_erase, h]
  · simp [Tab.get_insert, h]

theorem Tab.get_set [DecidableEq α] (d : Nat → α) (t : Tab α) (k j : Nat) (v : α) :
    Tab.get d (Tab.set d t k v) j = if k = j then v else Tab.get d t j := by
  by_cases h : k = j
  · subst h; simp
  · simp [Tab.get_set_other, h]

/-- What is kept reads as before, the rest as the default. -/
theorem Tab.get_keep (d : Nat → α) (p : Nat → Bool) (t : Tab α) (j : Nat) :
    Tab.get d (Tab.keep p t) j = if p j then Tab.get d t j else d j := by
  unfold Tab.keep
  induction t with
  | nil => simp [Tab.get]
  | cons e t ih =>
    obtain ⟨k', v'⟩ := e
    by_cases hk : p k' = true
    · simp only [List.filter, hk, Tab.get]
      by_cases hj : k' = j
      · subst hj; simp [hk]
      · simp only [hj, if_false, ih]
    · simp only [List.filter, hk, ih, Tab.get]
      by_cases hj : k' = j
      · subst hj; simp [hk]
      · simp [hj]

/-! ### The canonical form -/

theorem Tab.wfFrom_mono [DecidableEq α] (d : Nat → α) (t : Tab α) (lo lo' : Nat) (h : lo' ≤ lo)
    (w : Tab.wfFrom d lo t = true) : Tab.wfFrom d lo' t = true := by
  cases t with
  | nil => rfl
  | cons e t =>
    obtain ⟨k, v⟩ := e
    simp only [Tab.wfFrom, Bool.and_eq_true, decide_eq_true_eq] at w ⊢
    exact ⟨⟨by omega, w.1.2⟩, w.2⟩

theorem Tab.wfFrom_insert [DecidableEq α] (d : Nat → α) (t : Tab α) (lo k : Nat) (v : α) (hk : lo ≤ k) (hv : v ≠ d k)
    (w : Tab.wfFrom d lo t = true) : Tab.wfFrom d lo (Tab.insert t k v) = true := by
  induction t generalizing lo with
  | nil => simp [Tab.insert, Tab.wfFrom, hk, hv]
  | cons e t ih =>
    obtain ⟨k', v'⟩ := e
    simp only [Tab.wfFrom, Bool.and_eq_true, decide_eq_true_eq] at w
    unfold Tab.insert
    split
    · simp only [Tab.wfFrom, Bool.and_eq_true, decide_eq_true_eq]
      refine ⟨⟨hk, by simp [hv]⟩, ⟨by omega, w.1.2⟩, w.2⟩
    · split
      · subst_vars; simp only [Tab.wfFrom, Bool.and_eq_true, decide_eq_true_eq]
        exact ⟨⟨hk, by simp [hv]⟩, w.2⟩
      · simp only [Tab.wfFrom, Bool.and_eq_true, decide_eq_true_eq]
        exact ⟨w.1, ih (k' + 1) (by omega) w.2⟩

theorem Tab.wfFrom_erase [DecidableEq α] (d : Nat → α) (t : Tab α) (lo k : Nat)
    (w : Tab.wfFrom d lo t = true) : Tab.wfFrom d lo (Tab.erase t k) = true := by
  induction t generalizing lo with
  | nil => rfl
  | cons e t ih =>
    obtain ⟨k', v'⟩ := e
    simp only [Tab.wfFrom, Bool.and_eq_true, decide_eq_true_eq] at w
    simp only [Tab.erase]
    split
    · exact ih lo (Tab.wfFrom_mono d t _ _ (by omega) w.2)
    · simp only [Tab.wfFrom, Bool.and_eq_true, decide_eq_true_eq]
      exact ⟨w.1, ih _ w.2⟩

theorem Tab.wfFrom_keep [DecidableEq α] (d : Nat → α) (p : Nat → Bool) (t : Tab α) (lo : Nat)
    (w : Tab.wfFrom d lo t = true) : Tab.wfFrom d lo (Tab.keep p t) = true := by
  unfold Tab.keep
  induction t generalizing lo with
  | nil => rfl
  | cons e t ih =>
    obtain ⟨k', v'⟩ := e
    simp only [Tab.wfFrom, Bool.and_eq_true, decide_eq_true_eq] at w
    by_cases hk : p k' = true
    · simp only [List.filter, hk, Tab.wfFrom, Bool.and_eq_true, decide_eq_true_eq]
      exact ⟨w.1, ih _ w.2⟩
    · simp only [List.filter, hk]
      exact ih lo (Tab.wfFrom_mono d t _ _ (by omega) w.2)

@[simp] theorem Tab.wf_nil [DecidableEq α] (d : Nat → α) : Tab.wf d ([] : Tab α) = true := rfl

/-- Every write keeps the canonical form. -/
theorem Tab.wf_set [DecidableEq α] (d : Nat → α) (t : Tab α) (k : Nat) (v : α) (w : Tab.wf d t = true) :
    Tab.wf d (Tab.set d t k v) = true := by
  unfold Tab.set; split
  · exact Tab.wfFrom_erase d t 0 k w
  · rename_i h; exact Tab.wfFrom_insert d t 0 k v (Nat.zero_le _) h w

/-- Dropping entries keeps the canonical form. -/
theorem Tab.wf_keep [DecidableEq α] (d : Nat → α) (p : Nat → Bool) (t : Tab α) (w : Tab.wf d t = true) :
    Tab.wf d (Tab.keep p t) = true := Tab.wfFrom_keep d p t 0 w

end Sys2Proof.Machine
end

