-- ==== Sys2Proof/Laws/State.lean ====
section
/-! SUPPORT. One lemma per field per update of the state, each true by rfl, and reading after writing for every table. No later
proof unfolds a record update. -/
namespace Sys2Proof.Machine

/-! ### `setReg` changes `regs` alone -/

@[simp] theorem State.setReg_pending (s : State) (k v : Nat) : (s.setReg k v).pending = s.pending := rfl
@[simp] theorem State.setReg_fresh (s : State) (k v : Nat) : (s.setReg k v).fresh = s.fresh := rfl
@[simp] theorem State.setReg_shadow (s : State) (k v : Nat) : (s.setReg k v).shadow = s.shadow := rfl
@[simp] theorem State.setReg_crossing (s : State) (k v : Nat) : (s.setReg k v).crossing = s.crossing := rfl
@[simp] theorem State.setReg_rings (s : State) (k v : Nat) : (s.setReg k v).rings = s.rings := rfl
@[simp] theorem State.setReg_gring (s : State) (k v : Nat) : (s.setReg k v).gring = s.gring := rfl
@[simp] theorem State.setReg_dom (s : State) (k v : Nat) : (s.setReg k v).dom = s.dom := rfl
@[simp] theorem State.setReg_mem (s : State) (k v : Nat) : (s.setReg k v).mem = s.mem := rfl
@[simp] theorem State.setReg_harv (s : State) (k v : Nat) : (s.setReg k v).harv = s.harv := rfl
@[simp] theorem State.setReg_pmu (s : State) (k v : Nat) : (s.setReg k v).pmu = s.pmu := rfl
@[simp] theorem State.setReg_pins (s : State) (k v : Nat) : (s.setReg k v).pins = s.pins := rfl
@[simp] theorem State.setReg_clk (s : State) (k v : Nat) : (s.setReg k v).clk = s.clk := rfl
@[simp] theorem State.setReg_rtc (s : State) (k v : Nat) : (s.setReg k v).rtc = s.rtc := rfl
@[simp] theorem State.setReg_err (s : State) (k v : Nat) : (s.setReg k v).err = s.err := rfl
@[simp] theorem State.setReg_cores (s : State) (k v : Nat) : (s.setReg k v).cores = s.cores := rfl
@[simp] theorem State.setReg_irqEdge (s : State) (k v : Nat) : (s.setReg k v).irqEdge = s.irqEdge := rfl
@[simp] theorem State.setReg_slots (s : State) (k v : Nat) : (s.setReg k v).slots = s.slots := rfl
@[simp] theorem State.setReg_ten (s : State) (k v : Nat) : (s.setReg k v).ten = s.ten := rfl
@[simp] theorem State.setReg_cat (s : State) (k v : Nat) : (s.setReg k v).cat = s.cat := rfl
@[simp] theorem State.setReg_dma (s : State) (k v : Nat) : (s.setReg k v).dma = s.dma := rfl
@[simp] theorem State.setReg_crypt (s : State) (k v : Nat) : (s.setReg k v).crypt = s.crypt := rfl
@[simp] theorem State.setReg_arbs (s : State) (k v : Nat) : (s.setReg k v).arbs = s.arbs := rfl
@[simp] theorem State.setReg_lock (s : State) (k v : Nat) : (s.setReg k v).lock = s.lock := rfl
@[simp] theorem State.setReg_spine (s : State) (k v : Nat) : (s.setReg k v).spine = s.spine := rfl
@[simp] theorem State.setReg_cyn (s : State) (k v : Nat) : (s.setReg k v).cyn = s.cyn := rfl
@[simp] theorem State.setReg_bay (s : State) (k v : Nat) : (s.setReg k v).bay = s.bay := rfl
@[simp] theorem State.setReg_adc (s : State) (k v : Nat) : (s.setReg k v).adc = s.adc := rfl
@[simp] theorem State.setReg_sfu (s : State) (k v : Nat) : (s.setReg k v).sfu = s.sfu := rfl
@[simp] theorem State.setReg_tabWait (s : State) (k v : Nat) : (s.setReg k v).tabWait = s.tabWait := rfl
@[simp] theorem State.setReg_boot (s : State) (k v : Nat) : (s.setReg k v).boot = s.boot := rfl
@[simp] theorem State.setReg_serv (s : State) (k v : Nat) : (s.setReg k v).serv = s.serv := rfl

/-! ### `setFlag` changes `regs` alone -/

@[simp] theorem State.setFlag_pending (s : State) (k : Nat) (b : Bool) : (s.setFlag k b).pending = s.pending := rfl
@[simp] theorem State.setFlag_fresh (s : State) (k : Nat) (b : Bool) : (s.setFlag k b).fresh = s.fresh := rfl
@[simp] theorem State.setFlag_shadow (s : State) (k : Nat) (b : Bool) : (s.setFlag k b).shadow = s.shadow := rfl
@[simp] theorem State.setFlag_crossing (s : State) (k : Nat) (b : Bool) : (s.setFlag k b).crossing = s.crossing := rfl
@[simp] theorem State.setFlag_rings (s : State) (k : Nat) (b : Bool) : (s.setFlag k b).rings = s.rings := rfl
@[simp] theorem State.setFlag_gring (s : State) (k : Nat) (b : Bool) : (s.setFlag k b).gring = s.gring := rfl
@[simp] theorem State.setFlag_dom (s : State) (k : Nat) (b : Bool) : (s.setFlag k b).dom = s.dom := rfl
@[simp] theorem State.setFlag_mem (s : State) (k : Nat) (b : Bool) : (s.setFlag k b).mem = s.mem := rfl
@[simp] theorem State.setFlag_harv (s : State) (k : Nat) (b : Bool) : (s.setFlag k b).harv = s.harv := rfl
@[simp] theorem State.setFlag_pmu (s : State) (k : Nat) (b : Bool) : (s.setFlag k b).pmu = s.pmu := rfl
@[simp] theorem State.setFlag_pins (s : State) (k : Nat) (b : Bool) : (s.setFlag k b).pins = s.pins := rfl
@[simp] theorem State.setFlag_clk (s : State) (k : Nat) (b : Bool) : (s.setFlag k b).clk = s.clk := rfl
@[simp] theorem State.setFlag_rtc (s : State) (k : Nat) (b : Bool) : (s.setFlag k b).rtc = s.rtc := rfl
@[simp] theorem State.setFlag_err (s : State) (k : Nat) (b : Bool) : (s.setFlag k b).err = s.err := rfl
@[simp] theorem State.setFlag_cores (s : State) (k : Nat) (b : Bool) : (s.setFlag k b).cores = s.cores := rfl
@[simp] theorem State.setFlag_irqEdge (s : State) (k : Nat) (b : Bool) : (s.setFlag k b).irqEdge = s.irqEdge := rfl
@[simp] theorem State.setFlag_slots (s : State) (k : Nat) (b : Bool) : (s.setFlag k b).slots = s.slots := rfl
@[simp] theorem State.setFlag_ten (s : State) (k : Nat) (b : Bool) : (s.setFlag k b).ten = s.ten := rfl
@[simp] theorem State.setFlag_cat (s : State) (k : Nat) (b : Bool) : (s.setFlag k b).cat = s.cat := rfl
@[simp] theorem State.setFlag_dma (s : State) (k : Nat) (b : Bool) : (s.setFlag k b).dma = s.dma := rfl
@[simp] theorem State.setFlag_crypt (s : State) (k : Nat) (b : Bool) : (s.setFlag k b).crypt = s.crypt := rfl
@[simp] theorem State.setFlag_arbs (s : State) (k : Nat) (b : Bool) : (s.setFlag k b).arbs = s.arbs := rfl
@[simp] theorem State.setFlag_lock (s : State) (k : Nat) (b : Bool) : (s.setFlag k b).lock = s.lock := rfl
@[simp] theorem State.setFlag_spine (s : State) (k : Nat) (b : Bool) : (s.setFlag k b).spine = s.spine := rfl
@[simp] theorem State.setFlag_cyn (s : State) (k : Nat) (b : Bool) : (s.setFlag k b).cyn = s.cyn := rfl
@[simp] theorem State.setFlag_bay (s : State) (k : Nat) (b : Bool) : (s.setFlag k b).bay = s.bay := rfl
@[simp] theorem State.setFlag_adc (s : State) (k : Nat) (b : Bool) : (s.setFlag k b).adc = s.adc := rfl
@[simp] theorem State.setFlag_sfu (s : State) (k : Nat) (b : Bool) : (s.setFlag k b).sfu = s.sfu := rfl
@[simp] theorem State.setFlag_tabWait (s : State) (k : Nat) (b : Bool) : (s.setFlag k b).tabWait = s.tabWait := rfl
@[simp] theorem State.setFlag_boot (s : State) (k : Nat) (b : Bool) : (s.setFlag k b).boot = s.boot := rfl
@[simp] theorem State.setFlag_serv (s : State) (k : Nat) (b : Bool) : (s.setFlag k b).serv = s.serv := rfl

/-! ### `count` changes `regs` alone -/

@[simp] theorem State.count_pending (s : State) (k w n : Nat) : (s.count k w n).pending = s.pending := rfl
@[simp] theorem State.count_fresh (s : State) (k w n : Nat) : (s.count k w n).fresh = s.fresh := rfl
@[simp] theorem State.count_shadow (s : State) (k w n : Nat) : (s.count k w n).shadow = s.shadow := rfl
@[simp] theorem State.count_crossing (s : State) (k w n : Nat) : (s.count k w n).crossing = s.crossing := rfl
@[simp] theorem State.count_rings (s : State) (k w n : Nat) : (s.count k w n).rings = s.rings := rfl
@[simp] theorem State.count_gring (s : State) (k w n : Nat) : (s.count k w n).gring = s.gring := rfl
@[simp] theorem State.count_dom (s : State) (k w n : Nat) : (s.count k w n).dom = s.dom := rfl
@[simp] theorem State.count_mem (s : State) (k w n : Nat) : (s.count k w n).mem = s.mem := rfl
@[simp] theorem State.count_harv (s : State) (k w n : Nat) : (s.count k w n).harv = s.harv := rfl
@[simp] theorem State.count_pmu (s : State) (k w n : Nat) : (s.count k w n).pmu = s.pmu := rfl
@[simp] theorem State.count_pins (s : State) (k w n : Nat) : (s.count k w n).pins = s.pins := rfl
@[simp] theorem State.count_clk (s : State) (k w n : Nat) : (s.count k w n).clk = s.clk := rfl
@[simp] theorem State.count_rtc (s : State) (k w n : Nat) : (s.count k w n).rtc = s.rtc := rfl
@[simp] theorem State.count_err (s : State) (k w n : Nat) : (s.count k w n).err = s.err := rfl
@[simp] theorem State.count_cores (s : State) (k w n : Nat) : (s.count k w n).cores = s.cores := rfl
@[simp] theorem State.count_irqEdge (s : State) (k w n : Nat) : (s.count k w n).irqEdge = s.irqEdge := rfl
@[simp] theorem State.count_slots (s : State) (k w n : Nat) : (s.count k w n).slots = s.slots := rfl
@[simp] theorem State.count_ten (s : State) (k w n : Nat) : (s.count k w n).ten = s.ten := rfl
@[simp] theorem State.count_cat (s : State) (k w n : Nat) : (s.count k w n).cat = s.cat := rfl
@[simp] theorem State.count_dma (s : State) (k w n : Nat) : (s.count k w n).dma = s.dma := rfl
@[simp] theorem State.count_crypt (s : State) (k w n : Nat) : (s.count k w n).crypt = s.crypt := rfl
@[simp] theorem State.count_arbs (s : State) (k w n : Nat) : (s.count k w n).arbs = s.arbs := rfl
@[simp] theorem State.count_lock (s : State) (k w n : Nat) : (s.count k w n).lock = s.lock := rfl
@[simp] theorem State.count_spine (s : State) (k w n : Nat) : (s.count k w n).spine = s.spine := rfl
@[simp] theorem State.count_cyn (s : State) (k w n : Nat) : (s.count k w n).cyn = s.cyn := rfl
@[simp] theorem State.count_bay (s : State) (k w n : Nat) : (s.count k w n).bay = s.bay := rfl
@[simp] theorem State.count_adc (s : State) (k w n : Nat) : (s.count k w n).adc = s.adc := rfl
@[simp] theorem State.count_sfu (s : State) (k w n : Nat) : (s.count k w n).sfu = s.sfu := rfl
@[simp] theorem State.count_tabWait (s : State) (k w n : Nat) : (s.count k w n).tabWait = s.tabWait := rfl
@[simp] theorem State.count_boot (s : State) (k w n : Nat) : (s.count k w n).boot = s.boot := rfl
@[simp] theorem State.count_serv (s : State) (k w n : Nat) : (s.count k w n).serv = s.serv := rfl

/-! ### `setShadow` changes `shadow` alone -/

@[simp] theorem State.setShadow_pending (s : State) (k : Nat) (v : Option Nat) : (s.setShadow k v).pending = s.pending := rfl
@[simp] theorem State.setShadow_fresh (s : State) (k : Nat) (v : Option Nat) : (s.setShadow k v).fresh = s.fresh := rfl
@[simp] theorem State.setShadow_regs (s : State) (k : Nat) (v : Option Nat) : (s.setShadow k v).regs = s.regs := rfl
@[simp] theorem State.setShadow_crossing (s : State) (k : Nat) (v : Option Nat) : (s.setShadow k v).crossing = s.crossing := rfl
@[simp] theorem State.setShadow_rings (s : State) (k : Nat) (v : Option Nat) : (s.setShadow k v).rings = s.rings := rfl
@[simp] theorem State.setShadow_gring (s : State) (k : Nat) (v : Option Nat) : (s.setShadow k v).gring = s.gring := rfl
@[simp] theorem State.setShadow_dom (s : State) (k : Nat) (v : Option Nat) : (s.setShadow k v).dom = s.dom := rfl
@[simp] theorem State.setShadow_mem (s : State) (k : Nat) (v : Option Nat) : (s.setShadow k v).mem = s.mem := rfl
@[simp] theorem State.setShadow_harv (s : State) (k : Nat) (v : Option Nat) : (s.setShadow k v).harv = s.harv := rfl
@[simp] theorem State.setShadow_pmu (s : State) (k : Nat) (v : Option Nat) : (s.setShadow k v).pmu = s.pmu := rfl
@[simp] theorem State.setShadow_pins (s : State) (k : Nat) (v : Option Nat) : (s.setShadow k v).pins = s.pins := rfl
@[simp] theorem State.setShadow_clk (s : State) (k : Nat) (v : Option Nat) : (s.setShadow k v).clk = s.clk := rfl
@[simp] theorem State.setShadow_rtc (s : State) (k : Nat) (v : Option Nat) : (s.setShadow k v).rtc = s.rtc := rfl
@[simp] theorem State.setShadow_err (s : State) (k : Nat) (v : Option Nat) : (s.setShadow k v).err = s.err := rfl
@[simp] theorem State.setShadow_cores (s : State) (k : Nat) (v : Option Nat) : (s.setShadow k v).cores = s.cores := rfl
@[simp] theorem State.setShadow_irqEdge (s : State) (k : Nat) (v : Option Nat) : (s.setShadow k v).irqEdge = s.irqEdge := rfl
@[simp] theorem State.setShadow_slots (s : State) (k : Nat) (v : Option Nat) : (s.setShadow k v).slots = s.slots := rfl
@[simp] theorem State.setShadow_ten (s : State) (k : Nat) (v : Option Nat) : (s.setShadow k v).ten = s.ten := rfl
@[simp] theorem State.setShadow_cat (s : State) (k : Nat) (v : Option Nat) : (s.setShadow k v).cat = s.cat := rfl
@[simp] theorem State.setShadow_dma (s : State) (k : Nat) (v : Option Nat) : (s.setShadow k v).dma = s.dma := rfl
@[simp] theorem State.setShadow_crypt (s : State) (k : Nat) (v : Option Nat) : (s.setShadow k v).crypt = s.crypt := rfl
@[simp] theorem State.setShadow_arbs (s : State) (k : Nat) (v : Option Nat) : (s.setShadow k v).arbs = s.arbs := rfl
@[simp] theorem State.setShadow_lock (s : State) (k : Nat) (v : Option Nat) : (s.setShadow k v).lock = s.lock := rfl
@[simp] theorem State.setShadow_spine (s : State) (k : Nat) (v : Option Nat) : (s.setShadow k v).spine = s.spine := rfl
@[simp] theorem State.setShadow_cyn (s : State) (k : Nat) (v : Option Nat) : (s.setShadow k v).cyn = s.cyn := rfl
@[simp] theorem State.setShadow_bay (s : State) (k : Nat) (v : Option Nat) : (s.setShadow k v).bay = s.bay := rfl
@[simp] theorem State.setShadow_adc (s : State) (k : Nat) (v : Option Nat) : (s.setShadow k v).adc = s.adc := rfl
@[simp] theorem State.setShadow_sfu (s : State) (k : Nat) (v : Option Nat) : (s.setShadow k v).sfu = s.sfu := rfl
@[simp] theorem State.setShadow_tabWait (s : State) (k : Nat) (v : Option Nat) : (s.setShadow k v).tabWait = s.tabWait := rfl
@[simp] theorem State.setShadow_boot (s : State) (k : Nat) (v : Option Nat) : (s.setShadow k v).boot = s.boot := rfl
@[simp] theorem State.setShadow_serv (s : State) (k : Nat) (v : Option Nat) : (s.setShadow k v).serv = s.serv := rfl

/-! ### `wr` changes `mem` alone -/

@[simp] theorem State.wr_pending (s : State) (a : Nat) (b : Byte) : (s.wr a b).pending = s.pending := rfl
@[simp] theorem State.wr_fresh (s : State) (a : Nat) (b : Byte) : (s.wr a b).fresh = s.fresh := rfl
@[simp] theorem State.wr_regs (s : State) (a : Nat) (b : Byte) : (s.wr a b).regs = s.regs := rfl
@[simp] theorem State.wr_shadow (s : State) (a : Nat) (b : Byte) : (s.wr a b).shadow = s.shadow := rfl
@[simp] theorem State.wr_crossing (s : State) (a : Nat) (b : Byte) : (s.wr a b).crossing = s.crossing := rfl
@[simp] theorem State.wr_rings (s : State) (a : Nat) (b : Byte) : (s.wr a b).rings = s.rings := rfl
@[simp] theorem State.wr_gring (s : State) (a : Nat) (b : Byte) : (s.wr a b).gring = s.gring := rfl
@[simp] theorem State.wr_dom (s : State) (a : Nat) (b : Byte) : (s.wr a b).dom = s.dom := rfl
@[simp] theorem State.wr_harv (s : State) (a : Nat) (b : Byte) : (s.wr a b).harv = s.harv := rfl
@[simp] theorem State.wr_pmu (s : State) (a : Nat) (b : Byte) : (s.wr a b).pmu = s.pmu := rfl
@[simp] theorem State.wr_pins (s : State) (a : Nat) (b : Byte) : (s.wr a b).pins = s.pins := rfl
@[simp] theorem State.wr_clk (s : State) (a : Nat) (b : Byte) : (s.wr a b).clk = s.clk := rfl
@[simp] theorem State.wr_rtc (s : State) (a : Nat) (b : Byte) : (s.wr a b).rtc = s.rtc := rfl
@[simp] theorem State.wr_err (s : State) (a : Nat) (b : Byte) : (s.wr a b).err = s.err := rfl
@[simp] theorem State.wr_cores (s : State) (a : Nat) (b : Byte) : (s.wr a b).cores = s.cores := rfl
@[simp] theorem State.wr_irqEdge (s : State) (a : Nat) (b : Byte) : (s.wr a b).irqEdge = s.irqEdge := rfl
@[simp] theorem State.wr_slots (s : State) (a : Nat) (b : Byte) : (s.wr a b).slots = s.slots := rfl
@[simp] theorem State.wr_ten (s : State) (a : Nat) (b : Byte) : (s.wr a b).ten = s.ten := rfl
@[simp] theorem State.wr_cat (s : State) (a : Nat) (b : Byte) : (s.wr a b).cat = s.cat := rfl
@[simp] theorem State.wr_dma (s : State) (a : Nat) (b : Byte) : (s.wr a b).dma = s.dma := rfl
@[simp] theorem State.wr_crypt (s : State) (a : Nat) (b : Byte) : (s.wr a b).crypt = s.crypt := rfl
@[simp] theorem State.wr_arbs (s : State) (a : Nat) (b : Byte) : (s.wr a b).arbs = s.arbs := rfl
@[simp] theorem State.wr_lock (s : State) (a : Nat) (b : Byte) : (s.wr a b).lock = s.lock := rfl
@[simp] theorem State.wr_spine (s : State) (a : Nat) (b : Byte) : (s.wr a b).spine = s.spine := rfl
@[simp] theorem State.wr_cyn (s : State) (a : Nat) (b : Byte) : (s.wr a b).cyn = s.cyn := rfl
@[simp] theorem State.wr_bay (s : State) (a : Nat) (b : Byte) : (s.wr a b).bay = s.bay := rfl
@[simp] theorem State.wr_adc (s : State) (a : Nat) (b : Byte) : (s.wr a b).adc = s.adc := rfl
@[simp] theorem State.wr_sfu (s : State) (a : Nat) (b : Byte) : (s.wr a b).sfu = s.sfu := rfl
@[simp] theorem State.wr_tabWait (s : State) (a : Nat) (b : Byte) : (s.wr a b).tabWait = s.tabWait := rfl
@[simp] theorem State.wr_boot (s : State) (a : Nat) (b : Byte) : (s.wr a b).boot = s.boot := rfl
@[simp] theorem State.wr_serv (s : State) (a : Nat) (b : Byte) : (s.wr a b).serv = s.serv := rfl

/-! ### `setDom` changes `dom` alone -/

@[simp] theorem State.setDom_pending (s : State) (d : Nat) (x : DomSt) : (s.setDom d x).pending = s.pending := rfl
@[simp] theorem State.setDom_fresh (s : State) (d : Nat) (x : DomSt) : (s.setDom d x).fresh = s.fresh := rfl
@[simp] theorem State.setDom_regs (s : State) (d : Nat) (x : DomSt) : (s.setDom d x).regs = s.regs := rfl
@[simp] theorem State.setDom_shadow (s : State) (d : Nat) (x : DomSt) : (s.setDom d x).shadow = s.shadow := rfl
@[simp] theorem State.setDom_crossing (s : State) (d : Nat) (x : DomSt) : (s.setDom d x).crossing = s.crossing := rfl
@[simp] theorem State.setDom_rings (s : State) (d : Nat) (x : DomSt) : (s.setDom d x).rings = s.rings := rfl
@[simp] theorem State.setDom_gring (s : State) (d : Nat) (x : DomSt) : (s.setDom d x).gring = s.gring := rfl
@[simp] theorem State.setDom_mem (s : State) (d : Nat) (x : DomSt) : (s.setDom d x).mem = s.mem := rfl
@[simp] theorem State.setDom_harv (s : State) (d : Nat) (x : DomSt) : (s.setDom d x).harv = s.harv := rfl
@[simp] theorem State.setDom_pmu (s : State) (d : Nat) (x : DomSt) : (s.setDom d x).pmu = s.pmu := rfl
@[simp] theorem State.setDom_pins (s : State) (d : Nat) (x : DomSt) : (s.setDom d x).pins = s.pins := rfl
@[simp] theorem State.setDom_clk (s : State) (d : Nat) (x : DomSt) : (s.setDom d x).clk = s.clk := rfl
@[simp] theorem State.setDom_rtc (s : State) (d : Nat) (x : DomSt) : (s.setDom d x).rtc = s.rtc := rfl
@[simp] theorem State.setDom_err (s : State) (d : Nat) (x : DomSt) : (s.setDom d x).err = s.err := rfl
@[simp] theorem State.setDom_cores (s : State) (d : Nat) (x : DomSt) : (s.setDom d x).cores = s.cores := rfl
@[simp] theorem State.setDom_irqEdge (s : State) (d : Nat) (x : DomSt) : (s.setDom d x).irqEdge = s.irqEdge := rfl
@[simp] theorem State.setDom_slots (s : State) (d : Nat) (x : DomSt) : (s.setDom d x).slots = s.slots := rfl
@[simp] theorem State.setDom_ten (s : State) (d : Nat) (x : DomSt) : (s.setDom d x).ten = s.ten := rfl
@[simp] theorem State.setDom_cat (s : State) (d : Nat) (x : DomSt) : (s.setDom d x).cat = s.cat := rfl
@[simp] theorem State.setDom_dma (s : State) (d : Nat) (x : DomSt) : (s.setDom d x).dma = s.dma := rfl
@[simp] theorem State.setDom_crypt (s : State) (d : Nat) (x : DomSt) : (s.setDom d x).crypt = s.crypt := rfl
@[simp] theorem State.setDom_arbs (s : State) (d : Nat) (x : DomSt) : (s.setDom d x).arbs = s.arbs := rfl
@[simp] theorem State.setDom_lock (s : State) (d : Nat) (x : DomSt) : (s.setDom d x).lock = s.lock := rfl
@[simp] theorem State.setDom_spine (s : State) (d : Nat) (x : DomSt) : (s.setDom d x).spine = s.spine := rfl
@[simp] theorem State.setDom_cyn (s : State) (d : Nat) (x : DomSt) : (s.setDom d x).cyn = s.cyn := rfl
@[simp] theorem State.setDom_bay (s : State) (d : Nat) (x : DomSt) : (s.setDom d x).bay = s.bay := rfl
@[simp] theorem State.setDom_adc (s : State) (d : Nat) (x : DomSt) : (s.setDom d x).adc = s.adc := rfl
@[simp] theorem State.setDom_sfu (s : State) (d : Nat) (x : DomSt) : (s.setDom d x).sfu = s.sfu := rfl
@[simp] theorem State.setDom_tabWait (s : State) (d : Nat) (x : DomSt) : (s.setDom d x).tabWait = s.tabWait := rfl
@[simp] theorem State.setDom_boot (s : State) (d : Nat) (x : DomSt) : (s.setDom d x).boot = s.boot := rfl
@[simp] theorem State.setDom_serv (s : State) (d : Nat) (x : DomSt) : (s.setDom d x).serv = s.serv := rfl

/-! ### `setRing` changes `rings` alone -/

@[simp] theorem State.setRing_pending (s : State) (b : Nat) (r : Ring) : (s.setRing b r).pending = s.pending := rfl
@[simp] theorem State.setRing_fresh (s : State) (b : Nat) (r : Ring) : (s.setRing b r).fresh = s.fresh := rfl
@[simp] theorem State.setRing_regs (s : State) (b : Nat) (r : Ring) : (s.setRing b r).regs = s.regs := rfl
@[simp] theorem State.setRing_shadow (s : State) (b : Nat) (r : Ring) : (s.setRing b r).shadow = s.shadow := rfl
@[simp] theorem State.setRing_crossing (s : State) (b : Nat) (r : Ring) : (s.setRing b r).crossing = s.crossing := rfl
@[simp] theorem State.setRing_gring (s : State) (b : Nat) (r : Ring) : (s.setRing b r).gring = s.gring := rfl
@[simp] theorem State.setRing_dom (s : State) (b : Nat) (r : Ring) : (s.setRing b r).dom = s.dom := rfl
@[simp] theorem State.setRing_mem (s : State) (b : Nat) (r : Ring) : (s.setRing b r).mem = s.mem := rfl
@[simp] theorem State.setRing_harv (s : State) (b : Nat) (r : Ring) : (s.setRing b r).harv = s.harv := rfl
@[simp] theorem State.setRing_pmu (s : State) (b : Nat) (r : Ring) : (s.setRing b r).pmu = s.pmu := rfl
@[simp] theorem State.setRing_pins (s : State) (b : Nat) (r : Ring) : (s.setRing b r).pins = s.pins := rfl
@[simp] theorem State.setRing_clk (s : State) (b : Nat) (r : Ring) : (s.setRing b r).clk = s.clk := rfl
@[simp] theorem State.setRing_rtc (s : State) (b : Nat) (r : Ring) : (s.setRing b r).rtc = s.rtc := rfl
@[simp] theorem State.setRing_err (s : State) (b : Nat) (r : Ring) : (s.setRing b r).err = s.err := rfl
@[simp] theorem State.setRing_cores (s : State) (b : Nat) (r : Ring) : (s.setRing b r).cores = s.cores := rfl
@[simp] theorem State.setRing_irqEdge (s : State) (b : Nat) (r : Ring) : (s.setRing b r).irqEdge = s.irqEdge := rfl
@[simp] theorem State.setRing_slots (s : State) (b : Nat) (r : Ring) : (s.setRing b r).slots = s.slots := rfl
@[simp] theorem State.setRing_ten (s : State) (b : Nat) (r : Ring) : (s.setRing b r).ten = s.ten := rfl
@[simp] theorem State.setRing_cat (s : State) (b : Nat) (r : Ring) : (s.setRing b r).cat = s.cat := rfl
@[simp] theorem State.setRing_dma (s : State) (b : Nat) (r : Ring) : (s.setRing b r).dma = s.dma := rfl
@[simp] theorem State.setRing_crypt (s : State) (b : Nat) (r : Ring) : (s.setRing b r).crypt = s.crypt := rfl
@[simp] theorem State.setRing_arbs (s : State) (b : Nat) (r : Ring) : (s.setRing b r).arbs = s.arbs := rfl
@[simp] theorem State.setRing_lock (s : State) (b : Nat) (r : Ring) : (s.setRing b r).lock = s.lock := rfl
@[simp] theorem State.setRing_spine (s : State) (b : Nat) (r : Ring) : (s.setRing b r).spine = s.spine := rfl
@[simp] theorem State.setRing_cyn (s : State) (b : Nat) (r : Ring) : (s.setRing b r).cyn = s.cyn := rfl
@[simp] theorem State.setRing_bay (s : State) (b : Nat) (r : Ring) : (s.setRing b r).bay = s.bay := rfl
@[simp] theorem State.setRing_adc (s : State) (b : Nat) (r : Ring) : (s.setRing b r).adc = s.adc := rfl
@[simp] theorem State.setRing_sfu (s : State) (b : Nat) (r : Ring) : (s.setRing b r).sfu = s.sfu := rfl
@[simp] theorem State.setRing_tabWait (s : State) (b : Nat) (r : Ring) : (s.setRing b r).tabWait = s.tabWait := rfl
@[simp] theorem State.setRing_boot (s : State) (b : Nat) (r : Ring) : (s.setRing b r).boot = s.boot := rfl
@[simp] theorem State.setRing_serv (s : State) (b : Nat) (r : Ring) : (s.setRing b r).serv = s.serv := rfl

/-! ### `reef1Leave` changes the level alone, `irq` that and `irqEdge` -/

/-- Leaving Reef 1 writes the level, or does nothing. -/
theorem State.reef1Leave_eq (s : State) : s.reef1Leave = s ∨ (s.reg kLevel = 1 ∧ s.reef1Leave = s.setReg kLevel 0) := by
  unfold State.reef1Leave
  split
  · exact .inr ⟨‹_›, rfl⟩
  · exact .inl rfl

theorem State.reg_reef1Leave (s : State) (j : Nat) (h : j ≠ kLevel) : s.reef1Leave.reg j = s.reg j := by
  rcases s.reef1Leave_eq with e | ⟨_, e⟩ <;> rw [e]
  simp [State.reg, State.setReg, Tab.get_set_other _ _ _ _ _ (Ne.symm h)]

/-- An interrupt edge sets its bit, and may leave Reef 1. -/
theorem State.irq_eq (s : State) (n : Nat) : ∃ r e, s.irq n = { s with regs := r, irqEdge := e } := by
  unfold State.irq State.reef1Leave
  dsimp only
  repeat' split
  all_goals exact ⟨_, _, rfl⟩

theorem State.reg_irq (s : State) (n j : Nat) (h : j ≠ kLevel) : (s.irq n).reg j = s.reg j := by
  unfold State.irq
  dsimp only
  split
  · exact State.reg_reef1Leave _ j h
  · rfl

theorem State.flag_irq (s : State) (n j : Nat) (h : j ≠ kLevel) : (s.irq n).flag j = s.flag j := by
  simp [State.flag, s.reg_irq n j h]

@[simp] theorem State.irq_pending (s : State) (n : Nat) : (s.irq n).pending = s.pending := by
  obtain ⟨_, _, h⟩ := s.irq_eq n; rw [h]
@[simp] theorem State.irq_fresh (s : State) (n : Nat) : (s.irq n).fresh = s.fresh := by
  obtain ⟨_, _, h⟩ := s.irq_eq n; rw [h]
@[simp] theorem State.irq_shadow (s : State) (n : Nat) : (s.irq n).shadow = s.shadow := by
  obtain ⟨_, _, h⟩ := s.irq_eq n; rw [h]
@[simp] theorem State.irq_crossing (s : State) (n : Nat) : (s.irq n).crossing = s.crossing := by
  obtain ⟨_, _, h⟩ := s.irq_eq n; rw [h]
@[simp] theorem State.irq_rings (s : State) (n : Nat) : (s.irq n).rings = s.rings := by
  obtain ⟨_, _, h⟩ := s.irq_eq n; rw [h]
@[simp] theorem State.irq_gring (s : State) (n : Nat) : (s.irq n).gring = s.gring := by
  obtain ⟨_, _, h⟩ := s.irq_eq n; rw [h]
@[simp] theorem State.irq_dom (s : State) (n : Nat) : (s.irq n).dom = s.dom := by
  obtain ⟨_, _, h⟩ := s.irq_eq n; rw [h]
@[simp] theorem State.irq_mem (s : State) (n : Nat) : (s.irq n).mem = s.mem := by
  obtain ⟨_, _, h⟩ := s.irq_eq n; rw [h]
@[simp] theorem State.irq_harv (s : State) (n : Nat) : (s.irq n).harv = s.harv := by
  obtain ⟨_, _, h⟩ := s.irq_eq n; rw [h]
@[simp] theorem State.irq_pmu (s : State) (n : Nat) : (s.irq n).pmu = s.pmu := by
  obtain ⟨_, _, h⟩ := s.irq_eq n; rw [h]
@[simp] theorem State.irq_pins (s : State) (n : Nat) : (s.irq n).pins = s.pins := by
  obtain ⟨_, _, h⟩ := s.irq_eq n; rw [h]
@[simp] theorem State.irq_clk (s : State) (n : Nat) : (s.irq n).clk = s.clk := by
  obtain ⟨_, _, h⟩ := s.irq_eq n; rw [h]
@[simp] theorem State.irq_rtc (s : State) (n : Nat) : (s.irq n).rtc = s.rtc := by
  obtain ⟨_, _, h⟩ := s.irq_eq n; rw [h]
@[simp] theorem State.irq_err (s : State) (n : Nat) : (s.irq n).err = s.err := by
  obtain ⟨_, _, h⟩ := s.irq_eq n; rw [h]
@[simp] theorem State.irq_cores (s : State) (n : Nat) : (s.irq n).cores = s.cores := by
  obtain ⟨_, _, h⟩ := s.irq_eq n; rw [h]
@[simp] theorem State.irq_slots (s : State) (n : Nat) : (s.irq n).slots = s.slots := by
  obtain ⟨_, _, h⟩ := s.irq_eq n; rw [h]
@[simp] theorem State.irq_ten (s : State) (n : Nat) : (s.irq n).ten = s.ten := by
  obtain ⟨_, _, h⟩ := s.irq_eq n; rw [h]
@[simp] theorem State.irq_cat (s : State) (n : Nat) : (s.irq n).cat = s.cat := by
  obtain ⟨_, _, h⟩ := s.irq_eq n; rw [h]
@[simp] theorem State.irq_dma (s : State) (n : Nat) : (s.irq n).dma = s.dma := by
  obtain ⟨_, _, h⟩ := s.irq_eq n; rw [h]
@[simp] theorem State.irq_crypt (s : State) (n : Nat) : (s.irq n).crypt = s.crypt := by
  obtain ⟨_, _, h⟩ := s.irq_eq n; rw [h]
@[simp] theorem State.irq_arbs (s : State) (n : Nat) : (s.irq n).arbs = s.arbs := by
  obtain ⟨_, _, h⟩ := s.irq_eq n; rw [h]
@[simp] theorem State.irq_lock (s : State) (n : Nat) : (s.irq n).lock = s.lock := by
  obtain ⟨_, _, h⟩ := s.irq_eq n; rw [h]
@[simp] theorem State.irq_spine (s : State) (n : Nat) : (s.irq n).spine = s.spine := by
  obtain ⟨_, _, h⟩ := s.irq_eq n; rw [h]
@[simp] theorem State.irq_cyn (s : State) (n : Nat) : (s.irq n).cyn = s.cyn := by
  obtain ⟨_, _, h⟩ := s.irq_eq n; rw [h]
@[simp] theorem State.irq_bay (s : State) (n : Nat) : (s.irq n).bay = s.bay := by
  obtain ⟨_, _, h⟩ := s.irq_eq n; rw [h]
@[simp] theorem State.irq_adc (s : State) (n : Nat) : (s.irq n).adc = s.adc := by
  obtain ⟨_, _, h⟩ := s.irq_eq n; rw [h]
@[simp] theorem State.irq_sfu (s : State) (n : Nat) : (s.irq n).sfu = s.sfu := by
  obtain ⟨_, _, h⟩ := s.irq_eq n; rw [h]
@[simp] theorem State.irq_tabWait (s : State) (n : Nat) : (s.irq n).tabWait = s.tabWait := by
  obtain ⟨_, _, h⟩ := s.irq_eq n; rw [h]
@[simp] theorem State.irq_boot (s : State) (n : Nat) : (s.irq n).boot = s.boot := by
  obtain ⟨_, _, h⟩ := s.irq_eq n; rw [h]
@[simp] theorem State.irq_serv (s : State) (n : Nat) : (s.irq n).serv = s.serv := by
  obtain ⟨_, _, h⟩ := s.irq_eq n; rw [h]

/-! ### `setCore` changes `cores` alone -/

@[simp] theorem State.setCore_pending (s : State) (c : Nat) (x : Core) : (s.setCore c x).pending = s.pending := rfl
@[simp] theorem State.setCore_fresh (s : State) (c : Nat) (x : Core) : (s.setCore c x).fresh = s.fresh := rfl
@[simp] theorem State.setCore_regs (s : State) (c : Nat) (x : Core) : (s.setCore c x).regs = s.regs := rfl
@[simp] theorem State.setCore_shadow (s : State) (c : Nat) (x : Core) : (s.setCore c x).shadow = s.shadow := rfl
@[simp] theorem State.setCore_crossing (s : State) (c : Nat) (x : Core) : (s.setCore c x).crossing = s.crossing := rfl
@[simp] theorem State.setCore_rings (s : State) (c : Nat) (x : Core) : (s.setCore c x).rings = s.rings := rfl
@[simp] theorem State.setCore_gring (s : State) (c : Nat) (x : Core) : (s.setCore c x).gring = s.gring := rfl
@[simp] theorem State.setCore_dom (s : State) (c : Nat) (x : Core) : (s.setCore c x).dom = s.dom := rfl
@[simp] theorem State.setCore_mem (s : State) (c : Nat) (x : Core) : (s.setCore c x).mem = s.mem := rfl
@[simp] theorem State.setCore_harv (s : State) (c : Nat) (x : Core) : (s.setCore c x).harv = s.harv := rfl
@[simp] theorem State.setCore_pmu (s : State) (c : Nat) (x : Core) : (s.setCore c x).pmu = s.pmu := rfl
@[simp] theorem State.setCore_pins (s : State) (c : Nat) (x : Core) : (s.setCore c x).pins = s.pins := rfl
@[simp] theorem State.setCore_clk (s : State) (c : Nat) (x : Core) : (s.setCore c x).clk = s.clk := rfl
@[simp] theorem State.setCore_rtc (s : State) (c : Nat) (x : Core) : (s.setCore c x).rtc = s.rtc := rfl
@[simp] theorem State.setCore_err (s : State) (c : Nat) (x : Core) : (s.setCore c x).err = s.err := rfl
@[simp] theorem State.setCore_irqEdge (s : State) (c : Nat) (x : Core) : (s.setCore c x).irqEdge = s.irqEdge := rfl
@[simp] theorem State.setCore_slots (s : State) (c : Nat) (x : Core) : (s.setCore c x).slots = s.slots := rfl
@[simp] theorem State.setCore_ten (s : State) (c : Nat) (x : Core) : (s.setCore c x).ten = s.ten := rfl
@[simp] theorem State.setCore_cat (s : State) (c : Nat) (x : Core) : (s.setCore c x).cat = s.cat := rfl
@[simp] theorem State.setCore_dma (s : State) (c : Nat) (x : Core) : (s.setCore c x).dma = s.dma := rfl
@[simp] theorem State.setCore_crypt (s : State) (c : Nat) (x : Core) : (s.setCore c x).crypt = s.crypt := rfl
@[simp] theorem State.setCore_arbs (s : State) (c : Nat) (x : Core) : (s.setCore c x).arbs = s.arbs := rfl
@[simp] theorem State.setCore_lock (s : State) (c : Nat) (x : Core) : (s.setCore c x).lock = s.lock := rfl
@[simp] theorem State.setCore_spine (s : State) (c : Nat) (x : Core) : (s.setCore c x).spine = s.spine := rfl
@[simp] theorem State.setCore_cyn (s : State) (c : Nat) (x : Core) : (s.setCore c x).cyn = s.cyn := rfl
@[simp] theorem State.setCore_bay (s : State) (c : Nat) (x : Core) : (s.setCore c x).bay = s.bay := rfl
@[simp] theorem State.setCore_adc (s : State) (c : Nat) (x : Core) : (s.setCore c x).adc = s.adc := rfl
@[simp] theorem State.setCore_sfu (s : State) (c : Nat) (x : Core) : (s.setCore c x).sfu = s.sfu := rfl
@[simp] theorem State.setCore_tabWait (s : State) (c : Nat) (x : Core) : (s.setCore c x).tabWait = s.tabWait := rfl
@[simp] theorem State.setCore_boot (s : State) (c : Nat) (x : Core) : (s.setCore c x).boot = s.boot := rfl
@[simp] theorem State.setCore_serv (s : State) (c : Nat) (x : Core) : (s.setCore c x).serv = s.serv := rfl

/-! ### `setSlot` changes `slots` alone -/

@[simp] theorem State.setSlot_pending (s : State) (n : Nat) (x : Slot) : (s.setSlot n x).pending = s.pending := rfl
@[simp] theorem State.setSlot_fresh (s : State) (n : Nat) (x : Slot) : (s.setSlot n x).fresh = s.fresh := rfl
@[simp] theorem State.setSlot_regs (s : State) (n : Nat) (x : Slot) : (s.setSlot n x).regs = s.regs := rfl
@[simp] theorem State.setSlot_shadow (s : State) (n : Nat) (x : Slot) : (s.setSlot n x).shadow = s.shadow := rfl
@[simp] theorem State.setSlot_crossing (s : State) (n : Nat) (x : Slot) : (s.setSlot n x).crossing = s.crossing := rfl
@[simp] theorem State.setSlot_rings (s : State) (n : Nat) (x : Slot) : (s.setSlot n x).rings = s.rings := rfl
@[simp] theorem State.setSlot_gring (s : State) (n : Nat) (x : Slot) : (s.setSlot n x).gring = s.gring := rfl
@[simp] theorem State.setSlot_dom (s : State) (n : Nat) (x : Slot) : (s.setSlot n x).dom = s.dom := rfl
@[simp] theorem State.setSlot_mem (s : State) (n : Nat) (x : Slot) : (s.setSlot n x).mem = s.mem := rfl
@[simp] theorem State.setSlot_harv (s : State) (n : Nat) (x : Slot) : (s.setSlot n x).harv = s.harv := rfl
@[simp] theorem State.setSlot_pmu (s : State) (n : Nat) (x : Slot) : (s.setSlot n x).pmu = s.pmu := rfl
@[simp] theorem State.setSlot_pins (s : State) (n : Nat) (x : Slot) : (s.setSlot n x).pins = s.pins := rfl
@[simp] theorem State.setSlot_clk (s : State) (n : Nat) (x : Slot) : (s.setSlot n x).clk = s.clk := rfl
@[simp] theorem State.setSlot_rtc (s : State) (n : Nat) (x : Slot) : (s.setSlot n x).rtc = s.rtc := rfl
@[simp] theorem State.setSlot_err (s : State) (n : Nat) (x : Slot) : (s.setSlot n x).err = s.err := rfl
@[simp] theorem State.setSlot_cores (s : State) (n : Nat) (x : Slot) : (s.setSlot n x).cores = s.cores := rfl
@[simp] theorem State.setSlot_irqEdge (s : State) (n : Nat) (x : Slot) : (s.setSlot n x).irqEdge = s.irqEdge := rfl
@[simp] theorem State.setSlot_ten (s : State) (n : Nat) (x : Slot) : (s.setSlot n x).ten = s.ten := rfl
@[simp] theorem State.setSlot_cat (s : State) (n : Nat) (x : Slot) : (s.setSlot n x).cat = s.cat := rfl
@[simp] theorem State.setSlot_dma (s : State) (n : Nat) (x : Slot) : (s.setSlot n x).dma = s.dma := rfl
@[simp] theorem State.setSlot_crypt (s : State) (n : Nat) (x : Slot) : (s.setSlot n x).crypt = s.crypt := rfl
@[simp] theorem State.setSlot_arbs (s : State) (n : Nat) (x : Slot) : (s.setSlot n x).arbs = s.arbs := rfl
@[simp] theorem State.setSlot_lock (s : State) (n : Nat) (x : Slot) : (s.setSlot n x).lock = s.lock := rfl
@[simp] theorem State.setSlot_spine (s : State) (n : Nat) (x : Slot) : (s.setSlot n x).spine = s.spine := rfl
@[simp] theorem State.setSlot_cyn (s : State) (n : Nat) (x : Slot) : (s.setSlot n x).cyn = s.cyn := rfl
@[simp] theorem State.setSlot_bay (s : State) (n : Nat) (x : Slot) : (s.setSlot n x).bay = s.bay := rfl
@[simp] theorem State.setSlot_adc (s : State) (n : Nat) (x : Slot) : (s.setSlot n x).adc = s.adc := rfl
@[simp] theorem State.setSlot_sfu (s : State) (n : Nat) (x : Slot) : (s.setSlot n x).sfu = s.sfu := rfl
@[simp] theorem State.setSlot_tabWait (s : State) (n : Nat) (x : Slot) : (s.setSlot n x).tabWait = s.tabWait := rfl
@[simp] theorem State.setSlot_boot (s : State) (n : Nat) (x : Slot) : (s.setSlot n x).boot = s.boot := rfl
@[simp] theorem State.setSlot_serv (s : State) (n : Nat) (x : Slot) : (s.setSlot n x).serv = s.serv := rfl

/-! ### `setTenState` changes `ten` alone -/

@[simp] theorem State.setTenState_pending (s : State) (t v : Nat) : (s.setTenState t v).pending = s.pending := rfl
@[simp] theorem State.setTenState_fresh (s : State) (t v : Nat) : (s.setTenState t v).fresh = s.fresh := rfl
@[simp] theorem State.setTenState_regs (s : State) (t v : Nat) : (s.setTenState t v).regs = s.regs := rfl
@[simp] theorem State.setTenState_shadow (s : State) (t v : Nat) : (s.setTenState t v).shadow = s.shadow := rfl
@[simp] theorem State.setTenState_crossing (s : State) (t v : Nat) : (s.setTenState t v).crossing = s.crossing := rfl
@[simp] theorem State.setTenState_rings (s : State) (t v : Nat) : (s.setTenState t v).rings = s.rings := rfl
@[simp] theorem State.setTenState_gring (s : State) (t v : Nat) : (s.setTenState t v).gring = s.gring := rfl
@[simp] theorem State.setTenState_dom (s : State) (t v : Nat) : (s.setTenState t v).dom = s.dom := rfl
@[simp] theorem State.setTenState_mem (s : State) (t v : Nat) : (s.setTenState t v).mem = s.mem := rfl
@[simp] theorem State.setTenState_harv (s : State) (t v : Nat) : (s.setTenState t v).harv = s.harv := rfl
@[simp] theorem State.setTenState_pmu (s : State) (t v : Nat) : (s.setTenState t v).pmu = s.pmu := rfl
@[simp] theorem State.setTenState_pins (s : State) (t v : Nat) : (s.setTenState t v).pins = s.pins := rfl
@[simp] theorem State.setTenState_clk (s : State) (t v : Nat) : (s.setTenState t v).clk = s.clk := rfl
@[simp] theorem State.setTenState_rtc (s : State) (t v : Nat) : (s.setTenState t v).rtc = s.rtc := rfl
@[simp] theorem State.setTenState_err (s : State) (t v : Nat) : (s.setTenState t v).err = s.err := rfl
@[simp] theorem State.setTenState_cores (s : State) (t v : Nat) : (s.setTenState t v).cores = s.cores := rfl
@[simp] theorem State.setTenState_irqEdge (s : State) (t v : Nat) : (s.setTenState t v).irqEdge = s.irqEdge := rfl
@[simp] theorem State.setTenState_slots (s : State) (t v : Nat) : (s.setTenState t v).slots = s.slots := rfl
@[simp] theorem State.setTenState_cat (s : State) (t v : Nat) : (s.setTenState t v).cat = s.cat := rfl
@[simp] theorem State.setTenState_dma (s : State) (t v : Nat) : (s.setTenState t v).dma = s.dma := rfl
@[simp] theorem State.setTenState_crypt (s : State) (t v : Nat) : (s.setTenState t v).crypt = s.crypt := rfl
@[simp] theorem State.setTenState_arbs (s : State) (t v : Nat) : (s.setTenState t v).arbs = s.arbs := rfl
@[simp] theorem State.setTenState_lock (s : State) (t v : Nat) : (s.setTenState t v).lock = s.lock := rfl
@[simp] theorem State.setTenState_spine (s : State) (t v : Nat) : (s.setTenState t v).spine = s.spine := rfl
@[simp] theorem State.setTenState_cyn (s : State) (t v : Nat) : (s.setTenState t v).cyn = s.cyn := rfl
@[simp] theorem State.setTenState_bay (s : State) (t v : Nat) : (s.setTenState t v).bay = s.bay := rfl
@[simp] theorem State.setTenState_adc (s : State) (t v : Nat) : (s.setTenState t v).adc = s.adc := rfl
@[simp] theorem State.setTenState_sfu (s : State) (t v : Nat) : (s.setTenState t v).sfu = s.sfu := rfl
@[simp] theorem State.setTenState_tabWait (s : State) (t v : Nat) : (s.setTenState t v).tabWait = s.tabWait := rfl
@[simp] theorem State.setTenState_boot (s : State) (t v : Nat) : (s.setTenState t v).boot = s.boot := rfl
@[simp] theorem State.setTenState_serv (s : State) (t v : Nat) : (s.setTenState t v).serv = s.serv := rfl

/-! ### `setCleat` changes `lock` alone -/

@[simp] theorem State.setCleat_pending (s : State) (c : Nat) (x : Cleat) : (s.setCleat c x).pending = s.pending := rfl
@[simp] theorem State.setCleat_fresh (s : State) (c : Nat) (x : Cleat) : (s.setCleat c x).fresh = s.fresh := rfl
@[simp] theorem State.setCleat_regs (s : State) (c : Nat) (x : Cleat) : (s.setCleat c x).regs = s.regs := rfl
@[simp] theorem State.setCleat_shadow (s : State) (c : Nat) (x : Cleat) : (s.setCleat c x).shadow = s.shadow := rfl
@[simp] theorem State.setCleat_crossing (s : State) (c : Nat) (x : Cleat) : (s.setCleat c x).crossing = s.crossing := rfl
@[simp] theorem State.setCleat_rings (s : State) (c : Nat) (x : Cleat) : (s.setCleat c x).rings = s.rings := rfl
@[simp] theorem State.setCleat_gring (s : State) (c : Nat) (x : Cleat) : (s.setCleat c x).gring = s.gring := rfl
@[simp] theorem State.setCleat_dom (s : State) (c : Nat) (x : Cleat) : (s.setCleat c x).dom = s.dom := rfl
@[simp] theorem State.setCleat_mem (s : State) (c : Nat) (x : Cleat) : (s.setCleat c x).mem = s.mem := rfl
@[simp] theorem State.setCleat_harv (s : State) (c : Nat) (x : Cleat) : (s.setCleat c x).harv = s.harv := rfl
@[simp] theorem State.setCleat_pmu (s : State) (c : Nat) (x : Cleat) : (s.setCleat c x).pmu = s.pmu := rfl
@[simp] theorem State.setCleat_pins (s : State) (c : Nat) (x : Cleat) : (s.setCleat c x).pins = s.pins := rfl
@[simp] theorem State.setCleat_clk (s : State) (c : Nat) (x : Cleat) : (s.setCleat c x).clk = s.clk := rfl
@[simp] theorem State.setCleat_rtc (s : State) (c : Nat) (x : Cleat) : (s.setCleat c x).rtc = s.rtc := rfl
@[simp] theorem State.setCleat_err (s : State) (c : Nat) (x : Cleat) : (s.setCleat c x).err = s.err := rfl
@[simp] theorem State.setCleat_cores (s : State) (c : Nat) (x : Cleat) : (s.setCleat c x).cores = s.cores := rfl
@[simp] theorem State.setCleat_irqEdge (s : State) (c : Nat) (x : Cleat) : (s.setCleat c x).irqEdge = s.irqEdge := rfl
@[simp] theorem State.setCleat_slots (s : State) (c : Nat) (x : Cleat) : (s.setCleat c x).slots = s.slots := rfl
@[simp] theorem State.setCleat_ten (s : State) (c : Nat) (x : Cleat) : (s.setCleat c x).ten = s.ten := rfl
@[simp] theorem State.setCleat_cat (s : State) (c : Nat) (x : Cleat) : (s.setCleat c x).cat = s.cat := rfl
@[simp] theorem State.setCleat_dma (s : State) (c : Nat) (x : Cleat) : (s.setCleat c x).dma = s.dma := rfl
@[simp] theorem State.setCleat_crypt (s : State) (c : Nat) (x : Cleat) : (s.setCleat c x).crypt = s.crypt := rfl
@[simp] theorem State.setCleat_arbs (s : State) (c : Nat) (x : Cleat) : (s.setCleat c x).arbs = s.arbs := rfl
@[simp] theorem State.setCleat_spine (s : State) (c : Nat) (x : Cleat) : (s.setCleat c x).spine = s.spine := rfl
@[simp] theorem State.setCleat_cyn (s : State) (c : Nat) (x : Cleat) : (s.setCleat c x).cyn = s.cyn := rfl
@[simp] theorem State.setCleat_bay (s : State) (c : Nat) (x : Cleat) : (s.setCleat c x).bay = s.bay := rfl
@[simp] theorem State.setCleat_adc (s : State) (c : Nat) (x : Cleat) : (s.setCleat c x).adc = s.adc := rfl
@[simp] theorem State.setCleat_sfu (s : State) (c : Nat) (x : Cleat) : (s.setCleat c x).sfu = s.sfu := rfl
@[simp] theorem State.setCleat_tabWait (s : State) (c : Nat) (x : Cleat) : (s.setCleat c x).tabWait = s.tabWait := rfl
@[simp] theorem State.setCleat_boot (s : State) (c : Nat) (x : Cleat) : (s.setCleat c x).boot = s.boot := rfl
@[simp] theorem State.setCleat_serv (s : State) (c : Nat) (x : Cleat) : (s.setCleat c x).serv = s.serv := rfl

/-! ### `setWait` changes `lock` alone -/

@[simp] theorem State.setWait_pending (s : State) (w : WaitRec) : (s.setWait w).pending = s.pending := rfl
@[simp] theorem State.setWait_fresh (s : State) (w : WaitRec) : (s.setWait w).fresh = s.fresh := rfl
@[simp] theorem State.setWait_regs (s : State) (w : WaitRec) : (s.setWait w).regs = s.regs := rfl
@[simp] theorem State.setWait_shadow (s : State) (w : WaitRec) : (s.setWait w).shadow = s.shadow := rfl
@[simp] theorem State.setWait_crossing (s : State) (w : WaitRec) : (s.setWait w).crossing = s.crossing := rfl
@[simp] theorem State.setWait_rings (s : State) (w : WaitRec) : (s.setWait w).rings = s.rings := rfl
@[simp] theorem State.setWait_gring (s : State) (w : WaitRec) : (s.setWait w).gring = s.gring := rfl
@[simp] theorem State.setWait_dom (s : State) (w : WaitRec) : (s.setWait w).dom = s.dom := rfl
@[simp] theorem State.setWait_mem (s : State) (w : WaitRec) : (s.setWait w).mem = s.mem := rfl
@[simp] theorem State.setWait_harv (s : State) (w : WaitRec) : (s.setWait w).harv = s.harv := rfl
@[simp] theorem State.setWait_pmu (s : State) (w : WaitRec) : (s.setWait w).pmu = s.pmu := rfl
@[simp] theorem State.setWait_pins (s : State) (w : WaitRec) : (s.setWait w).pins = s.pins := rfl
@[simp] theorem State.setWait_clk (s : State) (w : WaitRec) : (s.setWait w).clk = s.clk := rfl
@[simp] theorem State.setWait_rtc (s : State) (w : WaitRec) : (s.setWait w).rtc = s.rtc := rfl
@[simp] theorem State.setWait_err (s : State) (w : WaitRec) : (s.setWait w).err = s.err := rfl
@[simp] theorem State.setWait_cores (s : State) (w : WaitRec) : (s.setWait w).cores = s.cores := rfl
@[simp] theorem State.setWait_irqEdge (s : State) (w : WaitRec) : (s.setWait w).irqEdge = s.irqEdge := rfl
@[simp] theorem State.setWait_slots (s : State) (w : WaitRec) : (s.setWait w).slots = s.slots := rfl
@[simp] theorem State.setWait_ten (s : State) (w : WaitRec) : (s.setWait w).ten = s.ten := rfl
@[simp] theorem State.setWait_cat (s : State) (w : WaitRec) : (s.setWait w).cat = s.cat := rfl
@[simp] theorem State.setWait_dma (s : State) (w : WaitRec) : (s.setWait w).dma = s.dma := rfl
@[simp] theorem State.setWait_crypt (s : State) (w : WaitRec) : (s.setWait w).crypt = s.crypt := rfl
@[simp] theorem State.setWait_arbs (s : State) (w : WaitRec) : (s.setWait w).arbs = s.arbs := rfl
@[simp] theorem State.setWait_spine (s : State) (w : WaitRec) : (s.setWait w).spine = s.spine := rfl
@[simp] theorem State.setWait_cyn (s : State) (w : WaitRec) : (s.setWait w).cyn = s.cyn := rfl
@[simp] theorem State.setWait_bay (s : State) (w : WaitRec) : (s.setWait w).bay = s.bay := rfl
@[simp] theorem State.setWait_adc (s : State) (w : WaitRec) : (s.setWait w).adc = s.adc := rfl
@[simp] theorem State.setWait_sfu (s : State) (w : WaitRec) : (s.setWait w).sfu = s.sfu := rfl
@[simp] theorem State.setWait_tabWait (s : State) (w : WaitRec) : (s.setWait w).tabWait = s.tabWait := rfl
@[simp] theorem State.setWait_boot (s : State) (w : WaitRec) : (s.setWait w).boot = s.boot := rfl
@[simp] theorem State.setWait_serv (s : State) (w : WaitRec) : (s.setWait w).serv = s.serv := rfl

/-! ### `dropWait` changes `lock` alone -/

@[simp] theorem State.dropWait_pending (s : State) (c : Nat) : (s.dropWait c).pending = s.pending := rfl
@[simp] theorem State.dropWait_fresh (s : State) (c : Nat) : (s.dropWait c).fresh = s.fresh := rfl
@[simp] theorem State.dropWait_regs (s : State) (c : Nat) : (s.dropWait c).regs = s.regs := rfl
@[simp] theorem State.dropWait_shadow (s : State) (c : Nat) : (s.dropWait c).shadow = s.shadow := rfl
@[simp] theorem State.dropWait_crossing (s : State) (c : Nat) : (s.dropWait c).crossing = s.crossing := rfl
@[simp] theorem State.dropWait_rings (s : State) (c : Nat) : (s.dropWait c).rings = s.rings := rfl
@[simp] theorem State.dropWait_gring (s : State) (c : Nat) : (s.dropWait c).gring = s.gring := rfl
@[simp] theorem State.dropWait_dom (s : State) (c : Nat) : (s.dropWait c).dom = s.dom := rfl
@[simp] theorem State.dropWait_mem (s : State) (c : Nat) : (s.dropWait c).mem = s.mem := rfl
@[simp] theorem State.dropWait_harv (s : State) (c : Nat) : (s.dropWait c).harv = s.harv := rfl
@[simp] theorem State.dropWait_pmu (s : State) (c : Nat) : (s.dropWait c).pmu = s.pmu := rfl
@[simp] theorem State.dropWait_pins (s : State) (c : Nat) : (s.dropWait c).pins = s.pins := rfl
@[simp] theorem State.dropWait_clk (s : State) (c : Nat) : (s.dropWait c).clk = s.clk := rfl
@[simp] theorem State.dropWait_rtc (s : State) (c : Nat) : (s.dropWait c).rtc = s.rtc := rfl
@[simp] theorem State.dropWait_err (s : State) (c : Nat) : (s.dropWait c).err = s.err := rfl
@[simp] theorem State.dropWait_cores (s : State) (c : Nat) : (s.dropWait c).cores = s.cores := rfl
@[simp] theorem State.dropWait_irqEdge (s : State) (c : Nat) : (s.dropWait c).irqEdge = s.irqEdge := rfl
@[simp] theorem State.dropWait_slots (s : State) (c : Nat) : (s.dropWait c).slots = s.slots := rfl
@[simp] theorem State.dropWait_ten (s : State) (c : Nat) : (s.dropWait c).ten = s.ten := rfl
@[simp] theorem State.dropWait_cat (s : State) (c : Nat) : (s.dropWait c).cat = s.cat := rfl
@[simp] theorem State.dropWait_dma (s : State) (c : Nat) : (s.dropWait c).dma = s.dma := rfl
@[simp] theorem State.dropWait_crypt (s : State) (c : Nat) : (s.dropWait c).crypt = s.crypt := rfl
@[simp] theorem State.dropWait_arbs (s : State) (c : Nat) : (s.dropWait c).arbs = s.arbs := rfl
@[simp] theorem State.dropWait_spine (s : State) (c : Nat) : (s.dropWait c).spine = s.spine := rfl
@[simp] theorem State.dropWait_cyn (s : State) (c : Nat) : (s.dropWait c).cyn = s.cyn := rfl
@[simp] theorem State.dropWait_bay (s : State) (c : Nat) : (s.dropWait c).bay = s.bay := rfl
@[simp] theorem State.dropWait_adc (s : State) (c : Nat) : (s.dropWait c).adc = s.adc := rfl
@[simp] theorem State.dropWait_sfu (s : State) (c : Nat) : (s.dropWait c).sfu = s.sfu := rfl
@[simp] theorem State.dropWait_tabWait (s : State) (c : Nat) : (s.dropWait c).tabWait = s.tabWait := rfl
@[simp] theorem State.dropWait_boot (s : State) (c : Nat) : (s.dropWait c).boot = s.boot := rfl
@[simp] theorem State.dropWait_serv (s : State) (c : Nat) : (s.dropWait c).serv = s.serv := rfl

/-! ### `setBayCh` changes `bay` alone -/

@[simp] theorem State.setBayCh_pending (s : State) (n : Nat) (x : BayCh) : (s.setBayCh n x).pending = s.pending := rfl
@[simp] theorem State.setBayCh_fresh (s : State) (n : Nat) (x : BayCh) : (s.setBayCh n x).fresh = s.fresh := rfl
@[simp] theorem State.setBayCh_regs (s : State) (n : Nat) (x : BayCh) : (s.setBayCh n x).regs = s.regs := rfl
@[simp] theorem State.setBayCh_shadow (s : State) (n : Nat) (x : BayCh) : (s.setBayCh n x).shadow = s.shadow := rfl
@[simp] theorem State.setBayCh_crossing (s : State) (n : Nat) (x : BayCh) : (s.setBayCh n x).crossing = s.crossing := rfl
@[simp] theorem State.setBayCh_rings (s : State) (n : Nat) (x : BayCh) : (s.setBayCh n x).rings = s.rings := rfl
@[simp] theorem State.setBayCh_gring (s : State) (n : Nat) (x : BayCh) : (s.setBayCh n x).gring = s.gring := rfl
@[simp] theorem State.setBayCh_dom (s : State) (n : Nat) (x : BayCh) : (s.setBayCh n x).dom = s.dom := rfl
@[simp] theorem State.setBayCh_mem (s : State) (n : Nat) (x : BayCh) : (s.setBayCh n x).mem = s.mem := rfl
@[simp] theorem State.setBayCh_harv (s : State) (n : Nat) (x : BayCh) : (s.setBayCh n x).harv = s.harv := rfl
@[simp] theorem State.setBayCh_pmu (s : State) (n : Nat) (x : BayCh) : (s.setBayCh n x).pmu = s.pmu := rfl
@[simp] theorem State.setBayCh_pins (s : State) (n : Nat) (x : BayCh) : (s.setBayCh n x).pins = s.pins := rfl
@[simp] theorem State.setBayCh_clk (s : State) (n : Nat) (x : BayCh) : (s.setBayCh n x).clk = s.clk := rfl
@[simp] theorem State.setBayCh_rtc (s : State) (n : Nat) (x : BayCh) : (s.setBayCh n x).rtc = s.rtc := rfl
@[simp] theorem State.setBayCh_err (s : State) (n : Nat) (x : BayCh) : (s.setBayCh n x).err = s.err := rfl
@[simp] theorem State.setBayCh_cores (s : State) (n : Nat) (x : BayCh) : (s.setBayCh n x).cores = s.cores := rfl
@[simp] theorem State.setBayCh_irqEdge (s : State) (n : Nat) (x : BayCh) : (s.setBayCh n x).irqEdge = s.irqEdge := rfl
@[simp] theorem State.setBayCh_slots (s : State) (n : Nat) (x : BayCh) : (s.setBayCh n x).slots = s.slots := rfl
@[simp] theorem State.setBayCh_ten (s : State) (n : Nat) (x : BayCh) : (s.setBayCh n x).ten = s.ten := rfl
@[simp] theorem State.setBayCh_cat (s : State) (n : Nat) (x : BayCh) : (s.setBayCh n x).cat = s.cat := rfl
@[simp] theorem State.setBayCh_dma (s : State) (n : Nat) (x : BayCh) : (s.setBayCh n x).dma = s.dma := rfl
@[simp] theorem State.setBayCh_crypt (s : State) (n : Nat) (x : BayCh) : (s.setBayCh n x).crypt = s.crypt := rfl
@[simp] theorem State.setBayCh_arbs (s : State) (n : Nat) (x : BayCh) : (s.setBayCh n x).arbs = s.arbs := rfl
@[simp] theorem State.setBayCh_lock (s : State) (n : Nat) (x : BayCh) : (s.setBayCh n x).lock = s.lock := rfl
@[simp] theorem State.setBayCh_spine (s : State) (n : Nat) (x : BayCh) : (s.setBayCh n x).spine = s.spine := rfl
@[simp] theorem State.setBayCh_cyn (s : State) (n : Nat) (x : BayCh) : (s.setBayCh n x).cyn = s.cyn := rfl
@[simp] theorem State.setBayCh_adc (s : State) (n : Nat) (x : BayCh) : (s.setBayCh n x).adc = s.adc := rfl
@[simp] theorem State.setBayCh_sfu (s : State) (n : Nat) (x : BayCh) : (s.setBayCh n x).sfu = s.sfu := rfl
@[simp] theorem State.setBayCh_tabWait (s : State) (n : Nat) (x : BayCh) : (s.setBayCh n x).tabWait = s.tabWait := rfl
@[simp] theorem State.setBayCh_boot (s : State) (n : Nat) (x : BayCh) : (s.setBayCh n x).boot = s.boot := rfl
@[simp] theorem State.setBayCh_serv (s : State) (n : Nat) (x : BayCh) : (s.setBayCh n x).serv = s.serv := rfl

/-! ### `setPort` changes `bay` alone -/

@[simp] theorem State.setPort_pending (s : State) (n : Nat) (x : BayuCh) : (s.setPort n x).pending = s.pending := rfl
@[simp] theorem State.setPort_fresh (s : State) (n : Nat) (x : BayuCh) : (s.setPort n x).fresh = s.fresh := rfl
@[simp] theorem State.setPort_regs (s : State) (n : Nat) (x : BayuCh) : (s.setPort n x).regs = s.regs := rfl
@[simp] theorem State.setPort_shadow (s : State) (n : Nat) (x : BayuCh) : (s.setPort n x).shadow = s.shadow := rfl
@[simp] theorem State.setPort_crossing (s : State) (n : Nat) (x : BayuCh) : (s.setPort n x).crossing = s.crossing := rfl
@[simp] theorem State.setPort_rings (s : State) (n : Nat) (x : BayuCh) : (s.setPort n x).rings = s.rings := rfl
@[simp] theorem State.setPort_gring (s : State) (n : Nat) (x : BayuCh) : (s.setPort n x).gring = s.gring := rfl
@[simp] theorem State.setPort_dom (s : State) (n : Nat) (x : BayuCh) : (s.setPort n x).dom = s.dom := rfl
@[simp] theorem State.setPort_mem (s : State) (n : Nat) (x : BayuCh) : (s.setPort n x).mem = s.mem := rfl
@[simp] theorem State.setPort_harv (s : State) (n : Nat) (x : BayuCh) : (s.setPort n x).harv = s.harv := rfl
@[simp] theorem State.setPort_pmu (s : State) (n : Nat) (x : BayuCh) : (s.setPort n x).pmu = s.pmu := rfl
@[simp] theorem State.setPort_pins (s : State) (n : Nat) (x : BayuCh) : (s.setPort n x).pins = s.pins := rfl
@[simp] theorem State.setPort_clk (s : State) (n : Nat) (x : BayuCh) : (s.setPort n x).clk = s.clk := rfl
@[simp] theorem State.setPort_rtc (s : State) (n : Nat) (x : BayuCh) : (s.setPort n x).rtc = s.rtc := rfl
@[simp] theorem State.setPort_err (s : State) (n : Nat) (x : BayuCh) : (s.setPort n x).err = s.err := rfl
@[simp] theorem State.setPort_cores (s : State) (n : Nat) (x : BayuCh) : (s.setPort n x).cores = s.cores := rfl
@[simp] theorem State.setPort_irqEdge (s : State) (n : Nat) (x : BayuCh) : (s.setPort n x).irqEdge = s.irqEdge := rfl
@[simp] theorem State.setPort_slots (s : State) (n : Nat) (x : BayuCh) : (s.setPort n x).slots = s.slots := rfl
@[simp] theorem State.setPort_ten (s : State) (n : Nat) (x : BayuCh) : (s.setPort n x).ten = s.ten := rfl
@[simp] theorem State.setPort_cat (s : State) (n : Nat) (x : BayuCh) : (s.setPort n x).cat = s.cat := rfl
@[simp] theorem State.setPort_dma (s : State) (n : Nat) (x : BayuCh) : (s.setPort n x).dma = s.dma := rfl
@[simp] theorem State.setPort_crypt (s : State) (n : Nat) (x : BayuCh) : (s.setPort n x).crypt = s.crypt := rfl
@[simp] theorem State.setPort_arbs (s : State) (n : Nat) (x : BayuCh) : (s.setPort n x).arbs = s.arbs := rfl
@[simp] theorem State.setPort_lock (s : State) (n : Nat) (x : BayuCh) : (s.setPort n x).lock = s.lock := rfl
@[simp] theorem State.setPort_spine (s : State) (n : Nat) (x : BayuCh) : (s.setPort n x).spine = s.spine := rfl
@[simp] theorem State.setPort_cyn (s : State) (n : Nat) (x : BayuCh) : (s.setPort n x).cyn = s.cyn := rfl
@[simp] theorem State.setPort_adc (s : State) (n : Nat) (x : BayuCh) : (s.setPort n x).adc = s.adc := rfl
@[simp] theorem State.setPort_sfu (s : State) (n : Nat) (x : BayuCh) : (s.setPort n x).sfu = s.sfu := rfl
@[simp] theorem State.setPort_tabWait (s : State) (n : Nat) (x : BayuCh) : (s.setPort n x).tabWait = s.tabWait := rfl
@[simp] theorem State.setPort_boot (s : State) (n : Nat) (x : BayuCh) : (s.setPort n x).boot = s.boot := rfl
@[simp] theorem State.setPort_serv (s : State) (n : Nat) (x : BayuCh) : (s.setPort n x).serv = s.serv := rfl

/-! ### `setConv` changes `adc` alone -/

@[simp] theorem State.setConv_pending (s : State) (c : Nat) (x : Conv) : (s.setConv c x).pending = s.pending := rfl
@[simp] theorem State.setConv_fresh (s : State) (c : Nat) (x : Conv) : (s.setConv c x).fresh = s.fresh := rfl
@[simp] theorem State.setConv_regs (s : State) (c : Nat) (x : Conv) : (s.setConv c x).regs = s.regs := rfl
@[simp] theorem State.setConv_shadow (s : State) (c : Nat) (x : Conv) : (s.setConv c x).shadow = s.shadow := rfl
@[simp] theorem State.setConv_crossing (s : State) (c : Nat) (x : Conv) : (s.setConv c x).crossing = s.crossing := rfl
@[simp] theorem State.setConv_rings (s : State) (c : Nat) (x : Conv) : (s.setConv c x).rings = s.rings := rfl
@[simp] theorem State.setConv_gring (s : State) (c : Nat) (x : Conv) : (s.setConv c x).gring = s.gring := rfl
@[simp] theorem State.setConv_dom (s : State) (c : Nat) (x : Conv) : (s.setConv c x).dom = s.dom := rfl
@[simp] theorem State.setConv_mem (s : State) (c : Nat) (x : Conv) : (s.setConv c x).mem = s.mem := rfl
@[simp] theorem State.setConv_harv (s : State) (c : Nat) (x : Conv) : (s.setConv c x).harv = s.harv := rfl
@[simp] theorem State.setConv_pmu (s : State) (c : Nat) (x : Conv) : (s.setConv c x).pmu = s.pmu := rfl
@[simp] theorem State.setConv_pins (s : State) (c : Nat) (x : Conv) : (s.setConv c x).pins = s.pins := rfl
@[simp] theorem State.setConv_clk (s : State) (c : Nat) (x : Conv) : (s.setConv c x).clk = s.clk := rfl
@[simp] theorem State.setConv_rtc (s : State) (c : Nat) (x : Conv) : (s.setConv c x).rtc = s.rtc := rfl
@[simp] theorem State.setConv_err (s : State) (c : Nat) (x : Conv) : (s.setConv c x).err = s.err := rfl
@[simp] theorem State.setConv_cores (s : State) (c : Nat) (x : Conv) : (s.setConv c x).cores = s.cores := rfl
@[simp] theorem State.setConv_irqEdge (s : State) (c : Nat) (x : Conv) : (s.setConv c x).irqEdge = s.irqEdge := rfl
@[simp] theorem State.setConv_slots (s : State) (c : Nat) (x : Conv) : (s.setConv c x).slots = s.slots := rfl
@[simp] theorem State.setConv_ten (s : State) (c : Nat) (x : Conv) : (s.setConv c x).ten = s.ten := rfl
@[simp] theorem State.setConv_cat (s : State) (c : Nat) (x : Conv) : (s.setConv c x).cat = s.cat := rfl
@[simp] theorem State.setConv_dma (s : State) (c : Nat) (x : Conv) : (s.setConv c x).dma = s.dma := rfl
@[simp] theorem State.setConv_crypt (s : State) (c : Nat) (x : Conv) : (s.setConv c x).crypt = s.crypt := rfl
@[simp] theorem State.setConv_arbs (s : State) (c : Nat) (x : Conv) : (s.setConv c x).arbs = s.arbs := rfl
@[simp] theorem State.setConv_lock (s : State) (c : Nat) (x : Conv) : (s.setConv c x).lock = s.lock := rfl
@[simp] theorem State.setConv_spine (s : State) (c : Nat) (x : Conv) : (s.setConv c x).spine = s.spine := rfl
@[simp] theorem State.setConv_cyn (s : State) (c : Nat) (x : Conv) : (s.setConv c x).cyn = s.cyn := rfl
@[simp] theorem State.setConv_bay (s : State) (c : Nat) (x : Conv) : (s.setConv c x).bay = s.bay := rfl
@[simp] theorem State.setConv_sfu (s : State) (c : Nat) (x : Conv) : (s.setConv c x).sfu = s.sfu := rfl
@[simp] theorem State.setConv_tabWait (s : State) (c : Nat) (x : Conv) : (s.setConv c x).tabWait = s.tabWait := rfl
@[simp] theorem State.setConv_boot (s : State) (c : Nat) (x : Conv) : (s.setConv c x).boot = s.boot := rfl
@[simp] theorem State.setConv_serv (s : State) (c : Nat) (x : Conv) : (s.setConv c x).serv = s.serv := rfl

/-! ### `setJob` changes `sfu` alone -/

@[simp] theorem State.setJob_pending (s : State) (p : Nat) (x : Job) : (s.setJob p x).pending = s.pending := rfl
@[simp] theorem State.setJob_fresh (s : State) (p : Nat) (x : Job) : (s.setJob p x).fresh = s.fresh := rfl
@[simp] theorem State.setJob_regs (s : State) (p : Nat) (x : Job) : (s.setJob p x).regs = s.regs := rfl
@[simp] theorem State.setJob_shadow (s : State) (p : Nat) (x : Job) : (s.setJob p x).shadow = s.shadow := rfl
@[simp] theorem State.setJob_crossing (s : State) (p : Nat) (x : Job) : (s.setJob p x).crossing = s.crossing := rfl
@[simp] theorem State.setJob_rings (s : State) (p : Nat) (x : Job) : (s.setJob p x).rings = s.rings := rfl
@[simp] theorem State.setJob_gring (s : State) (p : Nat) (x : Job) : (s.setJob p x).gring = s.gring := rfl
@[simp] theorem State.setJob_dom (s : State) (p : Nat) (x : Job) : (s.setJob p x).dom = s.dom := rfl
@[simp] theorem State.setJob_mem (s : State) (p : Nat) (x : Job) : (s.setJob p x).mem = s.mem := rfl
@[simp] theorem State.setJob_harv (s : State) (p : Nat) (x : Job) : (s.setJob p x).harv = s.harv := rfl
@[simp] theorem State.setJob_pmu (s : State) (p : Nat) (x : Job) : (s.setJob p x).pmu = s.pmu := rfl
@[simp] theorem State.setJob_pins (s : State) (p : Nat) (x : Job) : (s.setJob p x).pins = s.pins := rfl
@[simp] theorem State.setJob_clk (s : State) (p : Nat) (x : Job) : (s.setJob p x).clk = s.clk := rfl
@[simp] theorem State.setJob_rtc (s : State) (p : Nat) (x : Job) : (s.setJob p x).rtc = s.rtc := rfl
@[simp] theorem State.setJob_err (s : State) (p : Nat) (x : Job) : (s.setJob p x).err = s.err := rfl
@[simp] theorem State.setJob_cores (s : State) (p : Nat) (x : Job) : (s.setJob p x).cores = s.cores := rfl
@[simp] theorem State.setJob_irqEdge (s : State) (p : Nat) (x : Job) : (s.setJob p x).irqEdge = s.irqEdge := rfl
@[simp] theorem State.setJob_slots (s : State) (p : Nat) (x : Job) : (s.setJob p x).slots = s.slots := rfl
@[simp] theorem State.setJob_ten (s : State) (p : Nat) (x : Job) : (s.setJob p x).ten = s.ten := rfl
@[simp] theorem State.setJob_cat (s : State) (p : Nat) (x : Job) : (s.setJob p x).cat = s.cat := rfl
@[simp] theorem State.setJob_dma (s : State) (p : Nat) (x : Job) : (s.setJob p x).dma = s.dma := rfl
@[simp] theorem State.setJob_crypt (s : State) (p : Nat) (x : Job) : (s.setJob p x).crypt = s.crypt := rfl
@[simp] theorem State.setJob_arbs (s : State) (p : Nat) (x : Job) : (s.setJob p x).arbs = s.arbs := rfl
@[simp] theorem State.setJob_lock (s : State) (p : Nat) (x : Job) : (s.setJob p x).lock = s.lock := rfl
@[simp] theorem State.setJob_spine (s : State) (p : Nat) (x : Job) : (s.setJob p x).spine = s.spine := rfl
@[simp] theorem State.setJob_cyn (s : State) (p : Nat) (x : Job) : (s.setJob p x).cyn = s.cyn := rfl
@[simp] theorem State.setJob_bay (s : State) (p : Nat) (x : Job) : (s.setJob p x).bay = s.bay := rfl
@[simp] theorem State.setJob_adc (s : State) (p : Nat) (x : Job) : (s.setJob p x).adc = s.adc := rfl
@[simp] theorem State.setJob_tabWait (s : State) (p : Nat) (x : Job) : (s.setJob p x).tabWait = s.tabWait := rfl
@[simp] theorem State.setJob_boot (s : State) (p : Nat) (x : Job) : (s.setJob p x).boot = s.boot := rfl
@[simp] theorem State.setJob_serv (s : State) (p : Nat) (x : Job) : (s.setJob p x).serv = s.serv := rfl

/-! ### `setPin` changes `pins` alone -/

@[simp] theorem State.setPin_pending (s : State) (n : Nat) (x : Pin) : (s.setPin n x).pending = s.pending := rfl
@[simp] theorem State.setPin_fresh (s : State) (n : Nat) (x : Pin) : (s.setPin n x).fresh = s.fresh := rfl
@[simp] theorem State.setPin_regs (s : State) (n : Nat) (x : Pin) : (s.setPin n x).regs = s.regs := rfl
@[simp] theorem State.setPin_shadow (s : State) (n : Nat) (x : Pin) : (s.setPin n x).shadow = s.shadow := rfl
@[simp] theorem State.setPin_crossing (s : State) (n : Nat) (x : Pin) : (s.setPin n x).crossing = s.crossing := rfl
@[simp] theorem State.setPin_rings (s : State) (n : Nat) (x : Pin) : (s.setPin n x).rings = s.rings := rfl
@[simp] theorem State.setPin_gring (s : State) (n : Nat) (x : Pin) : (s.setPin n x).gring = s.gring := rfl
@[simp] theorem State.setPin_dom (s : State) (n : Nat) (x : Pin) : (s.setPin n x).dom = s.dom := rfl
@[simp] theorem State.setPin_mem (s : State) (n : Nat) (x : Pin) : (s.setPin n x).mem = s.mem := rfl
@[simp] theorem State.setPin_harv (s : State) (n : Nat) (x : Pin) : (s.setPin n x).harv = s.harv := rfl
@[simp] theorem State.setPin_pmu (s : State) (n : Nat) (x : Pin) : (s.setPin n x).pmu = s.pmu := rfl
@[simp] theorem State.setPin_clk (s : State) (n : Nat) (x : Pin) : (s.setPin n x).clk = s.clk := rfl
@[simp] theorem State.setPin_rtc (s : State) (n : Nat) (x : Pin) : (s.setPin n x).rtc = s.rtc := rfl
@[simp] theorem State.setPin_err (s : State) (n : Nat) (x : Pin) : (s.setPin n x).err = s.err := rfl
@[simp] theorem State.setPin_cores (s : State) (n : Nat) (x : Pin) : (s.setPin n x).cores = s.cores := rfl
@[simp] theorem State.setPin_irqEdge (s : State) (n : Nat) (x : Pin) : (s.setPin n x).irqEdge = s.irqEdge := rfl
@[simp] theorem State.setPin_slots (s : State) (n : Nat) (x : Pin) : (s.setPin n x).slots = s.slots := rfl
@[simp] theorem State.setPin_ten (s : State) (n : Nat) (x : Pin) : (s.setPin n x).ten = s.ten := rfl
@[simp] theorem State.setPin_cat (s : State) (n : Nat) (x : Pin) : (s.setPin n x).cat = s.cat := rfl
@[simp] theorem State.setPin_dma (s : State) (n : Nat) (x : Pin) : (s.setPin n x).dma = s.dma := rfl
@[simp] theorem State.setPin_crypt (s : State) (n : Nat) (x : Pin) : (s.setPin n x).crypt = s.crypt := rfl
@[simp] theorem State.setPin_arbs (s : State) (n : Nat) (x : Pin) : (s.setPin n x).arbs = s.arbs := rfl
@[simp] theorem State.setPin_lock (s : State) (n : Nat) (x : Pin) : (s.setPin n x).lock = s.lock := rfl
@[simp] theorem State.setPin_spine (s : State) (n : Nat) (x : Pin) : (s.setPin n x).spine = s.spine := rfl
@[simp] theorem State.setPin_cyn (s : State) (n : Nat) (x : Pin) : (s.setPin n x).cyn = s.cyn := rfl
@[simp] theorem State.setPin_bay (s : State) (n : Nat) (x : Pin) : (s.setPin n x).bay = s.bay := rfl
@[simp] theorem State.setPin_adc (s : State) (n : Nat) (x : Pin) : (s.setPin n x).adc = s.adc := rfl
@[simp] theorem State.setPin_sfu (s : State) (n : Nat) (x : Pin) : (s.setPin n x).sfu = s.sfu := rfl
@[simp] theorem State.setPin_tabWait (s : State) (n : Nat) (x : Pin) : (s.setPin n x).tabWait = s.tabWait := rfl
@[simp] theorem State.setPin_boot (s : State) (n : Nat) (x : Pin) : (s.setPin n x).boot = s.boot := rfl
@[simp] theorem State.setPin_serv (s : State) (n : Nat) (x : Pin) : (s.setPin n x).serv = s.serv := rfl

/-! ### `setEcc` changes `cat` alone -/

@[simp] theorem State.setEcc_pending (s : State) (o n : Nat) : (s.setEcc o n).pending = s.pending := rfl
@[simp] theorem State.setEcc_fresh (s : State) (o n : Nat) : (s.setEcc o n).fresh = s.fresh := rfl
@[simp] theorem State.setEcc_regs (s : State) (o n : Nat) : (s.setEcc o n).regs = s.regs := rfl
@[simp] theorem State.setEcc_shadow (s : State) (o n : Nat) : (s.setEcc o n).shadow = s.shadow := rfl
@[simp] theorem State.setEcc_crossing (s : State) (o n : Nat) : (s.setEcc o n).crossing = s.crossing := rfl
@[simp] theorem State.setEcc_rings (s : State) (o n : Nat) : (s.setEcc o n).rings = s.rings := rfl
@[simp] theorem State.setEcc_gring (s : State) (o n : Nat) : (s.setEcc o n).gring = s.gring := rfl
@[simp] theorem State.setEcc_dom (s : State) (o n : Nat) : (s.setEcc o n).dom = s.dom := rfl
@[simp] theorem State.setEcc_mem (s : State) (o n : Nat) : (s.setEcc o n).mem = s.mem := rfl
@[simp] theorem State.setEcc_harv (s : State) (o n : Nat) : (s.setEcc o n).harv = s.harv := rfl
@[simp] theorem State.setEcc_pmu (s : State) (o n : Nat) : (s.setEcc o n).pmu = s.pmu := rfl
@[simp] theorem State.setEcc_pins (s : State) (o n : Nat) : (s.setEcc o n).pins = s.pins := rfl
@[simp] theorem State.setEcc_clk (s : State) (o n : Nat) : (s.setEcc o n).clk = s.clk := rfl
@[simp] theorem State.setEcc_rtc (s : State) (o n : Nat) : (s.setEcc o n).rtc = s.rtc := rfl
@[simp] theorem State.setEcc_err (s : State) (o n : Nat) : (s.setEcc o n).err = s.err := rfl
@[simp] theorem State.setEcc_cores (s : State) (o n : Nat) : (s.setEcc o n).cores = s.cores := rfl
@[simp] theorem State.setEcc_irqEdge (s : State) (o n : Nat) : (s.setEcc o n).irqEdge = s.irqEdge := rfl
@[simp] theorem State.setEcc_slots (s : State) (o n : Nat) : (s.setEcc o n).slots = s.slots := rfl
@[simp] theorem State.setEcc_ten (s : State) (o n : Nat) : (s.setEcc o n).ten = s.ten := rfl
@[simp] theorem State.setEcc_dma (s : State) (o n : Nat) : (s.setEcc o n).dma = s.dma := rfl
@[simp] theorem State.setEcc_crypt (s : State) (o n : Nat) : (s.setEcc o n).crypt = s.crypt := rfl
@[simp] theorem State.setEcc_arbs (s : State) (o n : Nat) : (s.setEcc o n).arbs = s.arbs := rfl
@[simp] theorem State.setEcc_lock (s : State) (o n : Nat) : (s.setEcc o n).lock = s.lock := rfl
@[simp] theorem State.setEcc_spine (s : State) (o n : Nat) : (s.setEcc o n).spine = s.spine := rfl
@[simp] theorem State.setEcc_cyn (s : State) (o n : Nat) : (s.setEcc o n).cyn = s.cyn := rfl
@[simp] theorem State.setEcc_bay (s : State) (o n : Nat) : (s.setEcc o n).bay = s.bay := rfl
@[simp] theorem State.setEcc_adc (s : State) (o n : Nat) : (s.setEcc o n).adc = s.adc := rfl
@[simp] theorem State.setEcc_sfu (s : State) (o n : Nat) : (s.setEcc o n).sfu = s.sfu := rfl
@[simp] theorem State.setEcc_tabWait (s : State) (o n : Nat) : (s.setEcc o n).tabWait = s.tabWait := rfl
@[simp] theorem State.setEcc_boot (s : State) (o n : Nat) : (s.setEcc o n).boot = s.boot := rfl
@[simp] theorem State.setEcc_serv (s : State) (o n : Nat) : (s.setEcc o n).serv = s.serv := rfl

/-! ### Reading after writing -/

@[simp] theorem State.reg_setReg (s : State) (k v : Nat) : (s.setReg k v).reg k = v := by
  simp [State.reg, State.setReg]
theorem State.reg_setReg_other (s : State) (k j v : Nat) (h : k ≠ j) : (s.setReg k v).reg j = s.reg j := by
  simp [State.reg, State.setReg, Tab.get_set_other _ _ _ _ _ h]
theorem State.reg_setReg_iff (s : State) (k j v : Nat) : (s.setReg k v).reg j = if k = j then v else s.reg j := by
  simp [State.reg, State.setReg, Tab.get_set]
@[simp] theorem State.flag_setFlag (s : State) (k : Nat) (b : Bool) : (s.setFlag k b).flag k = b := by
  cases b <;> simp [State.flag, State.setFlag, ofBool]
theorem State.reg_setFlag_other (s : State) (k j : Nat) (b : Bool) (h : k ≠ j) : (s.setFlag k b).reg j = s.reg j :=
  State.reg_setReg_other s k j _ h
@[simp] theorem State.rd_wr (s : State) (a : Nat) (b : Byte) : (s.wr a b).rd a = b := by
  simp [State.rd, State.wr]
theorem State.rd_wr_other (s : State) (a i : Nat) (b : Byte) (h : a ≠ i) : (s.wr a b).rd i = s.rd i := by
  simp [State.rd, State.wr, Tab.get_set_other _ _ _ _ _ h]
@[simp] theorem State.core_setCore (s : State) (c : Nat) (x : Core) : (s.setCore c x).core c = x := by
  simp [State.core, State.setCore]
theorem State.core_setCore_other (s : State) (c j : Nat) (x : Core) (h : c ≠ j) : (s.setCore c x).core j = s.core j := by
  simp [State.core, State.setCore, Tab.get_set_other _ _ _ _ _ h]
@[simp] theorem State.domSt_setDom (s : State) (d : Nat) (x : DomSt) : (s.setDom d x).domSt d = x := by
  simp [State.domSt, State.setDom]
theorem State.domSt_setDom_other (s : State) (d j : Nat) (x : DomSt) (h : d ≠ j) : (s.setDom d x).domSt j = s.domSt j := by
  simp [State.domSt, State.setDom, Tab.get_set_other _ _ _ _ _ h]
@[simp] theorem State.slot_setSlot (s : State) (n : Nat) (x : Slot) : (s.setSlot n x).slot n = x := by
  simp [State.slot, State.setSlot]
@[simp] theorem State.cleat_setCleat (s : State) (c : Nat) (x : Cleat) : (s.setCleat c x).cleat c = x := by
  simp [State.cleat, State.setCleat]
@[simp] theorem State.bayCh_setBayCh (s : State) (n : Nat) (x : BayCh) : (s.setBayCh n x).bayCh n = x := by
  simp [State.bayCh, State.setBayCh]
theorem State.bayCh_setBayCh_other (s : State) (n j : Nat) (x : BayCh) (h : n ≠ j) : (s.setBayCh n x).bayCh j = s.bayCh j := by
  simp [State.bayCh, State.setBayCh, Tab.get_set_other _ _ _ _ _ h]
@[simp] theorem State.port_setPort (s : State) (n : Nat) (x : BayuCh) : (s.setPort n x).port n = x := by
  simp [State.port, State.setPort]
@[simp] theorem State.conv_setConv (s : State) (c : Nat) (x : Conv) : (s.setConv c x).conv c = x := by
  simp [State.conv, State.setConv]
@[simp] theorem State.job_setJob (s : State) (p : Nat) (x : Job) : (s.setJob p x).job p = x := by
  simp [State.job, State.setJob]
@[simp] theorem State.pin_setPin (s : State) (n : Nat) (x : Pin) : (s.setPin n x).pin n = x := by
  simp [State.pin, State.setPin]
@[simp] theorem State.ring_setRing (s : State) (b : Nat) (r : Ring) : (s.setRing b r).ring b = r := by
  simp [State.ring, State.setRing]
@[simp] theorem State.tenState_setTenState (s : State) (t v : Nat) : (s.setTenState t v).tenState t = v := by
  simp [State.tenState, State.setTenState]
@[simp] theorem State.pendingVal_setShadow (s : State) (k : Nat) (v : Option Nat) : (s.setShadow k v).pendingVal k = v := by
  simp [State.pendingVal, State.setShadow]

/-! ### What depends on one part of the state only -/

@[simp] theorem State.pendingVal_of_setReg (s : State) (k v : Nat) (j : Nat) : (s.setReg k v).pendingVal j = s.pendingVal j := rfl
@[simp] theorem State.domSt_of_setReg (s : State) (k v : Nat) (j : Nat) : (s.setReg k v).domSt j = s.domSt j := rfl
@[simp] theorem State.isUp_of_setReg (s : State) (k v : Nat) (j : Nat) : (s.setReg k v).isUp j = s.isUp j := rfl
@[simp] theorem State.core_of_setReg (s : State) (k v : Nat) (j : Nat) : (s.setReg k v).core j = s.core j := rfl
@[simp] theorem State.slot_of_setReg (s : State) (k v : Nat) (j : Nat) : (s.setReg k v).slot j = s.slot j := rfl
@[simp] theorem State.rd_of_setReg (s : State) (k v : Nat) (j : Nat) : (s.setReg k v).rd j = s.rd j := rfl
@[simp] theorem State.ring_of_setReg (s : State) (k v : Nat) (j : Nat) : (s.setReg k v).ring j = s.ring j := rfl
@[simp] theorem State.cleat_of_setReg (s : State) (k v : Nat) (j : Nat) : (s.setReg k v).cleat j = s.cleat j := rfl
@[simp] theorem State.bayCh_of_setReg (s : State) (k v : Nat) (j : Nat) : (s.setReg k v).bayCh j = s.bayCh j := rfl
@[simp] theorem State.port_of_setReg (s : State) (k v : Nat) (j : Nat) : (s.setReg k v).port j = s.port j := rfl
@[simp] theorem State.conv_of_setReg (s : State) (k v : Nat) (j : Nat) : (s.setReg k v).conv j = s.conv j := rfl
@[simp] theorem State.job_of_setReg (s : State) (k v : Nat) (j : Nat) : (s.setReg k v).job j = s.job j := rfl
@[simp] theorem State.pin_of_setReg (s : State) (k v : Nat) (j : Nat) : (s.setReg k v).pin j = s.pin j := rfl
@[simp] theorem State.tenState_of_setReg (s : State) (k v : Nat) (j : Nat) : (s.setReg k v).tenState j = s.tenState j := rfl
@[simp] theorem State.place_of_setReg (s : State) (k v : Nat) (j : Nat) : (s.setReg k v).place j = s.place j := rfl
@[simp] theorem State.arb_of_setReg (s : State) (k v : Nat) (j : Nat) : (s.setReg k v).arb j = s.arb j := rfl
@[simp] theorem State.aon_of_setReg (s : State) (k v : Nat) : (s.setReg k v).aon = s.aon := rfl
@[simp] theorem State.pendingVal_of_setFlag (s : State) (k : Nat) (b : Bool) (j : Nat) : (s.setFlag k b).pendingVal j = s.pendingVal j := rfl
@[simp] theorem State.domSt_of_setFlag (s : State) (k : Nat) (b : Bool) (j : Nat) : (s.setFlag k b).domSt j = s.domSt j := rfl
@[simp] theorem State.isUp_of_setFlag (s : State) (k : Nat) (b : Bool) (j : Nat) : (s.setFlag k b).isUp j = s.isUp j := rfl
@[simp] theorem State.core_of_setFlag (s : State) (k : Nat) (b : Bool) (j : Nat) : (s.setFlag k b).core j = s.core j := rfl
@[simp] theorem State.slot_of_setFlag (s : State) (k : Nat) (b : Bool) (j : Nat) : (s.setFlag k b).slot j = s.slot j := rfl
@[simp] theorem State.rd_of_setFlag (s : State) (k : Nat) (b : Bool) (j : Nat) : (s.setFlag k b).rd j = s.rd j := rfl
@[simp] theorem State.ring_of_setFlag (s : State) (k : Nat) (b : Bool) (j : Nat) : (s.setFlag k b).ring j = s.ring j := rfl
@[simp] theorem State.cleat_of_setFlag (s : State) (k : Nat) (b : Bool) (j : Nat) : (s.setFlag k b).cleat j = s.cleat j := rfl
@[simp] theorem State.bayCh_of_setFlag (s : State) (k : Nat) (b : Bool) (j : Nat) : (s.setFlag k b).bayCh j = s.bayCh j := rfl
@[simp] theorem State.port_of_setFlag (s : State) (k : Nat) (b : Bool) (j : Nat) : (s.setFlag k b).port j = s.port j := rfl
@[simp] theorem State.conv_of_setFlag (s : State) (k : Nat) (b : Bool) (j : Nat) : (s.setFlag k b).conv j = s.conv j := rfl
@[simp] theorem State.job_of_setFlag (s : State) (k : Nat) (b : Bool) (j : Nat) : (s.setFlag k b).job j = s.job j := rfl
@[simp] theorem State.pin_of_setFlag (s : State) (k : Nat) (b : Bool) (j : Nat) : (s.setFlag k b).pin j = s.pin j := rfl
@[simp] theorem State.tenState_of_setFlag (s : State) (k : Nat) (b : Bool) (j : Nat) : (s.setFlag k b).tenState j = s.tenState j := rfl
@[simp] theorem State.place_of_setFlag (s : State) (k : Nat) (b : Bool) (j : Nat) : (s.setFlag k b).place j = s.place j := rfl
@[simp] theorem State.arb_of_setFlag (s : State) (k : Nat) (b : Bool) (j : Nat) : (s.setFlag k b).arb j = s.arb j := rfl
@[simp] theorem State.aon_of_setFlag (s : State) (k : Nat) (b : Bool) : (s.setFlag k b).aon = s.aon := rfl
@[simp] theorem State.pendingVal_of_count (s : State) (k w n : Nat) (j : Nat) : (s.count k w n).pendingVal j = s.pendingVal j := rfl
@[simp] theorem State.domSt_of_count (s : State) (k w n : Nat) (j : Nat) : (s.count k w n).domSt j = s.domSt j := rfl
@[simp] theorem State.isUp_of_count (s : State) (k w n : Nat) (j : Nat) : (s.count k w n).isUp j = s.isUp j := rfl
@[simp] theorem State.core_of_count (s : State) (k w n : Nat) (j : Nat) : (s.count k w n).core j = s.core j := rfl
@[simp] theorem State.slot_of_count (s : State) (k w n : Nat) (j : Nat) : (s.count k w n).slot j = s.slot j := rfl
@[simp] theorem State.rd_of_count (s : State) (k w n : Nat) (j : Nat) : (s.count k w n).rd j = s.rd j := rfl
@[simp] theorem State.ring_of_count (s : State) (k w n : Nat) (j : Nat) : (s.count k w n).ring j = s.ring j := rfl
@[simp] theorem State.cleat_of_count (s : State) (k w n : Nat) (j : Nat) : (s.count k w n).cleat j = s.cleat j := rfl
@[simp] theorem State.bayCh_of_count (s : State) (k w n : Nat) (j : Nat) : (s.count k w n).bayCh j = s.bayCh j := rfl
@[simp] theorem State.port_of_count (s : State) (k w n : Nat) (j : Nat) : (s.count k w n).port j = s.port j := rfl
@[simp] theorem State.conv_of_count (s : State) (k w n : Nat) (j : Nat) : (s.count k w n).conv j = s.conv j := rfl
@[simp] theorem State.job_of_count (s : State) (k w n : Nat) (j : Nat) : (s.count k w n).job j = s.job j := rfl
@[simp] theorem State.pin_of_count (s : State) (k w n : Nat) (j : Nat) : (s.count k w n).pin j = s.pin j := rfl
@[simp] theorem State.tenState_of_count (s : State) (k w n : Nat) (j : Nat) : (s.count k w n).tenState j = s.tenState j := rfl
@[simp] theorem State.place_of_count (s : State) (k w n : Nat) (j : Nat) : (s.count k w n).place j = s.place j := rfl
@[simp] theorem State.arb_of_count (s : State) (k w n : Nat) (j : Nat) : (s.count k w n).arb j = s.arb j := rfl
@[simp] theorem State.aon_of_count (s : State) (k w n : Nat) : (s.count k w n).aon = s.aon := rfl
@[simp] theorem State.reg_of_setShadow (s : State) (k : Nat) (v : Option Nat) (j : Nat) : (s.setShadow k v).reg j = s.reg j := rfl
@[simp] theorem State.domSt_of_setShadow (s : State) (k : Nat) (v : Option Nat) (j : Nat) : (s.setShadow k v).domSt j = s.domSt j := rfl
@[simp] theorem State.isUp_of_setShadow (s : State) (k : Nat) (v : Option Nat) (j : Nat) : (s.setShadow k v).isUp j = s.isUp j := rfl
@[simp] theorem State.core_of_setShadow (s : State) (k : Nat) (v : Option Nat) (j : Nat) : (s.setShadow k v).core j = s.core j := rfl
@[simp] theorem State.slot_of_setShadow (s : State) (k : Nat) (v : Option Nat) (j : Nat) : (s.setShadow k v).slot j = s.slot j := rfl
@[simp] theorem State.rd_of_setShadow (s : State) (k : Nat) (v : Option Nat) (j : Nat) : (s.setShadow k v).rd j = s.rd j := rfl
@[simp] theorem State.ring_of_setShadow (s : State) (k : Nat) (v : Option Nat) (j : Nat) : (s.setShadow k v).ring j = s.ring j := rfl
@[simp] theorem State.cleat_of_setShadow (s : State) (k : Nat) (v : Option Nat) (j : Nat) : (s.setShadow k v).cleat j = s.cleat j := rfl
@[simp] theorem State.bayCh_of_setShadow (s : State) (k : Nat) (v : Option Nat) (j : Nat) : (s.setShadow k v).bayCh j = s.bayCh j := rfl
@[simp] theorem State.port_of_setShadow (s : State) (k : Nat) (v : Option Nat) (j : Nat) : (s.setShadow k v).port j = s.port j := rfl
@[simp] theorem State.conv_of_setShadow (s : State) (k : Nat) (v : Option Nat) (j : Nat) : (s.setShadow k v).conv j = s.conv j := rfl
@[simp] theorem State.job_of_setShadow (s : State) (k : Nat) (v : Option Nat) (j : Nat) : (s.setShadow k v).job j = s.job j := rfl
@[simp] theorem State.pin_of_setShadow (s : State) (k : Nat) (v : Option Nat) (j : Nat) : (s.setShadow k v).pin j = s.pin j := rfl
@[simp] theorem State.tenState_of_setShadow (s : State) (k : Nat) (v : Option Nat) (j : Nat) : (s.setShadow k v).tenState j = s.tenState j := rfl
@[simp] theorem State.place_of_setShadow (s : State) (k : Nat) (v : Option Nat) (j : Nat) : (s.setShadow k v).place j = s.place j := rfl
@[simp] theorem State.arb_of_setShadow (s : State) (k : Nat) (v : Option Nat) (j : Nat) : (s.setShadow k v).arb j = s.arb j := rfl
@[simp] theorem State.aon_of_setShadow (s : State) (k : Nat) (v : Option Nat) : (s.setShadow k v).aon = s.aon := rfl
@[simp] theorem State.flag_of_setShadow (s : State) (k : Nat) (v : Option Nat) (j : Nat) : (s.setShadow k v).flag j = s.flag j := rfl
@[simp] theorem State.reg_of_wr (s : State) (a : Nat) (b : Byte) (j : Nat) : (s.wr a b).reg j = s.reg j := rfl
@[simp] theorem State.pendingVal_of_wr (s : State) (a : Nat) (b : Byte) (j : Nat) : (s.wr a b).pendingVal j = s.pendingVal j := rfl
@[simp] theorem State.domSt_of_wr (s : State) (a : Nat) (b : Byte) (j : Nat) : (s.wr a b).domSt j = s.domSt j := rfl
@[simp] theorem State.isUp_of_wr (s : State) (a : Nat) (b : Byte) (j : Nat) : (s.wr a b).isUp j = s.isUp j := rfl
@[simp] theorem State.core_of_wr (s : State) (a : Nat) (b : Byte) (j : Nat) : (s.wr a b).core j = s.core j := rfl
@[simp] theorem State.slot_of_wr (s : State) (a : Nat) (b : Byte) (j : Nat) : (s.wr a b).slot j = s.slot j := rfl
@[simp] theorem State.ring_of_wr (s : State) (a : Nat) (b : Byte) (j : Nat) : (s.wr a b).ring j = s.ring j := rfl
@[simp] theorem State.cleat_of_wr (s : State) (a : Nat) (b : Byte) (j : Nat) : (s.wr a b).cleat j = s.cleat j := rfl
@[simp] theorem State.bayCh_of_wr (s : State) (a : Nat) (b : Byte) (j : Nat) : (s.wr a b).bayCh j = s.bayCh j := rfl
@[simp] theorem State.port_of_wr (s : State) (a : Nat) (b : Byte) (j : Nat) : (s.wr a b).port j = s.port j := rfl
@[simp] theorem State.conv_of_wr (s : State) (a : Nat) (b : Byte) (j : Nat) : (s.wr a b).conv j = s.conv j := rfl
@[simp] theorem State.job_of_wr (s : State) (a : Nat) (b : Byte) (j : Nat) : (s.wr a b).job j = s.job j := rfl
@[simp] theorem State.pin_of_wr (s : State) (a : Nat) (b : Byte) (j : Nat) : (s.wr a b).pin j = s.pin j := rfl
@[simp] theorem State.tenState_of_wr (s : State) (a : Nat) (b : Byte) (j : Nat) : (s.wr a b).tenState j = s.tenState j := rfl
@[simp] theorem State.place_of_wr (s : State) (a : Nat) (b : Byte) (j : Nat) : (s.wr a b).place j = s.place j := rfl
@[simp] theorem State.arb_of_wr (s : State) (a : Nat) (b : Byte) (j : Nat) : (s.wr a b).arb j = s.arb j := rfl
@[simp] theorem State.aon_of_wr (s : State) (a : Nat) (b : Byte) : (s.wr a b).aon = s.aon := rfl
@[simp] theorem State.flag_of_wr (s : State) (a : Nat) (b : Byte) (j : Nat) : (s.wr a b).flag j = s.flag j := rfl
@[simp] theorem State.reg_of_setDom (s : State) (d : Nat) (x : DomSt) (j : Nat) : (s.setDom d x).reg j = s.reg j := rfl
@[simp] theorem State.pendingVal_of_setDom (s : State) (d : Nat) (x : DomSt) (j : Nat) : (s.setDom d x).pendingVal j = s.pendingVal j := rfl
@[simp] theorem State.core_of_setDom (s : State) (d : Nat) (x : DomSt) (j : Nat) : (s.setDom d x).core j = s.core j := rfl
@[simp] theorem State.slot_of_setDom (s : State) (d : Nat) (x : DomSt) (j : Nat) : (s.setDom d x).slot j = s.slot j := rfl
@[simp] theorem State.rd_of_setDom (s : State) (d : Nat) (x : DomSt) (j : Nat) : (s.setDom d x).rd j = s.rd j := rfl
@[simp] theorem State.ring_of_setDom (s : State) (d : Nat) (x : DomSt) (j : Nat) : (s.setDom d x).ring j = s.ring j := rfl
@[simp] theorem State.cleat_of_setDom (s : State) (d : Nat) (x : DomSt) (j : Nat) : (s.setDom d x).cleat j = s.cleat j := rfl
@[simp] theorem State.bayCh_of_setDom (s : State) (d : Nat) (x : DomSt) (j : Nat) : (s.setDom d x).bayCh j = s.bayCh j := rfl
@[simp] theorem State.port_of_setDom (s : State) (d : Nat) (x : DomSt) (j : Nat) : (s.setDom d x).port j = s.port j := rfl
@[simp] theorem State.conv_of_setDom (s : State) (d : Nat) (x : DomSt) (j : Nat) : (s.setDom d x).conv j = s.conv j := rfl
@[simp] theorem State.job_of_setDom (s : State) (d : Nat) (x : DomSt) (j : Nat) : (s.setDom d x).job j = s.job j := rfl
@[simp] theorem State.pin_of_setDom (s : State) (d : Nat) (x : DomSt) (j : Nat) : (s.setDom d x).pin j = s.pin j := rfl
@[simp] theorem State.tenState_of_setDom (s : State) (d : Nat) (x : DomSt) (j : Nat) : (s.setDom d x).tenState j = s.tenState j := rfl
@[simp] theorem State.place_of_setDom (s : State) (d : Nat) (x : DomSt) (j : Nat) : (s.setDom d x).place j = s.place j := rfl
@[simp] theorem State.arb_of_setDom (s : State) (d : Nat) (x : DomSt) (j : Nat) : (s.setDom d x).arb j = s.arb j := rfl
@[simp] theorem State.aon_of_setDom (s : State) (d : Nat) (x : DomSt) : (s.setDom d x).aon = s.aon := rfl
@[simp] theorem State.flag_of_setDom (s : State) (d : Nat) (x : DomSt) (j : Nat) : (s.setDom d x).flag j = s.flag j := rfl
@[simp] theorem State.reg_of_setRing (s : State) (b : Nat) (r : Ring) (j : Nat) : (s.setRing b r).reg j = s.reg j := rfl
@[simp] theorem State.pendingVal_of_setRing (s : State) (b : Nat) (r : Ring) (j : Nat) : (s.setRing b r).pendingVal j = s.pendingVal j := rfl
@[simp] theorem State.domSt_of_setRing (s : State) (b : Nat) (r : Ring) (j : Nat) : (s.setRing b r).domSt j = s.domSt j := rfl
@[simp] theorem State.isUp_of_setRing (s : State) (b : Nat) (r : Ring) (j : Nat) : (s.setRing b r).isUp j = s.isUp j := rfl
@[simp] theorem State.core_of_setRing (s : State) (b : Nat) (r : Ring) (j : Nat) : (s.setRing b r).core j = s.core j := rfl
@[simp] theorem State.slot_of_setRing (s : State) (b : Nat) (r : Ring) (j : Nat) : (s.setRing b r).slot j = s.slot j := rfl
@[simp] theorem State.rd_of_setRing (s : State) (b : Nat) (r : Ring) (j : Nat) : (s.setRing b r).rd j = s.rd j := rfl
@[simp] theorem State.cleat_of_setRing (s : State) (b : Nat) (r : Ring) (j : Nat) : (s.setRing b r).cleat j = s.cleat j := rfl
@[simp] theorem State.bayCh_of_setRing (s : State) (b : Nat) (r : Ring) (j : Nat) : (s.setRing b r).bayCh j = s.bayCh j := rfl
@[simp] theorem State.port_of_setRing (s : State) (b : Nat) (r : Ring) (j : Nat) : (s.setRing b r).port j = s.port j := rfl
@[simp] theorem State.conv_of_setRing (s : State) (b : Nat) (r : Ring) (j : Nat) : (s.setRing b r).conv j = s.conv j := rfl
@[simp] theorem State.job_of_setRing (s : State) (b : Nat) (r : Ring) (j : Nat) : (s.setRing b r).job j = s.job j := rfl
@[simp] theorem State.pin_of_setRing (s : State) (b : Nat) (r : Ring) (j : Nat) : (s.setRing b r).pin j = s.pin j := rfl
@[simp] theorem State.tenState_of_setRing (s : State) (b : Nat) (r : Ring) (j : Nat) : (s.setRing b r).tenState j = s.tenState j := rfl
@[simp] theorem State.place_of_setRing (s : State) (b : Nat) (r : Ring) (j : Nat) : (s.setRing b r).place j = s.place j := rfl
@[simp] theorem State.arb_of_setRing (s : State) (b : Nat) (r : Ring) (j : Nat) : (s.setRing b r).arb j = s.arb j := rfl
@[simp] theorem State.aon_of_setRing (s : State) (b : Nat) (r : Ring) : (s.setRing b r).aon = s.aon := rfl
@[simp] theorem State.flag_of_setRing (s : State) (b : Nat) (r : Ring) (j : Nat) : (s.setRing b r).flag j = s.flag j := rfl
@[simp] theorem State.pendingVal_of_irq (s : State) (n : Nat) (j : Nat) : (s.irq n).pendingVal j = s.pendingVal j := by
  obtain ⟨_, _, h⟩ := s.irq_eq n; rw [h]; rfl
@[simp] theorem State.domSt_of_irq (s : State) (n : Nat) (j : Nat) : (s.irq n).domSt j = s.domSt j := by
  obtain ⟨_, _, h⟩ := s.irq_eq n; rw [h]; rfl
@[simp] theorem State.isUp_of_irq (s : State) (n : Nat) (j : Nat) : (s.irq n).isUp j = s.isUp j := by
  obtain ⟨_, _, h⟩ := s.irq_eq n; rw [h]; rfl
@[simp] theorem State.core_of_irq (s : State) (n : Nat) (j : Nat) : (s.irq n).core j = s.core j := by
  obtain ⟨_, _, h⟩ := s.irq_eq n; rw [h]; rfl
@[simp] theorem State.slot_of_irq (s : State) (n : Nat) (j : Nat) : (s.irq n).slot j = s.slot j := by
  obtain ⟨_, _, h⟩ := s.irq_eq n; rw [h]; rfl
@[simp] theorem State.rd_of_irq (s : State) (n : Nat) (j : Nat) : (s.irq n).rd j = s.rd j := by
  obtain ⟨_, _, h⟩ := s.irq_eq n; rw [h]; rfl
@[simp] theorem State.ring_of_irq (s : State) (n : Nat) (j : Nat) : (s.irq n).ring j = s.ring j := by
  obtain ⟨_, _, h⟩ := s.irq_eq n; rw [h]; rfl
@[simp] theorem State.cleat_of_irq (s : State) (n : Nat) (j : Nat) : (s.irq n).cleat j = s.cleat j := by
  obtain ⟨_, _, h⟩ := s.irq_eq n; rw [h]; rfl
@[simp] theorem State.bayCh_of_irq (s : State) (n : Nat) (j : Nat) : (s.irq n).bayCh j = s.bayCh j := by
  obtain ⟨_, _, h⟩ := s.irq_eq n; rw [h]; rfl
@[simp] theorem State.port_of_irq (s : State) (n : Nat) (j : Nat) : (s.irq n).port j = s.port j := by
  obtain ⟨_, _, h⟩ := s.irq_eq n; rw [h]; rfl
@[simp] theorem State.conv_of_irq (s : State) (n : Nat) (j : Nat) : (s.irq n).conv j = s.conv j := by
  obtain ⟨_, _, h⟩ := s.irq_eq n; rw [h]; rfl
@[simp] theorem State.job_of_irq (s : State) (n : Nat) (j : Nat) : (s.irq n).job j = s.job j := by
  obtain ⟨_, _, h⟩ := s.irq_eq n; rw [h]; rfl
@[simp] theorem State.pin_of_irq (s : State) (n : Nat) (j : Nat) : (s.irq n).pin j = s.pin j := by
  obtain ⟨_, _, h⟩ := s.irq_eq n; rw [h]; rfl
@[simp] theorem State.tenState_of_irq (s : State) (n : Nat) (j : Nat) : (s.irq n).tenState j = s.tenState j := by
  obtain ⟨_, _, h⟩ := s.irq_eq n; rw [h]; rfl
@[simp] theorem State.place_of_irq (s : State) (n : Nat) (j : Nat) : (s.irq n).place j = s.place j := by
  obtain ⟨_, _, h⟩ := s.irq_eq n; rw [h]; rfl
@[simp] theorem State.arb_of_irq (s : State) (n : Nat) (j : Nat) : (s.irq n).arb j = s.arb j := by
  obtain ⟨_, _, h⟩ := s.irq_eq n; rw [h]; rfl
@[simp] theorem State.aon_of_irq (s : State) (n : Nat) : (s.irq n).aon = s.aon := by
  obtain ⟨_, _, h⟩ := s.irq_eq n; rw [h]; rfl
@[simp] theorem State.reg_of_setCore (s : State) (c : Nat) (x : Core) (j : Nat) : (s.setCore c x).reg j = s.reg j := rfl
@[simp] theorem State.pendingVal_of_setCore (s : State) (c : Nat) (x : Core) (j : Nat) : (s.setCore c x).pendingVal j = s.pendingVal j := rfl
@[simp] theorem State.domSt_of_setCore (s : State) (c : Nat) (x : Core) (j : Nat) : (s.setCore c x).domSt j = s.domSt j := rfl
@[simp] theorem State.isUp_of_setCore (s : State) (c : Nat) (x : Core) (j : Nat) : (s.setCore c x).isUp j = s.isUp j := rfl
@[simp] theorem State.slot_of_setCore (s : State) (c : Nat) (x : Core) (j : Nat) : (s.setCore c x).slot j = s.slot j := rfl
@[simp] theorem State.rd_of_setCore (s : State) (c : Nat) (x : Core) (j : Nat) : (s.setCore c x).rd j = s.rd j := rfl
@[simp] theorem State.ring_of_setCore (s : State) (c : Nat) (x : Core) (j : Nat) : (s.setCore c x).ring j = s.ring j := rfl
@[simp] theorem State.cleat_of_setCore (s : State) (c : Nat) (x : Core) (j : Nat) : (s.setCore c x).cleat j = s.cleat j := rfl
@[simp] theorem State.bayCh_of_setCore (s : State) (c : Nat) (x : Core) (j : Nat) : (s.setCore c x).bayCh j = s.bayCh j := rfl
@[simp] theorem State.port_of_setCore (s : State) (c : Nat) (x : Core) (j : Nat) : (s.setCore c x).port j = s.port j := rfl
@[simp] theorem State.conv_of_setCore (s : State) (c : Nat) (x : Core) (j : Nat) : (s.setCore c x).conv j = s.conv j := rfl
@[simp] theorem State.job_of_setCore (s : State) (c : Nat) (x : Core) (j : Nat) : (s.setCore c x).job j = s.job j := rfl
@[simp] theorem State.pin_of_setCore (s : State) (c : Nat) (x : Core) (j : Nat) : (s.setCore c x).pin j = s.pin j := rfl
@[simp] theorem State.tenState_of_setCore (s : State) (c : Nat) (x : Core) (j : Nat) : (s.setCore c x).tenState j = s.tenState j := rfl
@[simp] theorem State.place_of_setCore (s : State) (c : Nat) (x : Core) (j : Nat) : (s.setCore c x).place j = s.place j := rfl
@[simp] theorem State.arb_of_setCore (s : State) (c : Nat) (x : Core) (j : Nat) : (s.setCore c x).arb j = s.arb j := rfl
@[simp] theorem State.aon_of_setCore (s : State) (c : Nat) (x : Core) : (s.setCore c x).aon = s.aon := rfl
@[simp] theorem State.flag_of_setCore (s : State) (c : Nat) (x : Core) (j : Nat) : (s.setCore c x).flag j = s.flag j := rfl
@[simp] theorem State.reg_of_setSlot (s : State) (n : Nat) (x : Slot) (j : Nat) : (s.setSlot n x).reg j = s.reg j := rfl
@[simp] theorem State.pendingVal_of_setSlot (s : State) (n : Nat) (x : Slot) (j : Nat) : (s.setSlot n x).pendingVal j = s.pendingVal j := rfl
@[simp] theorem State.domSt_of_setSlot (s : State) (n : Nat) (x : Slot) (j : Nat) : (s.setSlot n x).domSt j = s.domSt j := rfl
@[simp] theorem State.isUp_of_setSlot (s : State) (n : Nat) (x : Slot) (j : Nat) : (s.setSlot n x).isUp j = s.isUp j := rfl
@[simp] theorem State.core_of_setSlot (s : State) (n : Nat) (x : Slot) (j : Nat) : (s.setSlot n x).core j = s.core j := rfl
@[simp] theorem State.rd_of_setSlot (s : State) (n : Nat) (x : Slot) (j : Nat) : (s.setSlot n x).rd j = s.rd j := rfl
@[simp] theorem State.ring_of_setSlot (s : State) (n : Nat) (x : Slot) (j : Nat) : (s.setSlot n x).ring j = s.ring j := rfl
@[simp] theorem State.cleat_of_setSlot (s : State) (n : Nat) (x : Slot) (j : Nat) : (s.setSlot n x).cleat j = s.cleat j := rfl
@[simp] theorem State.bayCh_of_setSlot (s : State) (n : Nat) (x : Slot) (j : Nat) : (s.setSlot n x).bayCh j = s.bayCh j := rfl
@[simp] theorem State.port_of_setSlot (s : State) (n : Nat) (x : Slot) (j : Nat) : (s.setSlot n x).port j = s.port j := rfl
@[simp] theorem State.conv_of_setSlot (s : State) (n : Nat) (x : Slot) (j : Nat) : (s.setSlot n x).conv j = s.conv j := rfl
@[simp] theorem State.job_of_setSlot (s : State) (n : Nat) (x : Slot) (j : Nat) : (s.setSlot n x).job j = s.job j := rfl
@[simp] theorem State.pin_of_setSlot (s : State) (n : Nat) (x : Slot) (j : Nat) : (s.setSlot n x).pin j = s.pin j := rfl
@[simp] theorem State.tenState_of_setSlot (s : State) (n : Nat) (x : Slot) (j : Nat) : (s.setSlot n x).tenState j = s.tenState j := rfl
@[simp] theorem State.place_of_setSlot (s : State) (n : Nat) (x : Slot) (j : Nat) : (s.setSlot n x).place j = s.place j := rfl
@[simp] theorem State.arb_of_setSlot (s : State) (n : Nat) (x : Slot) (j : Nat) : (s.setSlot n x).arb j = s.arb j := rfl
@[simp] theorem State.aon_of_setSlot (s : State) (n : Nat) (x : Slot) : (s.setSlot n x).aon = s.aon := rfl
@[simp] theorem State.flag_of_setSlot (s : State) (n : Nat) (x : Slot) (j : Nat) : (s.setSlot n x).flag j = s.flag j := rfl
@[simp] theorem State.reg_of_setTenState (s : State) (t v : Nat) (j : Nat) : (s.setTenState t v).reg j = s.reg j := rfl
@[simp] theorem State.pendingVal_of_setTenState (s : State) (t v : Nat) (j : Nat) : (s.setTenState t v).pendingVal j = s.pendingVal j := rfl
@[simp] theorem State.domSt_of_setTenState (s : State) (t v : Nat) (j : Nat) : (s.setTenState t v).domSt j = s.domSt j := rfl
@[simp] theorem State.isUp_of_setTenState (s : State) (t v : Nat) (j : Nat) : (s.setTenState t v).isUp j = s.isUp j := rfl
@[simp] theorem State.core_of_setTenState (s : State) (t v : Nat) (j : Nat) : (s.setTenState t v).core j = s.core j := rfl
@[simp] theorem State.slot_of_setTenState (s : State) (t v : Nat) (j : Nat) : (s.setTenState t v).slot j = s.slot j := rfl
@[simp] theorem State.rd_of_setTenState (s : State) (t v : Nat) (j : Nat) : (s.setTenState t v).rd j = s.rd j := rfl
@[simp] theorem State.ring_of_setTenState (s : State) (t v : Nat) (j : Nat) : (s.setTenState t v).ring j = s.ring j := rfl
@[simp] theorem State.cleat_of_setTenState (s : State) (t v : Nat) (j : Nat) : (s.setTenState t v).cleat j = s.cleat j := rfl
@[simp] theorem State.bayCh_of_setTenState (s : State) (t v : Nat) (j : Nat) : (s.setTenState t v).bayCh j = s.bayCh j := rfl
@[simp] theorem State.port_of_setTenState (s : State) (t v : Nat) (j : Nat) : (s.setTenState t v).port j = s.port j := rfl
@[simp] theorem State.conv_of_setTenState (s : State) (t v : Nat) (j : Nat) : (s.setTenState t v).conv j = s.conv j := rfl
@[simp] theorem State.job_of_setTenState (s : State) (t v : Nat) (j : Nat) : (s.setTenState t v).job j = s.job j := rfl
@[simp] theorem State.pin_of_setTenState (s : State) (t v : Nat) (j : Nat) : (s.setTenState t v).pin j = s.pin j := rfl
@[simp] theorem State.place_of_setTenState (s : State) (t v : Nat) (j : Nat) : (s.setTenState t v).place j = s.place j := rfl
@[simp] theorem State.arb_of_setTenState (s : State) (t v : Nat) (j : Nat) : (s.setTenState t v).arb j = s.arb j := rfl
@[simp] theorem State.aon_of_setTenState (s : State) (t v : Nat) : (s.setTenState t v).aon = s.aon := rfl
@[simp] theorem State.flag_of_setTenState (s : State) (t v : Nat) (j : Nat) : (s.setTenState t v).flag j = s.flag j := rfl
@[simp] theorem State.reg_of_setCleat (s : State) (c : Nat) (x : Cleat) (j : Nat) : (s.setCleat c x).reg j = s.reg j := rfl
@[simp] theorem State.pendingVal_of_setCleat (s : State) (c : Nat) (x : Cleat) (j : Nat) : (s.setCleat c x).pendingVal j = s.pendingVal j := rfl
@[simp] theorem State.domSt_of_setCleat (s : State) (c : Nat) (x : Cleat) (j : Nat) : (s.setCleat c x).domSt j = s.domSt j := rfl
@[simp] theorem State.isUp_of_setCleat (s : State) (c : Nat) (x : Cleat) (j : Nat) : (s.setCleat c x).isUp j = s.isUp j := rfl
@[simp] theorem State.core_of_setCleat (s : State) (c : Nat) (x : Cleat) (j : Nat) : (s.setCleat c x).core j = s.core j := rfl
@[simp] theorem State.slot_of_setCleat (s : State) (c : Nat) (x : Cleat) (j : Nat) : (s.setCleat c x).slot j = s.slot j := rfl
@[simp] theorem State.rd_of_setCleat (s : State) (c : Nat) (x : Cleat) (j : Nat) : (s.setCleat c x).rd j = s.rd j := rfl
@[simp] theorem State.ring_of_setCleat (s : State) (c : Nat) (x : Cleat) (j : Nat) : (s.setCleat c x).ring j = s.ring j := rfl
@[simp] theorem State.bayCh_of_setCleat (s : State) (c : Nat) (x : Cleat) (j : Nat) : (s.setCleat c x).bayCh j = s.bayCh j := rfl
@[simp] theorem State.port_of_setCleat (s : State) (c : Nat) (x : Cleat) (j : Nat) : (s.setCleat c x).port j = s.port j := rfl
@[simp] theorem State.conv_of_setCleat (s : State) (c : Nat) (x : Cleat) (j : Nat) : (s.setCleat c x).conv j = s.conv j := rfl
@[simp] theorem State.job_of_setCleat (s : State) (c : Nat) (x : Cleat) (j : Nat) : (s.setCleat c x).job j = s.job j := rfl
@[simp] theorem State.pin_of_setCleat (s : State) (c : Nat) (x : Cleat) (j : Nat) : (s.setCleat c x).pin j = s.pin j := rfl
@[simp] theorem State.tenState_of_setCleat (s : State) (c : Nat) (x : Cleat) (j : Nat) : (s.setCleat c x).tenState j = s.tenState j := rfl
@[simp] theorem State.place_of_setCleat (s : State) (c : Nat) (x : Cleat) (j : Nat) : (s.setCleat c x).place j = s.place j := rfl
@[simp] theorem State.arb_of_setCleat (s : State) (c : Nat) (x : Cleat) (j : Nat) : (s.setCleat c x).arb j = s.arb j := rfl
@[simp] theorem State.aon_of_setCleat (s : State) (c : Nat) (x : Cleat) : (s.setCleat c x).aon = s.aon := rfl
@[simp] theorem State.flag_of_setCleat (s : State) (c : Nat) (x : Cleat) (j : Nat) : (s.setCleat c x).flag j = s.flag j := rfl
@[simp] theorem State.reg_of_setWait (s : State) (w : WaitRec) (j : Nat) : (s.setWait w).reg j = s.reg j := rfl
@[simp] theorem State.pendingVal_of_setWait (s : State) (w : WaitRec) (j : Nat) : (s.setWait w).pendingVal j = s.pendingVal j := rfl
@[simp] theorem State.domSt_of_setWait (s : State) (w : WaitRec) (j : Nat) : (s.setWait w).domSt j = s.domSt j := rfl
@[simp] theorem State.isUp_of_setWait (s : State) (w : WaitRec) (j : Nat) : (s.setWait w).isUp j = s.isUp j := rfl
@[simp] theorem State.core_of_setWait (s : State) (w : WaitRec) (j : Nat) : (s.setWait w).core j = s.core j := rfl
@[simp] theorem State.slot_of_setWait (s : State) (w : WaitRec) (j : Nat) : (s.setWait w).slot j = s.slot j := rfl
@[simp] theorem State.rd_of_setWait (s : State) (w : WaitRec) (j : Nat) : (s.setWait w).rd j = s.rd j := rfl
@[simp] theorem State.ring_of_setWait (s : State) (w : WaitRec) (j : Nat) : (s.setWait w).ring j = s.ring j := rfl
@[simp] theorem State.bayCh_of_setWait (s : State) (w : WaitRec) (j : Nat) : (s.setWait w).bayCh j = s.bayCh j := rfl
@[simp] theorem State.port_of_setWait (s : State) (w : WaitRec) (j : Nat) : (s.setWait w).port j = s.port j := rfl
@[simp] theorem State.conv_of_setWait (s : State) (w : WaitRec) (j : Nat) : (s.setWait w).conv j = s.conv j := rfl
@[simp] theorem State.job_of_setWait (s : State) (w : WaitRec) (j : Nat) : (s.setWait w).job j = s.job j := rfl
@[simp] theorem State.pin_of_setWait (s : State) (w : WaitRec) (j : Nat) : (s.setWait w).pin j = s.pin j := rfl
@[simp] theorem State.tenState_of_setWait (s : State) (w : WaitRec) (j : Nat) : (s.setWait w).tenState j = s.tenState j := rfl
@[simp] theorem State.place_of_setWait (s : State) (w : WaitRec) (j : Nat) : (s.setWait w).place j = s.place j := rfl
@[simp] theorem State.arb_of_setWait (s : State) (w : WaitRec) (j : Nat) : (s.setWait w).arb j = s.arb j := rfl
@[simp] theorem State.aon_of_setWait (s : State) (w : WaitRec) : (s.setWait w).aon = s.aon := rfl
@[simp] theorem State.flag_of_setWait (s : State) (w : WaitRec) (j : Nat) : (s.setWait w).flag j = s.flag j := rfl
@[simp] theorem State.reg_of_dropWait (s : State) (c : Nat) (j : Nat) : (s.dropWait c).reg j = s.reg j := rfl
@[simp] theorem State.pendingVal_of_dropWait (s : State) (c : Nat) (j : Nat) : (s.dropWait c).pendingVal j = s.pendingVal j := rfl
@[simp] theorem State.domSt_of_dropWait (s : State) (c : Nat) (j : Nat) : (s.dropWait c).domSt j = s.domSt j := rfl
@[simp] theorem State.isUp_of_dropWait (s : State) (c : Nat) (j : Nat) : (s.dropWait c).isUp j = s.isUp j := rfl
@[simp] theorem State.core_of_dropWait (s : State) (c : Nat) (j : Nat) : (s.dropWait c).core j = s.core j := rfl
@[simp] theorem State.slot_of_dropWait (s : State) (c : Nat) (j : Nat) : (s.dropWait c).slot j = s.slot j := rfl
@[simp] theorem State.rd_of_dropWait (s : State) (c : Nat) (j : Nat) : (s.dropWait c).rd j = s.rd j := rfl
@[simp] theorem State.ring_of_dropWait (s : State) (c : Nat) (j : Nat) : (s.dropWait c).ring j = s.ring j := rfl
@[simp] theorem State.bayCh_of_dropWait (s : State) (c : Nat) (j : Nat) : (s.dropWait c).bayCh j = s.bayCh j := rfl
@[simp] theorem State.port_of_dropWait (s : State) (c : Nat) (j : Nat) : (s.dropWait c).port j = s.port j := rfl
@[simp] theorem State.conv_of_dropWait (s : State) (c : Nat) (j : Nat) : (s.dropWait c).conv j = s.conv j := rfl
@[simp] theorem State.job_of_dropWait (s : State) (c : Nat) (j : Nat) : (s.dropWait c).job j = s.job j := rfl
@[simp] theorem State.pin_of_dropWait (s : State) (c : Nat) (j : Nat) : (s.dropWait c).pin j = s.pin j := rfl
@[simp] theorem State.tenState_of_dropWait (s : State) (c : Nat) (j : Nat) : (s.dropWait c).tenState j = s.tenState j := rfl
@[simp] theorem State.place_of_dropWait (s : State) (c : Nat) (j : Nat) : (s.dropWait c).place j = s.place j := rfl
@[simp] theorem State.arb_of_dropWait (s : State) (c : Nat) (j : Nat) : (s.dropWait c).arb j = s.arb j := rfl
@[simp] theorem State.aon_of_dropWait (s : State) (c : Nat) : (s.dropWait c).aon = s.aon := rfl
@[simp] theorem State.flag_of_dropWait (s : State) (c : Nat) (j : Nat) : (s.dropWait c).flag j = s.flag j := rfl
@[simp] theorem State.reg_of_setBayCh (s : State) (n : Nat) (x : BayCh) (j : Nat) : (s.setBayCh n x).reg j = s.reg j := rfl
@[simp] theorem State.pendingVal_of_setBayCh (s : State) (n : Nat) (x : BayCh) (j : Nat) : (s.setBayCh n x).pendingVal j = s.pendingVal j := rfl
@[simp] theorem State.domSt_of_setBayCh (s : State) (n : Nat) (x : BayCh) (j : Nat) : (s.setBayCh n x).domSt j = s.domSt j := rfl
@[simp] theorem State.isUp_of_setBayCh (s : State) (n : Nat) (x : BayCh) (j : Nat) : (s.setBayCh n x).isUp j = s.isUp j := rfl
@[simp] theorem State.core_of_setBayCh (s : State) (n : Nat) (x : BayCh) (j : Nat) : (s.setBayCh n x).core j = s.core j := rfl
@[simp] theorem State.slot_of_setBayCh (s : State) (n : Nat) (x : BayCh) (j : Nat) : (s.setBayCh n x).slot j = s.slot j := rfl
@[simp] theorem State.rd_of_setBayCh (s : State) (n : Nat) (x : BayCh) (j : Nat) : (s.setBayCh n x).rd j = s.rd j := rfl
@[simp] theorem State.ring_of_setBayCh (s : State) (n : Nat) (x : BayCh) (j : Nat) : (s.setBayCh n x).ring j = s.ring j := rfl
@[simp] theorem State.cleat_of_setBayCh (s : State) (n : Nat) (x : BayCh) (j : Nat) : (s.setBayCh n x).cleat j = s.cleat j := rfl
@[simp] theorem State.conv_of_setBayCh (s : State) (n : Nat) (x : BayCh) (j : Nat) : (s.setBayCh n x).conv j = s.conv j := rfl
@[simp] theorem State.job_of_setBayCh (s : State) (n : Nat) (x : BayCh) (j : Nat) : (s.setBayCh n x).job j = s.job j := rfl
@[simp] theorem State.pin_of_setBayCh (s : State) (n : Nat) (x : BayCh) (j : Nat) : (s.setBayCh n x).pin j = s.pin j := rfl
@[simp] theorem State.tenState_of_setBayCh (s : State) (n : Nat) (x : BayCh) (j : Nat) : (s.setBayCh n x).tenState j = s.tenState j := rfl
@[simp] theorem State.place_of_setBayCh (s : State) (n : Nat) (x : BayCh) (j : Nat) : (s.setBayCh n x).place j = s.place j := rfl
@[simp] theorem State.arb_of_setBayCh (s : State) (n : Nat) (x : BayCh) (j : Nat) : (s.setBayCh n x).arb j = s.arb j := rfl
@[simp] theorem State.aon_of_setBayCh (s : State) (n : Nat) (x : BayCh) : (s.setBayCh n x).aon = s.aon := rfl
@[simp] theorem State.flag_of_setBayCh (s : State) (n : Nat) (x : BayCh) (j : Nat) : (s.setBayCh n x).flag j = s.flag j := rfl
@[simp] theorem State.reg_of_setPort (s : State) (n : Nat) (x : BayuCh) (j : Nat) : (s.setPort n x).reg j = s.reg j := rfl
@[simp] theorem State.pendingVal_of_setPort (s : State) (n : Nat) (x : BayuCh) (j : Nat) : (s.setPort n x).pendingVal j = s.pendingVal j := rfl
@[simp] theorem State.domSt_of_setPort (s : State) (n : Nat) (x : BayuCh) (j : Nat) : (s.setPort n x).domSt j = s.domSt j := rfl
@[simp] theorem State.isUp_of_setPort (s : State) (n : Nat) (x : BayuCh) (j : Nat) : (s.setPort n x).isUp j = s.isUp j := rfl
@[simp] theorem State.core_of_setPort (s : State) (n : Nat) (x : BayuCh) (j : Nat) : (s.setPort n x).core j = s.core j := rfl
@[simp] theorem State.slot_of_setPort (s : State) (n : Nat) (x : BayuCh) (j : Nat) : (s.setPort n x).slot j = s.slot j := rfl
@[simp] theorem State.rd_of_setPort (s : State) (n : Nat) (x : BayuCh) (j : Nat) : (s.setPort n x).rd j = s.rd j := rfl
@[simp] theorem State.ring_of_setPort (s : State) (n : Nat) (x : BayuCh) (j : Nat) : (s.setPort n x).ring j = s.ring j := rfl
@[simp] theorem State.cleat_of_setPort (s : State) (n : Nat) (x : BayuCh) (j : Nat) : (s.setPort n x).cleat j = s.cleat j := rfl
@[simp] theorem State.conv_of_setPort (s : State) (n : Nat) (x : BayuCh) (j : Nat) : (s.setPort n x).conv j = s.conv j := rfl
@[simp] theorem State.job_of_setPort (s : State) (n : Nat) (x : BayuCh) (j : Nat) : (s.setPort n x).job j = s.job j := rfl
@[simp] theorem State.pin_of_setPort (s : State) (n : Nat) (x : BayuCh) (j : Nat) : (s.setPort n x).pin j = s.pin j := rfl
@[simp] theorem State.tenState_of_setPort (s : State) (n : Nat) (x : BayuCh) (j : Nat) : (s.setPort n x).tenState j = s.tenState j := rfl
@[simp] theorem State.place_of_setPort (s : State) (n : Nat) (x : BayuCh) (j : Nat) : (s.setPort n x).place j = s.place j := rfl
@[simp] theorem State.arb_of_setPort (s : State) (n : Nat) (x : BayuCh) (j : Nat) : (s.setPort n x).arb j = s.arb j := rfl
@[simp] theorem State.aon_of_setPort (s : State) (n : Nat) (x : BayuCh) : (s.setPort n x).aon = s.aon := rfl
@[simp] theorem State.flag_of_setPort (s : State) (n : Nat) (x : BayuCh) (j : Nat) : (s.setPort n x).flag j = s.flag j := rfl
@[simp] theorem State.reg_of_setConv (s : State) (c : Nat) (x : Conv) (j : Nat) : (s.setConv c x).reg j = s.reg j := rfl
@[simp] theorem State.pendingVal_of_setConv (s : State) (c : Nat) (x : Conv) (j : Nat) : (s.setConv c x).pendingVal j = s.pendingVal j := rfl
@[simp] theorem State.domSt_of_setConv (s : State) (c : Nat) (x : Conv) (j : Nat) : (s.setConv c x).domSt j = s.domSt j := rfl
@[simp] theorem State.isUp_of_setConv (s : State) (c : Nat) (x : Conv) (j : Nat) : (s.setConv c x).isUp j = s.isUp j := rfl
@[simp] theorem State.core_of_setConv (s : State) (c : Nat) (x : Conv) (j : Nat) : (s.setConv c x).core j = s.core j := rfl
@[simp] theorem State.slot_of_setConv (s : State) (c : Nat) (x : Conv) (j : Nat) : (s.setConv c x).slot j = s.slot j := rfl
@[simp] theorem State.rd_of_setConv (s : State) (c : Nat) (x : Conv) (j : Nat) : (s.setConv c x).rd j = s.rd j := rfl
@[simp] theorem State.ring_of_setConv (s : State) (c : Nat) (x : Conv) (j : Nat) : (s.setConv c x).ring j = s.ring j := rfl
@[simp] theorem State.cleat_of_setConv (s : State) (c : Nat) (x : Conv) (j : Nat) : (s.setConv c x).cleat j = s.cleat j := rfl
@[simp] theorem State.bayCh_of_setConv (s : State) (c : Nat) (x : Conv) (j : Nat) : (s.setConv c x).bayCh j = s.bayCh j := rfl
@[simp] theorem State.port_of_setConv (s : State) (c : Nat) (x : Conv) (j : Nat) : (s.setConv c x).port j = s.port j := rfl
@[simp] theorem State.job_of_setConv (s : State) (c : Nat) (x : Conv) (j : Nat) : (s.setConv c x).job j = s.job j := rfl
@[simp] theorem State.pin_of_setConv (s : State) (c : Nat) (x : Conv) (j : Nat) : (s.setConv c x).pin j = s.pin j := rfl
@[simp] theorem State.tenState_of_setConv (s : State) (c : Nat) (x : Conv) (j : Nat) : (s.setConv c x).tenState j = s.tenState j := rfl
@[simp] theorem State.place_of_setConv (s : State) (c : Nat) (x : Conv) (j : Nat) : (s.setConv c x).place j = s.place j := rfl
@[simp] theorem State.arb_of_setConv (s : State) (c : Nat) (x : Conv) (j : Nat) : (s.setConv c x).arb j = s.arb j := rfl
@[simp] theorem State.aon_of_setConv (s : State) (c : Nat) (x : Conv) : (s.setConv c x).aon = s.aon := rfl
@[simp] theorem State.flag_of_setConv (s : State) (c : Nat) (x : Conv) (j : Nat) : (s.setConv c x).flag j = s.flag j := rfl
@[simp] theorem State.reg_of_setJob (s : State) (p : Nat) (x : Job) (j : Nat) : (s.setJob p x).reg j = s.reg j := rfl
@[simp] theorem State.pendingVal_of_setJob (s : State) (p : Nat) (x : Job) (j : Nat) : (s.setJob p x).pendingVal j = s.pendingVal j := rfl
@[simp] theorem State.domSt_of_setJob (s : State) (p : Nat) (x : Job) (j : Nat) : (s.setJob p x).domSt j = s.domSt j := rfl
@[simp] theorem State.isUp_of_setJob (s : State) (p : Nat) (x : Job) (j : Nat) : (s.setJob p x).isUp j = s.isUp j := rfl
@[simp] theorem State.core_of_setJob (s : State) (p : Nat) (x : Job) (j : Nat) : (s.setJob p x).core j = s.core j := rfl
@[simp] theorem State.slot_of_setJob (s : State) (p : Nat) (x : Job) (j : Nat) : (s.setJob p x).slot j = s.slot j := rfl
@[simp] theorem State.rd_of_setJob (s : State) (p : Nat) (x : Job) (j : Nat) : (s.setJob p x).rd j = s.rd j := rfl
@[simp] theorem State.ring_of_setJob (s : State) (p : Nat) (x : Job) (j : Nat) : (s.setJob p x).ring j = s.ring j := rfl
@[simp] theorem State.cleat_of_setJob (s : State) (p : Nat) (x : Job) (j : Nat) : (s.setJob p x).cleat j = s.cleat j := rfl
@[simp] theorem State.bayCh_of_setJob (s : State) (p : Nat) (x : Job) (j : Nat) : (s.setJob p x).bayCh j = s.bayCh j := rfl
@[simp] theorem State.port_of_setJob (s : State) (p : Nat) (x : Job) (j : Nat) : (s.setJob p x).port j = s.port j := rfl
@[simp] theorem State.conv_of_setJob (s : State) (p : Nat) (x : Job) (j : Nat) : (s.setJob p x).conv j = s.conv j := rfl
@[simp] theorem State.pin_of_setJob (s : State) (p : Nat) (x : Job) (j : Nat) : (s.setJob p x).pin j = s.pin j := rfl
@[simp] theorem State.tenState_of_setJob (s : State) (p : Nat) (x : Job) (j : Nat) : (s.setJob p x).tenState j = s.tenState j := rfl
@[simp] theorem State.place_of_setJob (s : State) (p : Nat) (x : Job) (j : Nat) : (s.setJob p x).place j = s.place j := rfl
@[simp] theorem State.arb_of_setJob (s : State) (p : Nat) (x : Job) (j : Nat) : (s.setJob p x).arb j = s.arb j := rfl
@[simp] theorem State.aon_of_setJob (s : State) (p : Nat) (x : Job) : (s.setJob p x).aon = s.aon := rfl
@[simp] theorem State.flag_of_setJob (s : State) (p : Nat) (x : Job) (j : Nat) : (s.setJob p x).flag j = s.flag j := rfl
@[simp] theorem State.reg_of_setPin (s : State) (n : Nat) (x : Pin) (j : Nat) : (s.setPin n x).reg j = s.reg j := rfl
@[simp] theorem State.pendingVal_of_setPin (s : State) (n : Nat) (x : Pin) (j : Nat) : (s.setPin n x).pendingVal j = s.pendingVal j := rfl
@[simp] theorem State.domSt_of_setPin (s : State) (n : Nat) (x : Pin) (j : Nat) : (s.setPin n x).domSt j = s.domSt j := rfl
@[simp] theorem State.isUp_of_setPin (s : State) (n : Nat) (x : Pin) (j : Nat) : (s.setPin n x).isUp j = s.isUp j := rfl
@[simp] theorem State.core_of_setPin (s : State) (n : Nat) (x : Pin) (j : Nat) : (s.setPin n x).core j = s.core j := rfl
@[simp] theorem State.slot_of_setPin (s : State) (n : Nat) (x : Pin) (j : Nat) : (s.setPin n x).slot j = s.slot j := rfl
@[simp] theorem State.rd_of_setPin (s : State) (n : Nat) (x : Pin) (j : Nat) : (s.setPin n x).rd j = s.rd j := rfl
@[simp] theorem State.ring_of_setPin (s : State) (n : Nat) (x : Pin) (j : Nat) : (s.setPin n x).ring j = s.ring j := rfl
@[simp] theorem State.cleat_of_setPin (s : State) (n : Nat) (x : Pin) (j : Nat) : (s.setPin n x).cleat j = s.cleat j := rfl
@[simp] theorem State.bayCh_of_setPin (s : State) (n : Nat) (x : Pin) (j : Nat) : (s.setPin n x).bayCh j = s.bayCh j := rfl
@[simp] theorem State.port_of_setPin (s : State) (n : Nat) (x : Pin) (j : Nat) : (s.setPin n x).port j = s.port j := rfl
@[simp] theorem State.conv_of_setPin (s : State) (n : Nat) (x : Pin) (j : Nat) : (s.setPin n x).conv j = s.conv j := rfl
@[simp] theorem State.job_of_setPin (s : State) (n : Nat) (x : Pin) (j : Nat) : (s.setPin n x).job j = s.job j := rfl
@[simp] theorem State.tenState_of_setPin (s : State) (n : Nat) (x : Pin) (j : Nat) : (s.setPin n x).tenState j = s.tenState j := rfl
@[simp] theorem State.place_of_setPin (s : State) (n : Nat) (x : Pin) (j : Nat) : (s.setPin n x).place j = s.place j := rfl
@[simp] theorem State.arb_of_setPin (s : State) (n : Nat) (x : Pin) (j : Nat) : (s.setPin n x).arb j = s.arb j := rfl
@[simp] theorem State.aon_of_setPin (s : State) (n : Nat) (x : Pin) : (s.setPin n x).aon = s.aon := rfl
@[simp] theorem State.flag_of_setPin (s : State) (n : Nat) (x : Pin) (j : Nat) : (s.setPin n x).flag j = s.flag j := rfl
@[simp] theorem State.reg_of_setEcc (s : State) (o n : Nat) (j : Nat) : (s.setEcc o n).reg j = s.reg j := rfl
@[simp] theorem State.pendingVal_of_setEcc (s : State) (o n : Nat) (j : Nat) : (s.setEcc o n).pendingVal j = s.pendingVal j := rfl
@[simp] theorem State.domSt_of_setEcc (s : State) (o n : Nat) (j : Nat) : (s.setEcc o n).domSt j = s.domSt j := rfl
@[simp] theorem State.isUp_of_setEcc (s : State) (o n : Nat) (j : Nat) : (s.setEcc o n).isUp j = s.isUp j := rfl
@[simp] theorem State.core_of_setEcc (s : State) (o n : Nat) (j : Nat) : (s.setEcc o n).core j = s.core j := rfl
@[simp] theorem State.slot_of_setEcc (s : State) (o n : Nat) (j : Nat) : (s.setEcc o n).slot j = s.slot j := rfl
@[simp] theorem State.rd_of_setEcc (s : State) (o n : Nat) (j : Nat) : (s.setEcc o n).rd j = s.rd j := rfl
@[simp] theorem State.ring_of_setEcc (s : State) (o n : Nat) (j : Nat) : (s.setEcc o n).ring j = s.ring j := rfl
@[simp] theorem State.cleat_of_setEcc (s : State) (o n : Nat) (j : Nat) : (s.setEcc o n).cleat j = s.cleat j := rfl
@[simp] theorem State.bayCh_of_setEcc (s : State) (o n : Nat) (j : Nat) : (s.setEcc o n).bayCh j = s.bayCh j := rfl
@[simp] theorem State.port_of_setEcc (s : State) (o n : Nat) (j : Nat) : (s.setEcc o n).port j = s.port j := rfl
@[simp] theorem State.conv_of_setEcc (s : State) (o n : Nat) (j : Nat) : (s.setEcc o n).conv j = s.conv j := rfl
@[simp] theorem State.job_of_setEcc (s : State) (o n : Nat) (j : Nat) : (s.setEcc o n).job j = s.job j := rfl
@[simp] theorem State.pin_of_setEcc (s : State) (o n : Nat) (j : Nat) : (s.setEcc o n).pin j = s.pin j := rfl
@[simp] theorem State.tenState_of_setEcc (s : State) (o n : Nat) (j : Nat) : (s.setEcc o n).tenState j = s.tenState j := rfl
@[simp] theorem State.place_of_setEcc (s : State) (o n : Nat) (j : Nat) : (s.setEcc o n).place j = s.place j := rfl
@[simp] theorem State.arb_of_setEcc (s : State) (o n : Nat) (j : Nat) : (s.setEcc o n).arb j = s.arb j := rfl
@[simp] theorem State.aon_of_setEcc (s : State) (o n : Nat) : (s.setEcc o n).aon = s.aon := rfl
@[simp] theorem State.flag_of_setEcc (s : State) (o n : Nat) (j : Nat) : (s.setEcc o n).flag j = s.flag j := rfl
theorem State.flag_setFlag_other (s : State) (k j : Nat) (b : Bool) (h : k ≠ j) : (s.setFlag k b).flag j = s.flag j := by
  simp [State.flag, State.reg_setFlag_other s k j b h]
theorem State.pendingVal_setShadow_other (s : State) (k j : Nat) (v : Option Nat) (h : k ≠ j) :
    (s.setShadow k v).pendingVal j = s.pendingVal j := by
  simp [State.pendingVal, State.setShadow, Tab.get_set_other _ _ _ _ _ h]

end Sys2Proof.Machine
end

