-- ==== Sys2Proof/Laws/Eki.lean ====
section
/-! SUPPORT. The instruction boundary once: what an EKI command answers on a core that is ready, and what the shared ends of an
instruction leave. -/
namespace Sys2Proof.Machine

/-- On a ready core an EKI command answers what its own work answers. -/
theorem State.eki_ready {s s1 : State} {core : Fin 5} (op : Nat) (x : BitVec 26) (body : Nat → Nat → State → Ex)
    (h : s.ready core.val = some s1) :
    s.eki core op x body = match body core.val x.toNat s1 with
      | .fin s2 => .next s2
      | .wait => .next s
      | .trap code seg tval s2 => .next (s.settle (s2.trap core.val code seg tval (ekiWord op x.toNat))) := by
  unfold State.ready State.runs at h
  split at h
  · rename_i g
    simp only [Bool.and_eq_true, Bool.not_eq_true', Option.isNone_iff_eq_none] at g
    obtain ⟨g, hb⟩ := g
    unfold State.eki
    simp only [g.1.1.1, g.1.1.2, g.1.2, g.2, hb, Option.getD_none, Option.getD_some, Bool.and_self, Bool.not_true, Bool.false_eq_true, if_false]
    cases hd : s.drainForeign core.val with
    | none => simp [hd] at h
    | some s0 =>
      simp only [hd, Option.bind_some] at h
      cases hf : s0.fetch core.val with
      | data v s2 => simp only [hf, Option.some.injEq] at h; subst h; simp only [hf] <;> rfl
      | _ => simp [hf] at h
  · cases h

/-- A fetch that hits the instruction cache touches that cache alone. -/
theorem State.ready_hit {s : State} {c : Nat} {l : Line} (hr : s.runs c = true) (hb : s.boundary c = none)
    (hs : (s.core c).sb = [])
    (hc : checkSeg (s.core c).codeSeg (s.core c).tmode (s.coreTenant c) 2 (s.core c).pc.toNat 4 false = none)
    (hl : (s.core c).ic.find? (fun x => x.addr == lineOf ((s.core c).codeSeg.base + (s.core c).pc.toNat)) = some l) :
    s.ready c = some (s.setCore c ((s.core c).icTake l)) := by
  unfold State.ready
  simp only [hr, hb, Option.isNone_none, Bool.and_self, if_true, State.drainForeign, hs, List.filter_nil, List.length_nil, State.drainFirst, Option.bind_some,
    State.fetch, hc, hl]

end Sys2Proof.Machine
end

