-- ==== Sys2Proof/Laws/Memory.lean ====
section
/-! SUPPORT. Memory: reading after writing, and the canonical form that every memory operation keeps. -/
namespace Sys2Proof.Machine

/-- A write of one byte keeps the canonical form. -/
theorem State.wr_wf (s : State) (a : Nat) (b : Byte) (w : Memory.wf s.mem = true) : Memory.wf (s.wr a b).mem = true :=
  Tab.wf_set memDefault s.mem a b w

/-- A write of bytes keeps it. -/
theorem State.wrBytes_wf (s : State) (a : Nat) (l : List Byte) (w : Memory.wf s.mem = true) :
    Memory.wf (s.wrBytes a l).mem = true := by
  induction l generalizing s a with
  | nil => exact w
  | cons b t ih => exact ih (s.wr a b) (a + 1) (s.wr_wf a b w)

/-- A little-endian write keeps it. -/
theorem State.wrLe_wf (s : State) (a n v : Nat) (w : Memory.wf s.mem = true) : Memory.wf (s.wrLe a n v).mem = true :=
  s.wrBytes_wf a _ w

/-- Loss of a range keeps it. -/
theorem State.dropMem_wf (s : State) (lo hi : Nat) (w : Memory.wf s.mem = true) : Memory.wf (s.dropMem lo hi).mem = true := 
  Tab.wf_keep memDefault (fun a => !decide (lo ≤ a ∧ a < hi)) s.mem w

/-- A write of one register field keeps the register file's form. -/
theorem State.setReg_wf (s : State) (k v : Nat) (w : Regs.wf s.regs = true) : Regs.wf (s.setReg k v).regs = true :=
  Tab.wf_set regReset s.regs k v w

/-- A byte just written reads back; every other byte reads as before. -/
theorem State.rd_wr_at (s : State) (a j : Nat) (b : Byte) : (s.wr a b).rd j = if a = j then b else s.rd j :=
  Tab.get_set memDefault s.mem a j b

/-- Bytes outside a write read as before. -/
theorem State.rd_wrBytes_outside (s : State) (a j : Nat) (l : List Byte) (h : j < a ∨ a + l.length ≤ j) :
    (s.wrBytes a l).rd j = s.rd j := by
  induction l generalizing s a with
  | nil => rfl
  | cons b t ih =>
    simp only [List.length_cons] at h
    rw [State.wrBytes, ih (s.wr a b) (a + 1) (by omega), State.rd_wr_at, if_neg (by omega)]

/-- Bytes inside a write read as written. -/
theorem State.rd_wrBytes_inside (s : State) (a i : Nat) (l : List Byte) (h : i < l.length) :
    (s.wrBytes a l).rd (a + i) = l[i] := by
  induction l generalizing s a i with
  | nil => simp at h
  | cons b t ih =>
    cases i with
    | zero => rw [State.wrBytes, State.rd_wrBytes_outside _ _ _ _ (by omega), State.rd_wr_at]; simp
    | succ i =>
      have := ih (s.wr a b) (a + 1) i (by simpa using h)
      rw [State.wrBytes, show a + (i + 1) = a + 1 + i by omega, this]; simp

/-- The bytes outside a write read as before, many at once. -/
theorem State.rdBytes_wrBytes_outside (s : State) (a b n : Nat) (l : List Byte) (h : b + n ≤ a ∨ a + l.length ≤ b) :
    (s.wrBytes a l).rdBytes b n = s.rdBytes b n := by
  simp only [State.rdBytes]
  refine List.map_congr_left (fun i hi => ?_)
  have := List.mem_range.mp hi
  exact s.rd_wrBytes_outside a (b + i) l (by omega)

/-- The bytes of a write read as written, all at once. -/
theorem State.rdBytes_wrBytes (s : State) (a : Nat) (l : List Byte) : (s.wrBytes a l).rdBytes a l.length = l := by
  simp only [State.rdBytes]
  apply List.ext_getElem (by simp)
  intro i _ h
  simp only [List.getElem_map, List.getElem_range]
  exact s.rd_wrBytes_inside a i l h

/-- The little-endian bytes of a number are that number, to their width. -/
theorem ofLe_leBytes (k n : Nat) : ofLe (leBytes n k) = n % 2 ^ (8 * k) := by
  induction k generalizing n with
  | zero => simp [leBytes, ofLe, Nat.mod_one]
  | succ k ih =>
    simp only [leBytes, ofLe, ih, BitVec.toNat_ofNat]
    rw [show 8 * (k + 1) = 8 + 8 * k by omega, Nat.pow_add, Nat.mod_mul]

/-! ### A CRC has 32 bits -/

/-- Any number of steps that keep 32 bits keep them. -/
theorem foldl_lt {α : Type} (f : Nat → α → Nat) (hf : ∀ c x, c < 2 ^ 32 → f c x < 2 ^ 32) (l : List α) (c : Nat) (h : c < 2 ^ 32) :
    l.foldl f c < 2 ^ 32 := by
  induction l generalizing c with
  | nil => exact h
  | cons x t ih => exact ih _ (hf c x h)

theorem crc32cBit_lt (c : Nat) (h : c < 2 ^ 32) : crc32cBit c < 2 ^ 32 := by
  unfold crc32cBit
  split
  · exact Nat.xor_lt_two_pow (by omega) (by decide)
  · omega

theorem crc32Bit_lt (c : Nat) (h : c < 2 ^ 32) : crc32Bit c < 2 ^ 32 := by
  unfold crc32Bit
  split
  · exact Nat.xor_lt_two_pow (by omega) (by decide)
  · omega

theorem crc32c_lt (l : List Byte) : crc32c l < 2 ^ 32 :=
  Nat.xor_lt_two_pow (foldl_lt _ (fun _ b h => foldl_lt _ (fun c _ => crc32cBit_lt c) _ _
    (Nat.xor_lt_two_pow h (by have := b.isLt; omega))) _ _ (by decide)) (by decide)

theorem crc32_lt (l : List Byte) : crc32 l < 2 ^ 32 :=
  Nat.xor_lt_two_pow (foldl_lt _ (fun _ b h => foldl_lt _ (fun c _ => crc32Bit_lt c) _ _
    (Nat.xor_lt_two_pow h (by have := b.isLt; omega))) _ _ (by decide)) (by decide)

end Sys2Proof.Machine
end

