-- ==== Sys2Proof/Laws/Keeps.lean ====
section
/-! SUPPORT. What every shared operation keeps: the queue, and the canonical form of memory and registers. One lemma per operation,
each in the form "if the state so far has kept them, it still has after this". -/
namespace Sys2Proof.Machine

/-- From one state to the other the queue is the same, and a canonical form stays one. -/
def Keeps (s t : State) : Prop := t.pending = s.pending ∧ (s.canonical = true → t.canonical = true)

theorem Keeps.refl (s : State) : Keeps s s := ⟨rfl, id⟩

/-- A change of other fields only. -/
theorem Keeps.mk {s t : State} {x1 x3 x4 x5 x6 x7 x9 x10 x11 x12 x13 x14 x15 x16 x17 x18 x19 x20 x21 x22 x23 x24 x25 x26 x27 x28 x29 x30 x31}
    (h : Keeps s t) : Keeps s (State.mk t.pending x1 t.regs x3 x4 x5 x6 x7 t.mem x9 x10 x11 x12 x13 x14 x15 x16 x17 x18 x19 x20 x21 x22 x23 x24 x25 x26 x27 x28 x29 x30 x31) :=
  ⟨h.1, h.2⟩

theorem Keeps.ite {s t u : State} {c : Prop} [Decidable c] (ht : Keeps s t) (hu : Keeps s u) : Keeps s (if c then t else u) := by
  split
  · exact ht
  · exact hu

theorem Keeps.foldl {α : Type} {s t : State} {f : State → α → State} (hf : ∀ u a, Keeps s u → Keeps s (f u a)) (l : List α)
    (h : Keeps s t) : Keeps s (l.foldl f t) := by
  induction l generalizing t with
  | nil => exact h
  | cons a l ih => exact ih (hf t a h)

theorem Keeps.foldl_proj {α β : Type} (g : β → State) {s : State} {t : β} {f : β → α → β}
    (hf : ∀ u a, Keeps s (g u) → Keeps s (g (f u a))) (l : List α) (h : Keeps s (g t)) : Keeps s (g (l.foldl f t)) := by
  induction l generalizing t with
  | nil => exact h
  | cons a l ih => exact ih (hf t a h)

theorem Keeps.elim {α : Type} {s t : State} {f : α → State} (o : Option α) (ht : Keeps s t) (hf : ∀ a, Keeps s (f a)) :
    Keeps s (o.elim t f) := by
  cases o with
  | none => exact ht
  | some a => exact hf a

/-- What an operation that may not happen keeps when it does. -/
def KeepsOpt (s : State) (o : Option State) : Prop := ∀ t, o = some t → Keeps s t

theorem KeepsOpt.none {s : State} : KeepsOpt s none := by intro t h; cases h
theorem KeepsOpt.some {s t : State} (h : Keeps s t) : KeepsOpt s (some t) := by intro u e; cases e; exact h
theorem KeepsOpt.ite {s : State} {c : Prop} [Decidable c] {t u : Option State} (ht : KeepsOpt s t) (hu : KeepsOpt s u) :
    KeepsOpt s (if c then t else u) := by
  split
  · exact ht
  · exact hu
theorem KeepsOpt.map {s : State} {o : Option State} {f : State → State} (ho : KeepsOpt s o)
    (hf : ∀ t, Keeps s t → Keeps s (f t)) : KeepsOpt s (o.map f) := by
  cases o with
  | none => exact .none
  | some t => exact .some (hf t (ho t rfl))
theorem KeepsOpt.bind {s : State} {o : Option State} {f : State → Option State} (ho : KeepsOpt s o)
    (hf : ∀ t, Keeps s t → KeepsOpt s (f t)) : KeepsOpt s (o.bind f) := by
  cases o with
  | none => exact .none
  | some t => exact hf t (ho t rfl)

/-- What a pair's state keeps, from the pair. -/
theorem Keeps.of_pair {α : Type} {s t : State} {p : α × State} {a : α} (h : Keeps s p.2) (e : p = (a, t)) : Keeps s t := by
  rw [e] at h; exact h

/-- What an operation that did happen keeps. -/
theorem KeepsOpt.get {s t : State} {o : Option State} (h : KeepsOpt s o) (e : o = Option.some t) : Keeps s t := h t e

/-- What an operation that answers a value and may not happen keeps when it does. -/
def KeepsOptP {α : Type} (s : State) (o : Option (α × State)) : Prop := ∀ p, o = some p → Keeps s p.2

theorem KeepsOptP.none {α : Type} {s : State} : KeepsOptP (α := α) s none := by intro t h; cases h
theorem KeepsOptP.some {α : Type} {s t : State} {a : α} (h : Keeps s t) : KeepsOptP s (some (a, t)) := by intro u e; cases e; exact h
theorem KeepsOptP.get {α : Type} {s t : State} {a : α} {o : Option (α × State)} (h : KeepsOptP s o) (e : o = Option.some (a, t)) :
    Keeps s t := h _ e
theorem KeepsOptP.map {α : Type} {s : State} {o : Option State} {f : State → α × State} (ho : KeepsOpt s o)
    (hf : ∀ t, Keeps s t → Keeps s (f t).2) : KeepsOptP s (o.map f) := by
  cases o with
  | none => exact .none
  | some t => exact .some (hf t (ho t rfl))
theorem KeepsOptP.bind {α : Type} {s : State} {o : Option State} {f : State → Option (α × State)} (ho : KeepsOpt s o)
    (hf : ∀ t, Keeps s t → KeepsOptP s (f t)) : KeepsOptP s (o.bind f) := by
  cases o with
  | none => exact .none
  | some t => exact hf t (ho t rfl)
theorem KeepsOptP.bindP {α β : Type} {s : State} {o : Option (β × State)} {f : β × State → Option (α × State)} (ho : KeepsOptP s o)
    (hf : ∀ p, Keeps s p.2 → KeepsOptP s (f p)) : KeepsOptP s (o.bind f) := by
  cases o with
  | none => exact .none
  | some p => exact hf p (ho p rfl)
theorem KeepsOptP.toOpt {α : Type} {s : State} {o : Option (α × State)} {f : α × State → State} (ho : KeepsOptP s o)
    (hf : ∀ p, Keeps s p.2 → Keeps s (f p)) : KeepsOpt s (o.map f) := by
  cases o with
  | none => exact KeepsOpt.none
  | some p => exact .some (hf p (ho p rfl))
theorem KeepsOptP.bindOpt {α : Type} {s : State} {o : Option (α × State)} {f : α × State → Option State} (ho : KeepsOptP s o)
    (hf : ∀ p, Keeps s p.2 → KeepsOpt s (f p)) : KeepsOpt s (o.bind f) := by
  cases o with
  | none => exact KeepsOpt.none
  | some p => exact hf p (ho p rfl)
theorem KeepsOpt.getD {s t : State} {o : Option State} (ho : KeepsOpt s o) (h : Keeps s t) : Keeps s (o.getD t) := by
  cases o with
  | none => exact h
  | some u => exact ho u rfl
theorem KeepsOpt.elim {s t : State} {f : State → State} {o : Option State} (ho : KeepsOpt s o) (ht : Keeps s t)
    (hf : ∀ u, Keeps s u → Keeps s (f u)) : Keeps s (o.elim t f) := by
  cases o with
  | none => exact ht
  | some u => exact hf u (ho u rfl)
theorem KeepsOpt.foldl {α : Type} {s : State} {o : Option State} {f : Option State → α → Option State}
    (hf : ∀ u a, KeepsOpt s u → KeepsOpt s (f u a)) (l : List α) (h : KeepsOpt s o) : KeepsOpt s (l.foldl f o) := by
  induction l generalizing o with
  | nil => exact h
  | cons a l ih => exact ih (hf o a h)

theorem State.setReg_keeps {z s : State} (k v : Nat) (h : Keeps z s) : Keeps z (s.setReg k v) :=
  ⟨h.1, fun c => by
    have := h.2 c; simp only [State.canonical, Bool.and_eq_true] at this ⊢; exact ⟨this.1, s.setReg_wf k v this.2⟩⟩

theorem State.setFlag_keeps {z s : State} (k : Key) (b : Bool) (h : Keeps z s) :
    Keeps z (s.setFlag k b) := by
  unfold State.setFlag
  repeat' (first
    | with_reducible assumption
    | extract_lets
    | with_reducible apply State.setReg_keeps)

theorem State.count_keeps {z s : State} (k : Key) (w n : Nat) (h : Keeps z s) :
    Keeps z (s.count k w n) := by
  unfold State.count
  repeat' (first
    | with_reducible assumption
    | extract_lets
    | with_reducible apply State.setReg_keeps)

theorem State.setShadow_keeps {z s : State} (k : Key) (v : Option Nat) (h : Keeps z s) :
    Keeps z (s.setShadow k v) := by
  unfold State.setShadow
  repeat' (first
    | with_reducible assumption
    | extract_lets
    | dsimp +zetaDelta only
    | with_reducible apply Keeps.mk)

theorem State.freeBits_keeps {z s : State} (w : Nat) (h : Keeps z s) :
    Keeps z (s.freeBits w).2 := by
  unfold State.freeBits
  repeat' (first
    | with_reducible assumption
    | extract_lets
    | with_reducible apply Keeps.mk)

theorem State.freeBytes_keeps {z s : State} (n : Nat) (h : Keeps z s) : Keeps z (s.freeBytes n).2 := by
  induction n generalizing s with
  | zero => exact h
  | succ n ih => exact ih ⟨h.1, h.2⟩

theorem State.wr_keeps {z s : State} (a : Nat) (b : Byte) (h : Keeps z s) : Keeps z (s.wr a b) :=
  ⟨h.1, fun c => by
    have := h.2 c; simp only [State.canonical, Bool.and_eq_true] at this ⊢; exact ⟨s.wr_wf a b this.1, this.2⟩⟩

theorem State.wrBytes_keeps {z s : State} (a : Nat) (l : List Byte) (h : Keeps z s) : Keeps z (s.wrBytes a l) := by
  induction l generalizing s a with
  | nil => exact h
  | cons b t ih => exact ih (a + 1) (State.wr_keeps a b h)

theorem State.wrLe_keeps {z s : State} (a n v : Nat) (h : Keeps z s) :
    Keeps z (s.wrLe a n v) := by
  unfold State.wrLe
  repeat' (first
    | with_reducible assumption
    | extract_lets
    | with_reducible apply State.wrBytes_keeps)

theorem State.setDom_keeps {z s : State} (d : Nat) (x : DomSt) (h : Keeps z s) :
    Keeps z (s.setDom d x) := by
  unfold State.setDom
  repeat' (first
    | with_reducible assumption
    | extract_lets
    | dsimp +zetaDelta only
    | with_reducible apply Keeps.mk)

theorem State.setRing_keeps {z s : State} (b : Nat) (r : Ring) (h : Keeps z s) :
    Keeps z (s.setRing b r) := by
  unfold State.setRing
  repeat' (first
    | with_reducible assumption
    | extract_lets
    | dsimp +zetaDelta only
    | with_reducible apply Keeps.mk)

theorem State.report_keeps {z s : State} (b e : Nat) (h : Keeps z s) :
    Keeps z (s.report b e) := by
  unfold State.report
  repeat' (first
    | with_reducible assumption
    | extract_lets
    | with_reducible apply State.setRing_keeps
    | with_reducible apply Keeps.mk)

theorem State.reef1Leave_keeps {z s : State} (h : Keeps z s) :
    Keeps z (s.reef1Leave) := by
  unfold State.reef1Leave
  repeat' (first
    | with_reducible assumption
    | extract_lets
    | with_reducible apply State.setReg_keeps
    | with_reducible apply Keeps.ite
    | split)

theorem State.irq_keeps {z s : State} (n : Nat) (h : Keeps z s) :
    Keeps z (s.irq n) := by
  unfold State.irq
  repeat' (first
    | with_reducible assumption
    | extract_lets
    | with_reducible apply State.reef1Leave_keeps
    | with_reducible apply Keeps.ite
    | split
    | dsimp +zetaDelta only
    | with_reducible apply Keeps.mk)

theorem State.halyard_keeps {z s : State} (i : Nat) (h : Keeps z s) :
    Keeps z (s.halyard i) := by
  unfold State.halyard
  repeat' (first
    | with_reducible assumption
    | extract_lets
    | with_reducible apply State.reef1Leave_keeps
    | with_reducible apply State.setReg_keeps
    | with_reducible apply Keeps.ite
    | split
    | dsimp +zetaDelta only
    | with_reducible apply Keeps.mk)

theorem State.errKick_keeps {z s : State} (h : Keeps z s) :
    Keeps z (s.errKick) := by
  unfold State.errKick
  repeat' (first
    | with_reducible assumption
    | extract_lets
    | with_reducible apply State.count_keeps
    | with_reducible apply Keeps.ite
    | split
    | with_reducible apply Keeps.mk)

theorem State.errFatal_keeps {z s : State} (r : ErrRec) (h : Keeps z s) :
    Keeps z (s.errFatal r) := by
  unfold State.errFatal
  repeat' (first
    | with_reducible assumption
    | extract_lets
    | with_reducible refine KeepsOpt.getD ?_ ?_
    | with_reducible apply KeepsOpt.some
    | with_reducible apply KeepsOpt.ite
    | with_reducible refine KeepsOpt.map ?_ (fun u hu => ?_)
    | with_reducible apply Keeps.ite
    | split
    | dsimp +zetaDelta only
    | with_reducible apply Keeps.mk)

theorem State.raise_keeps {z s : State} (r : ErrRec) (h : Keeps z s) :
    Keeps z (s.raise r) := by
  unfold State.raise
  repeat' (first
    | with_reducible assumption
    | extract_lets
    | with_reducible apply State.errFatal_keeps
    | with_reducible apply State.errKick_keeps
    | with_reducible apply Keeps.ite
    | split
    | dsimp +zetaDelta only
    | with_reducible apply Keeps.mk)

theorem State.setCore_keeps {z s : State} (c : Nat) (x : Core) (h : Keeps z s) :
    Keeps z (s.setCore c x) := by
  unfold State.setCore
  repeat' (first
    | with_reducible assumption
    | extract_lets
    | dsimp +zetaDelta only
    | with_reducible apply Keeps.mk)

theorem State.setSlot_keeps {z s : State} (n : Nat) (x : Slot) (h : Keeps z s) :
    Keeps z (s.setSlot n x) := by
  unfold State.setSlot
  repeat' (first
    | with_reducible assumption
    | extract_lets
    | dsimp +zetaDelta only
    | with_reducible apply Keeps.mk)

theorem State.setTenState_keeps {z s : State} (t v : Nat) (h : Keeps z s) :
    Keeps z (s.setTenState t v) := by
  unfold State.setTenState
  repeat' (first
    | with_reducible assumption
    | extract_lets
    | dsimp +zetaDelta only
    | with_reducible apply Keeps.mk)

theorem State.setCleat_keeps {z s : State} (c : Nat) (x : Cleat) (h : Keeps z s) :
    Keeps z (s.setCleat c x) := by
  unfold State.setCleat
  repeat' (first
    | with_reducible assumption
    | extract_lets
    | dsimp +zetaDelta only
    | with_reducible apply Keeps.mk)

theorem State.setArb_keeps {z s : State} (i : Nat) (a : Arb) (h : Keeps z s) :
    Keeps z (s.setArb i a) := by
  unfold State.setArb
  repeat' (first
    | with_reducible assumption
    | extract_lets
    | dsimp +zetaDelta only
    | with_reducible apply Keeps.mk)

theorem State.arbDecide_keeps {z s : State} (i : Nat) (h : Keeps z s) :
    Keeps z (s.arbDecide i) := by
  unfold State.arbDecide
  repeat' (first
    | with_reducible assumption
    | extract_lets
    | with_reducible apply State.count_keeps
    | with_reducible apply State.setArb_keeps
    | with_reducible apply State.setReg_keeps
    | with_reducible apply Keeps.ite
    | with_reducible refine Keeps.foldl (fun u a hu => ?_) _ ?_
    | split
    | dsimp +zetaDelta only
    | with_reducible apply Keeps.mk)

theorem State.stand_keeps {z s : State} (i : Nat) (r : ArbReq) (h : Keeps z s) :
    Keeps z (s.stand i r) := by
  unfold State.stand
  repeat' (first
    | with_reducible assumption
    | extract_lets
    | with_reducible apply State.setArb_keeps
    | with_reducible apply Keeps.mk)

theorem State.serve_keeps {z s : State} (i k n : Nat) (h : Keeps z s) : KeepsOpt z (s.serve i k n) := by
  induction n generalizing s with
  | zero => exact .none
  | succ n ih =>
    unfold State.serve
    repeat' (first | exact .none | exact .some (State.setArb_keeps _ _ h) | exact ih (State.arbDecide_keeps _ h) | apply KeepsOpt.ite)

theorem State.useArb_keeps {z s : State} (i : Nat) (r : ArbReq) (h : Keeps z s) :
    KeepsOpt z (s.useArb i r) := by
  unfold State.useArb
  repeat' (first
    | with_reducible assumption
    | extract_lets
    | with_reducible apply State.serve_keeps
    | with_reducible apply State.stand_keeps
    | with_reducible apply KeepsOpt.none
    | with_reducible apply KeepsOpt.some
    | with_reducible apply KeepsOpt.ite
    | with_reducible refine KeepsOpt.map ?_ (fun u hu => ?_)
    | with_reducible apply Keeps.ite
    | with_reducible refine KeepsOpt.foldl (fun u a hu => ?_) _ ?_
    | with_reducible refine Keeps.foldl (fun u a hu => ?_) _ ?_
    | split
    | dsimp +zetaDelta only)

theorem State.turnHint_keeps {z s : State} (i k : Nat) (h : Keeps z s) :
    Keeps z (s.turnHint i k).2 := by
  unfold State.turnHint
  repeat' (first
    | with_reducible assumption
    | extract_lets
    | with_reducible apply State.freeBits_keeps
    | with_reducible apply Keeps.ite
    | with_reducible refine Keeps.foldl (fun u a hu => ?_) _ ?_
    | with_reducible refine KeepsOpt.elim ?_ ?_ (fun u hu => ?_)
    | with_reducible refine Keeps.elim _ ?_ (fun a => ?_)
    | split
    | dsimp +zetaDelta only
    | with_reducible apply Keeps.mk)

theorem State.tryRefuse_keeps {z s : State} (i k : Nat) (h : Keeps z s) : Keeps z (s.tryRefuse i k).2 :=
  State.count_keeps _ _ _ (State.turnHint_keeps i k h)

theorem State.withdrawReq_keeps {z s : State} (i k : Nat) (h : Keeps z s) :
    Keeps z (s.withdrawReq i k) := by
  unfold State.withdrawReq
  repeat' (first
    | with_reducible assumption
    | extract_lets
    | with_reducible apply State.setArb_keeps
    | dsimp +zetaDelta only
    | with_reducible apply Keeps.mk)

theorem State.unstand_keeps {z s : State} (i k : Nat) (h : Keeps z s) :
    Keeps z (s.unstand i k) := by
  unfold State.unstand
  repeat' (first
    | with_reducible assumption
    | extract_lets
    | with_reducible apply State.setArb_keeps
    | with_reducible apply Keeps.ite
    | with_reducible refine KeepsOpt.elim ?_ ?_ (fun u hu => ?_)
    | with_reducible refine Keeps.elim _ ?_ (fun a => ?_)
    | split
    | dsimp +zetaDelta only
    | with_reducible apply Keeps.mk)

theorem State.loseArb_keeps {z s : State} (d : Nat) (h : Keeps z s) :
    Keeps z (s.loseArb d) := by
  unfold State.loseArb
  repeat' (first
    | with_reducible assumption
    | extract_lets
    | with_reducible apply Keeps.ite
    | split
    | dsimp +zetaDelta only
    | with_reducible apply Keeps.mk)

theorem State.writeBack_keeps {z s : State} (l : Line) (h : Keeps z s) :
    Keeps z (s.writeBack l) := by
  unfold State.writeBack
  repeat' (first
    | with_reducible assumption
    | extract_lets
    | with_reducible apply State.wrBytes_keeps)

theorem State.notice_keeps {z s : State} (c la : Nat) (h : Keeps z s) :
    Keeps z (s.notice c la) := by
  unfold State.notice
  repeat' (first
    | with_reducible assumption
    | extract_lets
    | with_reducible apply State.setCore_keeps
    | with_reducible apply State.writeBack_keeps
    | split
    | dsimp +zetaDelta only
    | with_reducible apply Keeps.mk)

theorem State.snoopEb_keeps {z s : State} (c la : Nat) (h : Keeps z s) :
    Keeps z (s.snoopEb c la) := by
  unfold State.snoopEb
  repeat' (first
    | with_reducible assumption
    | extract_lets
    | with_reducible apply State.count_keeps
    | with_reducible apply State.notice_keeps
    | with_reducible apply Keeps.ite
    | split
    | dsimp +zetaDelta only)

theorem State.snoop_keeps {z s : State} (inval : Bool) (la c : Nat) (h : Keeps z s) :
    Keeps z (s.snoop inval la c) := by
  unfold State.snoop
  repeat' (first
    | with_reducible assumption
    | extract_lets
    | with_reducible apply State.setCore_keeps
    | with_reducible apply State.writeBack_keeps
    | with_reducible apply Keeps.ite
    | split
    | dsimp +zetaDelta only
    | with_reducible apply Keeps.mk)

theorem State.snoopAll_keeps {z s : State} (inval : Bool) (c la : Nat) (h : Keeps z s) :
    Keeps z (s.snoopAll inval c la) := by
  unfold State.snoopAll
  repeat' (first
    | with_reducible assumption
    | extract_lets
    | with_reducible apply State.snoop_keeps
    | with_reducible apply State.snoopEb_keeps
    | with_reducible refine Keeps.foldl (fun u a hu => ?_) _ ?_
    | dsimp +zetaDelta only)

theorem State.countC2C_keeps {z s : State} (c la : Nat) (h : Keeps z s) :
    Keeps z (s.countC2C c la) := by
  unfold State.countC2C
  repeat' (first
    | with_reducible assumption
    | extract_lets
    | with_reducible apply State.count_keeps
    | with_reducible apply Keeps.ite
    | split)

theorem State.ebRoom_keeps {z s : State} (c : Nat) (h : Keeps z s) :
    Keeps z (s.ebRoom c) := by
  unfold State.ebRoom
  repeat' (first
    | with_reducible assumption
    | extract_lets
    | with_reducible apply State.notice_keeps
    | split
    | with_reducible apply Keeps.mk)

theorem State.install_keeps {z s : State} (c : Nat) (l : Line) (h : Keeps z s) :
    Keeps z (s.install c l) := by
  unfold State.install
  repeat' (first
    | with_reducible assumption
    | extract_lets
    | with_reducible apply State.ebRoom_keeps
    | with_reducible apply State.setCore_keeps
    | with_reducible apply Keeps.ite
    | split
    | dsimp +zetaDelta only
    | with_reducible apply Keeps.mk)

theorem State.readMiss_keeps {z s : State} (c la : Nat) (h : Keeps z s) :
    Keeps z (s.readMiss c la) := by
  unfold State.readMiss
  repeat' (first
    | with_reducible assumption
    | extract_lets
    | with_reducible apply State.countC2C_keeps
    | with_reducible apply State.install_keeps
    | with_reducible apply State.notice_keeps
    | with_reducible apply State.snoopAll_keeps
    | split
    | dsimp +zetaDelta only
    | with_reducible apply Keeps.mk)

theorem State.own_keeps {z s : State} (c la : Nat) (h : Keeps z s) :
    Keeps z (s.own c la) := by
  unfold State.own
  repeat' (first
    | with_reducible assumption
    | extract_lets
    | with_reducible apply State.countC2C_keeps
    | with_reducible apply State.install_keeps
    | with_reducible apply State.notice_keeps
    | with_reducible apply State.setCore_keeps
    | with_reducible apply State.snoopEb_keeps
    | with_reducible refine KeepsOpt.getD ?_ ?_
    | with_reducible apply KeepsOpt.some
    | with_reducible refine KeepsOpt.map ?_ (fun u hu => ?_)
    | with_reducible refine Keeps.foldl (fun u a hu => ?_) _ ?_
    | split
    | dsimp +zetaDelta only
    | with_reducible apply Keeps.mk)

theorem State.writeThrough_keeps {z s : State} (c a : Nat) (bs : List Byte) (h : Keeps z s) :
    Keeps z (s.writeThrough c a bs) := by
  unfold State.writeThrough
  repeat' (first
    | with_reducible assumption
    | extract_lets
    | with_reducible apply State.notice_keeps
    | with_reducible apply State.setCore_keeps
    | with_reducible apply State.snoopAll_keeps
    | with_reducible apply State.wrBytes_keeps
    | split
    | dsimp +zetaDelta only
    | with_reducible apply Keeps.mk)

theorem State.ncRead_keeps {z s : State} (a n : Nat) (h : Keeps z s) :
    Keeps z (s.ncRead a n).2 := by
  unfold State.ncRead
  repeat' (first
    | with_reducible assumption
    | extract_lets
    | with_reducible apply State.snoopAll_keeps
    | split
    | dsimp +zetaDelta only
    | with_reducible apply Keeps.mk)

theorem State.ncWrite_keeps {z s : State} (a : Nat) (bs : List Byte) (h : Keeps z s) :
    Keeps z (s.ncWrite a bs) := by
  unfold State.ncWrite
  repeat' (first
    | with_reducible assumption
    | extract_lets
    | with_reducible apply State.snoopAll_keeps
    | with_reducible apply State.wrBytes_keeps
    | split
    | with_reducible apply Keeps.mk)

theorem State.ncWord_keeps {z s : State} (a : Nat) (h : Keeps z s) :
    Keeps z (s.ncWord a).2 := by
  unfold State.ncWord
  repeat' (first
    | with_reducible assumption
    | extract_lets
    | with_reducible apply State.ncRead_keeps
    | dsimp +zetaDelta only)

theorem State.cleanCore_keeps {z s : State} (c : Nat) (h : Keeps z s) :
    Keeps z (s.cleanCore c) := by
  unfold State.cleanCore
  repeat' (first
    | with_reducible assumption
    | extract_lets
    | with_reducible apply State.setCore_keeps
    | with_reducible apply State.writeBack_keeps
    | with_reducible refine Keeps.foldl (fun u a hu => ?_) _ ?_
    | dsimp +zetaDelta only
    | with_reducible apply Keeps.mk)

theorem State.setSummary_keeps {z s : State} (idx : Nat) (b : Bool) (h : Keeps z s) :
    Keeps z (s.setSummary idx b) := by
  unfold State.setSummary
  repeat' (first
    | with_reducible assumption
    | extract_lets
    | with_reducible apply State.wr_keeps)

theorem State.setEcc_keeps {z s : State} (off n : Nat) (h : Keeps z s) :
    Keeps z (s.setEcc off n) := by
  unfold State.setEcc
  repeat' (first
    | with_reducible assumption
    | extract_lets
    | dsimp +zetaDelta only
    | with_reducible apply Keeps.mk)

theorem State.mapWordFails_keeps {z s : State} (idx attempts : Nat) (h : Keeps z s) :
    Keeps z (s.mapWordFails idx attempts) := by
  unfold State.mapWordFails
  repeat' (first
    | with_reducible assumption
    | extract_lets
    | with_reducible apply State.raise_keeps
    | with_reducible apply State.setSummary_keeps
    | with_reducible apply State.wrLe_keeps
    | with_reducible apply Keeps.ite
    | split
    | dsimp +zetaDelta only
    | with_reducible apply Keeps.mk)

theorem State.power15_keeps {z s : State} (h : Keeps z s) :
    Keeps z (s.power15) := by
  unfold State.power15
  repeat' (first
    | with_reducible assumption
    | extract_lets
    | with_reducible apply State.setDom_keeps
    | with_reducible apply Keeps.ite
    | split
    | with_reducible apply Keeps.mk)

theorem State.dropAt_keeps {z s : State} (off : Nat) (h : Keeps z s) :
    Keeps z (s.dropAt off) := by
  unfold State.dropAt
  repeat' (first
    | with_reducible assumption
    | extract_lets
    | with_reducible apply Keeps.mk)

theorem State.mapApply_keeps {z s : State} (offs : List Nat) (b : Bool) (h : Keeps z s) :
    Keeps z (s.mapApply offs b) := by
  unfold State.mapApply
  repeat' (first
    | with_reducible assumption
    | extract_lets
    | with_reducible apply State.dropAt_keeps
    | with_reducible apply State.setEcc_keeps
    | with_reducible apply State.setSummary_keeps
    | with_reducible apply State.wr_keeps
    | with_reducible apply Keeps.ite
    | with_reducible refine Keeps.foldl (fun u a hu => ?_) _ ?_
    | split
    | dsimp +zetaDelta only
    | with_reducible apply Keeps.mk)

theorem State.poisonWords_keeps {z s : State} (offs : List Nat) (r : ErrRec) (retires keepData : Bool) (h : Keeps z s) :
    Keeps z (s.poisonWords offs r retires keepData) := by
  unfold State.poisonWords
  repeat' (first
    | with_reducible assumption
    | extract_lets
    | with_reducible apply State.freeBytes_keeps
    | with_reducible apply State.setSummary_keeps
    | with_reducible apply State.wrBytes_keeps
    | with_reducible apply Keeps.ite
    | with_reducible refine Keeps.foldl (fun u a hu => ?_) _ ?_
    | split
    | dsimp +zetaDelta only
    | with_reducible apply Keeps.mk)

theorem State.corrected_keeps {z s : State} (off origin : Nat) (h : Keeps z s) :
    Keeps z (s.corrected off origin) := by
  unfold State.corrected
  repeat' (first
    | with_reducible assumption
    | extract_lets
    | with_reducible apply State.count_keeps
    | with_reducible apply State.raise_keeps
    | with_reducible apply Keeps.ite
    | split
    | dsimp +zetaDelta only)

theorem State.poisonCheck_keeps {z s : State} (off : Nat) (h : Keeps z s) :
    KeepsOptP z (s.poisonCheck off) := by
  unfold State.poisonCheck
  repeat' (first
    | with_reducible assumption
    | extract_lets
    | with_reducible apply State.corrected_keeps
    | with_reducible apply State.mapWordFails_keeps
    | with_reducible apply State.power15_keeps
    | with_reducible apply State.useArb_keeps
    | with_reducible apply KeepsOptP.none
    | with_reducible apply KeepsOptP.some
    | with_reducible refine KeepsOptP.map ?_ (fun u hu => ?_)
    | with_reducible refine KeepsOptP.bind ?_ (fun u hu => ?_)
    | with_reducible refine KeepsOptP.bindP ?_ (fun u hu => ?_)
    | with_reducible apply KeepsOpt.some
    | with_reducible apply KeepsOpt.ite
    | with_reducible apply Keeps.ite
    | split
    | dsimp +zetaDelta only)

theorem State.readWords_keeps {z s : State} (offs : List Nat) (origin : Nat) (h : Keeps z s) :
    Keeps z (s.readWords offs origin).2 := by
  unfold State.readWords
  repeat' (first
    | with_reducible assumption
    | extract_lets
    | with_reducible apply State.corrected_keeps
    | with_reducible apply State.count_keeps
    | with_reducible apply State.poisonWords_keeps
    | with_reducible apply Keeps.ite
    | with_reducible refine Keeps.foldl (fun u a hu => ?_) _ ?_
    | split
    | dsimp +zetaDelta only
    | with_reducible apply Keeps.mk)

theorem State.catRead_keeps {z s : State} (r : ArbReq) (off : Nat) (h : Keeps z s) : Keeps z (s.catRead r off).2 := by
  unfold State.catRead
  extract_lets owner offs
  have hq : KeepsOptP z (((s.useArb (catInst off) { r with beats := offs.length }).bind
      (fun s1 => if owner.isSome then s1.useArb 18 (plainReq 0 1) else some s1)).bind (fun s1 => s1.poisonCheck off)) :=
    .bind (.bind (State.useArb_keeps _ _ h) (fun t ht => .ite (State.useArb_keeps _ _ ht) (.some ht)))
      (fun t ht => State.poisonCheck_keeps _ ht)
  generalize ((s.useArb (catInst off) { r with beats := offs.length }).bind
      (fun s1 => if owner.isSome then s1.useArb 18 (plainReq 0 1) else some s1)).bind (fun s1 => s1.poisonCheck off) = q at hq ⊢
  split
  · exact h
  split
  · exact h
  split
  · exact h
  split
  · exact h
  rename_i p s1
  have h1 : Keeps z s1 := hq _ rfl
  split
  · exact h1
  · have h2 := State.readWords_keeps offs 3 h1
    generalize s1.readWords offs 3 = w at h2 ⊢
    obtain ⟨o, s2⟩ := w
    cases o <;> cases owner <;> exact h2

theorem State.wbAccept_keeps {z s : State} (w : Writer) (off : Nat) (bs : List Byte) (e : WbEnt) (h : Keeps z s) :
    Keeps z (s.wbAccept w off bs e).2 := by
  unfold State.wbAccept
  repeat' (first
    | with_reducible assumption
    | extract_lets
    | with_reducible apply State.count_keeps
    | with_reducible apply State.raise_keeps
    | with_reducible refine KeepsOpt.getD ?_ ?_
    | with_reducible apply KeepsOpt.some
    | with_reducible apply KeepsOpt.ite
    | with_reducible refine KeepsOpt.map ?_ (fun u hu => ?_)
    | with_reducible apply Keeps.ite
    | with_reducible refine KeepsOpt.elim ?_ ?_ (fun u hu => ?_)
    | with_reducible refine Keeps.elim _ ?_ (fun a => ?_)
    | split
    | dsimp +zetaDelta only
    | with_reducible apply Keeps.mk)

theorem State.mergeRead_keeps {z s : State} (e : WbEnt) (h : Keeps z s) :
    Keeps z (s.mergeRead e).2 := by
  unfold State.mergeRead
  repeat' (first
    | with_reducible assumption
    | extract_lets
    | with_reducible apply State.corrected_keeps
    | with_reducible apply State.count_keeps
    | with_reducible apply State.raise_keeps
    | with_reducible apply Keeps.ite
    | with_reducible refine Keeps.foldl (fun u a hu => ?_) _ ?_
    | split
    | dsimp +zetaDelta only
    | with_reducible apply Keeps.mk)

theorem State.prepare_keeps {z s : State} (e : WbEnt) (err : Nat) (h : Keeps z s) :
    KeepsOptP z (s.prepare e err) := by
  unfold State.prepare
  repeat' (first
    | with_reducible assumption
    | extract_lets
    | with_reducible apply State.mergeRead_keeps
    | with_reducible apply State.setEcc_keeps
    | with_reducible apply State.useArb_keeps
    | with_reducible apply KeepsOptP.none
    | with_reducible apply KeepsOptP.some
    | with_reducible refine KeepsOptP.map ?_ (fun u hu => ?_)
    | with_reducible refine KeepsOptP.bind ?_ (fun u hu => ?_)
    | with_reducible refine KeepsOptP.bindP ?_ (fun u hu => ?_)
    | with_reducible apply KeepsOpt.some
    | with_reducible apply KeepsOpt.ite
    | with_reducible refine KeepsOpt.bind ?_ (fun u hu => ?_)
    | with_reducible apply Keeps.ite
    | split
    | dsimp +zetaDelta only
    | with_reducible apply Keeps.mk)

theorem State.releaseHeld_keeps {z s : State} (h : Keeps z s) :
    Keeps z (s.releaseHeld) := by
  unfold State.releaseHeld
  repeat' (first
    | with_reducible assumption
    | extract_lets
    | with_reducible apply State.setDom_keeps
    | with_reducible refine Keeps.foldl (fun u a hu => ?_) _ ?_
    | dsimp +zetaDelta only
    | with_reducible apply Keeps.mk)

theorem State.retire_keeps {z s : State} (poison : Bool) (h : Keeps z s) :
    Keeps z (s.retire poison) := by
  unfold State.retire
  repeat' (first
    | with_reducible assumption
    | extract_lets
    | with_reducible apply State.releaseHeld_keeps
    | with_reducible apply Keeps.ite
    | split
    | dsimp +zetaDelta only
    | with_reducible apply Keeps.mk)

theorem State.attemptEnd_keeps {z s : State} (e : WbEnt) (rest : List WbEnt) (h : Keeps z s) :
    Keeps z (s.attemptEnd e rest) := by
  unfold State.attemptEnd
  repeat' (first
    | with_reducible assumption
    | extract_lets
    | with_reducible apply State.freeBytes_keeps
    | with_reducible apply State.poisonWords_keeps
    | with_reducible apply State.raise_keeps
    | with_reducible apply State.retire_keeps
    | with_reducible apply State.wrBytes_keeps
    | with_reducible apply Keeps.ite
    | split
    | dsimp +zetaDelta only
    | with_reducible apply Keeps.mk)

theorem State.attempt_keeps {z s : State} (e : WbEnt) (rest : List WbEnt) (fail0 fail1 : Bool) (h : Keeps z s) :
    KeepsOpt z (s.attempt e rest fail0 fail1) := by
  unfold State.attempt
  repeat' (first
    | with_reducible assumption
    | extract_lets
    | with_reducible apply State.attemptEnd_keeps
    | with_reducible apply State.setEcc_keeps
    | with_reducible apply State.useArb_keeps
    | with_reducible apply State.wrBytes_keeps
    | with_reducible apply KeepsOpt.none
    | with_reducible apply KeepsOpt.some
    | with_reducible apply KeepsOpt.ite
    | with_reducible refine KeepsOpt.map ?_ (fun u hu => ?_)
    | with_reducible apply Keeps.ite
    | split
    | dsimp +zetaDelta only
    | with_reducible apply Keeps.mk)

theorem State.mapUpdate_keeps {z s : State} (fails : Bool) (h : Keeps z s) :
    Keeps z (s.mapUpdate fails) := by
  unfold State.mapUpdate
  repeat' (first
    | with_reducible assumption
    | extract_lets
    | with_reducible apply State.corrected_keeps
    | with_reducible apply State.count_keeps
    | with_reducible apply State.mapApply_keeps
    | with_reducible apply State.mapWordFails_keeps
    | with_reducible apply State.power15_keeps
    | with_reducible apply State.raise_keeps
    | with_reducible apply State.report_keeps
    | with_reducible apply State.retire_keeps
    | with_reducible apply State.setReg_keeps
    | with_reducible apply State.useArb_keeps
    | with_reducible apply State.wrBytes_keeps
    | with_reducible apply Keeps.ite
    | split
    | with_reducible refine KeepsOpt.get ?_ (by assumption)
    | dsimp +zetaDelta only
    | with_reducible apply Keeps.mk)

theorem State.scrubAdvance_keeps {z s : State} (p : Nat) (h : Keeps z s) :
    Keeps z (s.scrubAdvance p) := by
  unfold State.scrubAdvance
  repeat' (first
    | with_reducible assumption
    | extract_lets
    | with_reducible apply State.count_keeps
    | with_reducible apply State.setFlag_keeps
    | with_reducible apply State.setReg_keeps
    | with_reducible apply Keeps.ite
    | split
    | dsimp +zetaDelta only
    | with_reducible apply Keeps.mk)

theorem State.scrubFound_keeps {z s : State} (off : Nat) (h : Keeps z s) :
    KeepsOpt z (s.scrubFound off) := by
  unfold State.scrubFound
  repeat' (first
    | with_reducible assumption
    | extract_lets
    | with_reducible apply State.corrected_keeps
    | with_reducible apply State.count_keeps
    | with_reducible apply State.mapWordFails_keeps
    | with_reducible apply State.poisonWords_keeps
    | with_reducible apply State.raise_keeps
    | with_reducible apply KeepsOpt.none
    | with_reducible apply KeepsOpt.some
    | with_reducible apply KeepsOpt.ite
    | with_reducible refine KeepsOpt.map ?_ (fun u hu => ?_)
    | with_reducible apply Keeps.ite
    | split
    | with_reducible refine KeepsOpt.get ?_ (by assumption)
    | dsimp +zetaDelta only
    | with_reducible apply Keeps.mk)

theorem State.scrubStep_keeps {z s : State} (err : Nat) (h : Keeps z s) :
    Keeps z (s.scrubStep err) := by
  unfold State.scrubStep
  repeat' (first
    | with_reducible assumption
    | extract_lets
    | with_reducible apply State.count_keeps
    | with_reducible apply State.scrubAdvance_keeps
    | with_reducible apply State.scrubFound_keeps
    | with_reducible apply State.setEcc_keeps
    | with_reducible apply State.useArb_keeps
    | with_reducible refine KeepsOpt.getD ?_ ?_
    | with_reducible apply KeepsOpt.ite
    | with_reducible refine KeepsOpt.map ?_ (fun u hu => ?_)
    | with_reducible refine KeepsOpt.bind ?_ (fun u hu => ?_)
    | with_reducible apply Keeps.ite
    | split
    | dsimp +zetaDelta only)

theorem State.saveRec_keeps {z s : State} (n : Nat) (c : Core) (h : Keeps z s) :
    Keeps z (s.saveRec n c) := by
  unfold State.saveRec
  repeat' (first
    | with_reducible assumption
    | extract_lets
    | with_reducible apply State.ncWrite_keeps
    | with_reducible apply Keeps.ite
    | with_reducible refine Keeps.foldl (fun u a hu => ?_) _ ?_
    | split
    | dsimp +zetaDelta only)

theorem State.initRec_keeps {z s : State} (n : Nat) (h : Keeps z s) :
    Keeps z (s.initRec n) := by
  unfold State.initRec
  repeat' (first
    | with_reducible assumption
    | extract_lets
    | with_reducible apply State.saveRec_keeps
    | with_reducible apply Keeps.mk)

theorem State.eventSaved_keeps {z s : State} (n i : Nat) (h : Keeps z s) :
    Keeps z (s.eventSaved n i) := by
  unfold State.eventSaved
  repeat' (first
    | with_reducible assumption
    | extract_lets
    | with_reducible apply State.ncWrite_keeps
    | with_reducible apply State.setSlot_keeps
    | with_reducible apply Keeps.ite
    | split
    | dsimp +zetaDelta only
    | with_reducible apply Keeps.mk)

theorem State.event_keeps {z s : State} (ctx i : Nat) (h : Keeps z s) :
    Keeps z (s.event ctx i) := by
  unfold State.event
  repeat' (first
    | with_reducible assumption
    | extract_lets
    | with_reducible apply State.eventSaved_keeps
    | with_reducible apply State.setCore_keeps
    | with_reducible apply State.setSlot_keeps
    | with_reducible apply Keeps.ite
    | split
    | dsimp +zetaDelta only
    | with_reducible apply Keeps.mk)

theorem State.postEvent_keeps {z s : State} (t : Nat) (h : Keeps z s) :
    Keeps z (s.postEvent t) := by
  unfold State.postEvent
  repeat' (first
    | with_reducible assumption
    | extract_lets
    | with_reducible apply State.event_keeps
    | with_reducible refine Keeps.foldl (fun u a hu => ?_) _ ?_
    | dsimp +zetaDelta only)

theorem State.setWait_keeps {z s : State} (w : WaitRec) (h : Keeps z s) :
    Keeps z (s.setWait w) := by
  unfold State.setWait
  repeat' (first
    | with_reducible assumption
    | extract_lets
    | with_reducible apply Keeps.ite
    | split
    | dsimp +zetaDelta only
    | with_reducible apply Keeps.mk)

theorem State.dropWait_keeps {z s : State} (ctx : Nat) (h : Keeps z s) :
    Keeps z (s.dropWait ctx) := by
  unfold State.dropWait
  repeat' (first
    | with_reducible assumption
    | extract_lets
    | dsimp +zetaDelta only
    | with_reducible apply Keeps.mk)

theorem State.completeWait_keeps {z s : State} (w : WaitRec) (code : Nat) (h : Keeps z s) :
    Keeps z (s.completeWait w code) := by
  unfold State.completeWait
  repeat' (first
    | with_reducible assumption
    | extract_lets
    | with_reducible apply State.dropWait_keeps
    | with_reducible apply State.setCore_keeps
    | with_reducible apply State.setWait_keeps
    | split
    | with_reducible apply Keeps.mk)

theorem State.hold_keeps {z s : State} (c v ctx : Nat) (h : Keeps z s) :
    Keeps z (s.hold c v ctx) := by
  unfold State.hold
  repeat' (first
    | with_reducible assumption
    | extract_lets
    | with_reducible apply State.setCleat_keeps
    | dsimp +zetaDelta only)

theorem State.cleatEvent_keeps {z s : State} (c : Nat) (h : Keeps z s) :
    Keeps z (s.cleatEvent c) := by
  unfold State.cleatEvent
  repeat' (first
    | with_reducible assumption
    | extract_lets
    | with_reducible apply State.event_keeps
    | with_reducible apply State.irq_keeps
    | with_reducible refine Keeps.foldl (fun u a hu => ?_) _ ?_
    | dsimp +zetaDelta only)

theorem State.freeCleat_keeps {z s : State} (c v : Nat) (h : Keeps z s) :
    Keeps z (s.freeCleat c v) := by
  unfold State.freeCleat
  repeat' (first
    | with_reducible assumption
    | extract_lets
    | with_reducible apply State.cleatEvent_keeps
    | with_reducible apply State.completeWait_keeps
    | with_reducible apply State.hold_keeps
    | with_reducible apply State.setCleat_keeps
    | with_reducible apply Keeps.ite
    | with_reducible refine Keeps.foldl (fun u a hu => ?_) _ ?_
    | split
    | dsimp +zetaDelta only
    | with_reducible apply Keeps.mk)

theorem State.cleatWrite_keeps {z s : State} (c ctx v : Nat) (swap : Bool) (h : Keeps z s) :
    Keeps z (s.cleatWrite c ctx v swap) := by
  unfold State.cleatWrite
  repeat' (first
    | with_reducible assumption
    | extract_lets
    | with_reducible apply State.freeCleat_keeps
    | with_reducible apply State.hold_keeps
    | with_reducible apply State.setCleat_keeps
    | with_reducible apply Keeps.ite
    | split
    | dsimp +zetaDelta only
    | with_reducible apply Keeps.mk)

theorem State.lockErr_keeps {z s : State} (h : Keeps z s) :
    Keeps z (s.lockErr).2 := by
  unfold State.lockErr
  repeat' (first
    | with_reducible assumption
    | extract_lets
    | with_reducible apply State.count_keeps)

theorem State.cleatLoad_keeps {z s : State} (c word ctx : Nat) (tmode : Bool) (h : Keeps z s) :
    Keeps z (s.cleatLoad c word ctx tmode).2 := by
  unfold State.cleatLoad
  repeat' (first
    | with_reducible assumption
    | extract_lets
    | with_reducible apply State.dropWait_keeps
    | with_reducible apply State.hold_keeps
    | with_reducible apply State.lockErr_keeps
    | with_reducible apply Keeps.ite
    | split
    | dsimp +zetaDelta only
    | with_reducible apply Keeps.mk)

theorem State.cleatStore_keeps {z s : State} (c word ctx v : Nat) (tmode : Bool) (h : Keeps z s) :
    Keeps z (s.cleatStore c word ctx v tmode).2 := by
  unfold State.cleatStore
  repeat' (first
    | with_reducible assumption
    | extract_lets
    | with_reducible apply State.cleatWrite_keeps
    | with_reducible apply State.lockErr_keeps
    | with_reducible apply State.setCleat_keeps
    | with_reducible apply Keeps.ite
    | split
    | dsimp +zetaDelta only
    | with_reducible apply Keeps.mk)

theorem State.cleatSwap_keeps {z s : State} (c word ctx expected v : Nat) (tmode : Bool) (h : Keeps z s) :
    Keeps z (s.cleatSwap c word ctx expected v tmode).2 := by
  unfold State.cleatSwap
  repeat' (first
    | with_reducible assumption
    | extract_lets
    | with_reducible apply State.cleatWrite_keeps
    | with_reducible apply State.lockErr_keeps
    | with_reducible apply Keeps.ite
    | split
    | dsimp +zetaDelta only)

theorem State.withdraw_keeps {z s : State} (ctx : Nat) (h : Keeps z s) :
    Keeps z (s.withdraw ctx) := by
  unfold State.withdraw
  repeat' (first
    | with_reducible assumption
    | extract_lets
    | dsimp +zetaDelta only
    | with_reducible apply Keeps.mk)

theorem State.leaseExpires_keeps {z s : State} (c : Nat) (h : Keeps z s) :
    Keeps z (s.leaseExpires c) := by
  unfold State.leaseExpires
  repeat' (first
    | with_reducible assumption
    | extract_lets
    | with_reducible apply State.count_keeps
    | with_reducible apply State.freeCleat_keeps
    | with_reducible apply State.raise_keeps
    | with_reducible refine KeepsOpt.getD ?_ ?_
    | with_reducible refine KeepsOpt.map ?_ (fun u hu => ?_)
    | dsimp +zetaDelta only)

theorem State.leaseTick_keeps {z s : State} (h : Keeps z s) :
    Keeps z (s.leaseTick) := by
  unfold State.leaseTick
  repeat' (first
    | with_reducible assumption
    | extract_lets
    | with_reducible apply State.leaseExpires_keeps
    | with_reducible apply State.setCleat_keeps
    | with_reducible apply Keeps.ite
    | with_reducible refine Keeps.foldl (fun u a hu => ?_) _ ?_
    | split
    | dsimp +zetaDelta only
    | with_reducible apply Keeps.mk)

theorem State.waitTick_keeps {z s : State} (h : Keeps z s) :
    Keeps z (s.waitTick) := by
  unfold State.waitTick
  repeat' (first
    | with_reducible assumption
    | extract_lets
    | with_reducible apply State.completeWait_keeps
    | with_reducible apply State.setWait_keeps
    | with_reducible apply Keeps.ite
    | with_reducible refine Keeps.foldl (fun u a hu => ?_) _ ?_
    | split
    | dsimp +zetaDelta only
    | with_reducible apply Keeps.mk)

theorem State.breakReport_keeps {z s : State} (x size cl : Nat) (h : Keeps z s) :
    Keeps z (s.breakReport x size cl) := by
  unfold State.breakReport
  repeat' (first
    | with_reducible assumption
    | extract_lets
    | with_reducible apply State.count_keeps
    | with_reducible apply State.raise_keeps
    | with_reducible apply State.setReg_keeps
    | dsimp +zetaDelta only)

theorem State.setJob_keeps {z s : State} (p : Nat) (j : Job) (h : Keeps z s) :
    Keeps z (s.setJob p j) := by
  unfold State.setJob
  repeat' (first
    | with_reducible assumption
    | extract_lets
    | dsimp +zetaDelta only
    | with_reducible apply Keeps.mk)

theorem State.logTrap_keeps {z s : State} (c : Nat) (cause epc tinst : Word) (counts : Bool) (h : Keeps z s) :
    Keeps z (s.logTrap c cause epc tinst counts) := by
  unfold State.logTrap
  repeat' (first
    | with_reducible assumption
    | extract_lets
    | with_reducible apply State.count_keeps
    | with_reducible apply State.setReg_keeps
    | with_reducible apply Keeps.ite
    | split
    | dsimp +zetaDelta only)

theorem State.nested_keeps {z s : State} (c : Nat) (cause tval tinst : Word) (h : Keeps z s) :
    Keeps z (s.nested c cause tval tinst) := by
  unfold State.nested
  repeat' (first
    | with_reducible assumption
    | extract_lets
    | with_reducible apply State.logTrap_keeps
    | with_reducible apply State.raise_keeps
    | with_reducible apply State.setCore_keeps
    | with_reducible apply State.setSlot_keeps
    | with_reducible apply State.withdraw_keeps
    | with_reducible apply Keeps.ite
    | split
    | dsimp +zetaDelta only
    | with_reducible apply Keeps.mk)

theorem State.trap_keeps {z s : State} (c code seg tval : Nat) (tinst : Word) (h : Keeps z s) :
    Keeps z (s.trap c code seg tval tinst) := by
  unfold State.trap
  repeat' (first
    | with_reducible assumption
    | extract_lets
    | with_reducible apply State.logTrap_keeps
    | with_reducible apply State.nested_keeps
    | with_reducible apply State.setCore_keeps
    | with_reducible apply Keeps.ite
    | split
    | dsimp +zetaDelta only)

theorem State.takeImp_keeps {z s : State} (c : Nat) (h : Keeps z s) :
    Keeps z (s.takeImp c) := by
  unfold State.takeImp
  repeat' (first
    | with_reducible assumption
    | extract_lets
    | with_reducible apply State.logTrap_keeps
    | with_reducible apply State.setCore_keeps
    | split
    | dsimp +zetaDelta only
    | with_reducible apply Keeps.mk)

theorem State.storeErr_keeps {z s : State} (c : Nat) (e : SbEnt) (h : Keeps z s) :
    Keeps z (s.storeErr c e) := by
  unfold State.storeErr
  repeat' (first
    | with_reducible assumption
    | extract_lets
    | with_reducible apply State.ncWrite_keeps
    | with_reducible apply State.raise_keeps
    | with_reducible apply State.setCore_keeps
    | with_reducible apply State.setSlot_keeps
    | with_reducible apply Keeps.ite
    | split
    | dsimp +zetaDelta only
    | with_reducible apply Keeps.mk)

theorem State.doorbell_keeps {z s : State} (a : Nat) (h : Keeps z s) : Keeps z (s.doorbell a) := by
  unfold State.doorbell
  split
  · exact Keeps.mk (State.setReg_keeps _ _ h)
  · exact h

theorem State.memWrite_keeps {z s : State} (a : Nat) (bs : List Byte) (h : Keeps z s) :
    Keeps z (s.memWrite a bs) := by
  unfold State.memWrite
  repeat' (first
    | with_reducible assumption
    | extract_lets
    | with_reducible apply State.doorbell_keeps
    | with_reducible apply State.ncWrite_keeps
    | with_reducible apply State.wrBytes_keeps
    | split
    | with_reducible apply Keeps.mk)

theorem State.pcacheWrite_keeps {z s : State} (a : Nat) (bs : List Byte) (h : Keeps z s) :
    Keeps z (s.pcacheWrite a bs) := by
  unfold State.pcacheWrite
  repeat' (first
    | with_reducible assumption
    | extract_lets
    | with_reducible apply State.wr_keeps
    | with_reducible apply Keeps.ite
    | with_reducible refine Keeps.foldl (fun u a hu => ?_) _ ?_
    | split
    | dsimp +zetaDelta only)

theorem State.drainEnt_keeps {z s : State} (c : Nat) (e : SbEnt) (h : Keeps z s) : KeepsOpt z (s.drainEnt c e) := by
  have hw : ∀ ctl bs tag, Keeps z (s.wbAccept ctl (e.addr - 0x20000000) bs tag).2 := fun ctl bs tag =>
    State.wbAccept_keeps _ _ _ _ h
  unfold State.drainEnt
  extract_lets bs sg s1 off t r
  split
  · exact .some (State.storeErr_keeps _ _ h)
  split
  · split
    · have h1 : Keeps z s1 := Keeps.ite h (State.own_keeps _ _ h)
      split
      · exact .some (State.setCore_keeps _ _ h1)
      · exact .some h1
    · split
      · exact .some (State.writeThrough_keeps _ _ _ h)
      · exact .some (State.ncWrite_keeps _ _ h)
  · have hr : Keeps z r.2 := by
      unfold r
      split <;> exact hw _ _ _
    clear_value r
    split
    · exact .none
    · exact .some (State.storeErr_keeps _ _ hr)
    · exact .some hr
  · split
    · exact .ite .none (.some (State.wrBytes_keeps _ _ h))
    · exact .some (State.storeErr_keeps _ _ h)
  · exact .none
  · exact .none
  · exact .some (State.storeErr_keeps _ _ h)
  · exact .some (State.storeErr_keeps _ _ h)
  · exact .some (State.storeErr_keeps _ _ h)
  · exact .some (Keeps.ite (State.pcacheWrite_keeps _ _ h) h)
  all_goals exact .some (State.memWrite_keeps _ _ h)

theorem State.drain1_keeps {z s : State} (c : Nat) (h : Keeps z s) :
    KeepsOpt z (s.drain1 c) := by
  unfold State.drain1
  repeat' (first
    | with_reducible assumption
    | extract_lets
    | with_reducible apply State.drainEnt_keeps
    | with_reducible apply State.setCore_keeps
    | with_reducible apply KeepsOpt.none
    | with_reducible apply KeepsOpt.some
    | with_reducible refine KeepsOpt.map ?_ (fun u hu => ?_)
    | split
    | dsimp +zetaDelta only
    | with_reducible apply Keeps.mk)

theorem State.drainN_keeps {z s : State} (c n : Nat) (h : Keeps z s) : Keeps z (s.drainN c n) := by
  induction n generalizing s with
  | zero => exact h
  | succ n ih =>
    have hd := State.drain1_keeps c h
    unfold State.drainN
    split
    · exact ih (hd _ ‹_›)
    · exact h

theorem State.drainAll_keeps {z s : State} (c : Nat) (h : Keeps z s) :
    Keeps z (s.drainAll c) := by
  unfold State.drainAll
  repeat' (first
    | with_reducible assumption
    | extract_lets
    | with_reducible apply State.drainN_keeps)

end Sys2Proof.Machine
end

