-- ==== Sys2Proof/Laws/KeepsBlocks.lean ====
section
/-! SUPPORT. What the operations of the spine, bay, converters, engines and domains keep (see Keeps.lean). -/
namespace Sys2Proof.Machine

theorem State.ncReadN_keeps {z s : State} (a n : Nat) (h : Keeps z s) :
    Keeps z (s.ncReadN a n).2 := by
  unfold State.ncReadN
  repeat' (first
    | with_reducible assumption
    | extract_lets
    | with_reducible apply State.ncRead_keeps
    | with_reducible refine Keeps.foldl (fun u a hu => ?_) _ ?_
    | dsimp +zetaDelta only)

theorem State.ncWriteN_keeps {z s : State} (a : Nat) (bs : List Byte) (h : Keeps z s) :
    Keeps z (s.ncWriteN a bs) := by
  unfold State.ncWriteN
  repeat' (first
    | with_reducible assumption
    | extract_lets
    | with_reducible apply State.doorbell_keeps
    | with_reducible apply State.snoopAll_keeps
    | with_reducible apply State.wrBytes_keeps
    | with_reducible refine Keeps.foldl (fun u a hu => ?_) _ ?_
    | split
    | dsimp +zetaDelta only
    | with_reducible apply Keeps.mk)

theorem State.tableBytes_keeps {z s : State} (a n : Nat) (h : Keeps z s) :
    Keeps z (s.tableBytes a n).2 := by
  unfold State.tableBytes
  repeat' (first
    | with_reducible assumption
    | extract_lets
    | with_reducible apply State.freeBytes_keeps
    | with_reducible apply Keeps.ite
    | split
    | dsimp +zetaDelta only)

theorem State.sfuFree_keeps {z s : State} (p : Nat) (h : Keeps z s) :
    Keeps z (s.sfuFree p) := by
  unfold State.sfuFree
  repeat' (first
    | with_reducible assumption
    | extract_lets
    | with_reducible apply State.count_keeps
    | with_reducible apply State.setJob_keeps
    | with_reducible apply Keeps.mk)

theorem State.flushTable_keeps {z s : State} (h : Keeps z s) :
    Keeps z (s.flushTable) := by
  unfold State.flushTable
  repeat' (first
    | with_reducible assumption
    | extract_lets
    | with_reducible apply State.wrBytes_keeps
    | with_reducible refine Keeps.foldl (fun u a hu => ?_) _ ?_
    | dsimp +zetaDelta only
    | with_reducible apply Keeps.mk)

theorem State.sfuTell_keeps {z s : State} (j : Job) (word : Nat) (h : Keeps z s) :
    Keeps z (s.sfuTell j word) := by
  unfold State.sfuTell
  repeat' (first
    | with_reducible assumption
    | extract_lets
    | with_reducible apply Keeps.ite
    | split
    | with_reducible apply Keeps.mk)

theorem State.sfuFault_keeps {z s : State} (tag status : Nat) (h : Keeps z s) :
    Keeps z (s.sfuFault tag status) := by
  unfold State.sfuFault
  repeat' (first
    | with_reducible assumption
    | extract_lets
    | with_reducible apply State.setReg_keeps)

theorem State.jobEnd_keeps {z s : State} (p : Nat) (value : Int) (index status : Nat) (h : Keeps z s) :
    Keeps z (s.jobEnd p value index status) := by
  unfold State.jobEnd
  repeat' (first
    | with_reducible assumption
    | extract_lets
    | with_reducible apply State.count_keeps
    | with_reducible apply State.event_keeps
    | with_reducible apply State.flushTable_keeps
    | with_reducible apply State.irq_keeps
    | with_reducible apply State.ncWriteN_keeps
    | with_reducible apply State.sfuFault_keeps
    | with_reducible apply State.sfuFree_keeps
    | with_reducible apply State.sfuTell_keeps
    | with_reducible apply State.unstand_keeps
    | with_reducible apply Keeps.ite
    | split
    | dsimp +zetaDelta only)

theorem State.sfuOffer_keeps {z s : State} (p : Nat) (desc : List Byte) (segs : List Seg) (tenant ctx : Nat) (tmode : Bool) (h : Keeps z s) :
    Keeps z (s.sfuOffer p desc segs tenant ctx tmode).2 := by
  unfold State.sfuOffer
  repeat' (first
    | with_reducible assumption
    | extract_lets
    | with_reducible apply State.count_keeps
    | with_reducible apply State.setJob_keeps
    | with_reducible apply State.stand_keeps
    | with_reducible apply State.tryRefuse_keeps
    | with_reducible apply Keeps.ite
    | split
    | dsimp +zetaDelta only)

theorem State.sfuRestand_keeps {z s : State} (h : Keeps z s) :
    Keeps z (s.sfuRestand) := by
  unfold State.sfuRestand
  repeat' (first
    | with_reducible assumption
    | extract_lets
    | with_reducible apply State.setArb_keeps
    | with_reducible apply Keeps.ite
    | split
    | dsimp +zetaDelta only
    | with_reducible apply Keeps.mk)

theorem State.sfuLatch_keeps {z s : State} (h : Keeps z s) :
    Keeps z (s.sfuLatch) := by
  unfold State.sfuLatch
  repeat' (first
    | with_reducible assumption
    | extract_lets
    | with_reducible apply State.count_keeps
    | with_reducible apply State.setJob_keeps
    | with_reducible apply State.sfuRestand_keeps
    | with_reducible apply Keeps.ite
    | with_reducible refine Keeps.foldl (fun u a hu => ?_) _ ?_
    | split
    | dsimp +zetaDelta only
    | with_reducible apply Keeps.mk)

theorem State.tableWrite_keeps {z s : State} (a v : Nat) (h : Keeps z s) :
    Keeps z (s.tableWrite a v) := by
  unfold State.tableWrite
  repeat' (first
    | with_reducible assumption
    | extract_lets
    | with_reducible apply State.wrBytes_keeps
    | with_reducible apply Keeps.ite
    | split
    | with_reducible apply Keeps.mk)

theorem State.loseSfu_keeps {z s : State} (h : Keeps z s) :
    Keeps z (s.loseSfu) := by
  unfold State.loseSfu
  repeat' (first
    | with_reducible assumption
    | extract_lets
    | with_reducible apply State.event_keeps
    | with_reducible apply State.irq_keeps
    | with_reducible apply State.sfuFault_keeps
    | with_reducible apply State.sfuFree_keeps
    | with_reducible apply State.sfuTell_keeps
    | with_reducible apply State.withdrawReq_keeps
    | with_reducible apply Keeps.ite
    | with_reducible refine Keeps.foldl (fun u a hu => ?_) _ ?_
    | split
    | dsimp +zetaDelta only
    | with_reducible apply Keeps.mk)

theorem State.setNor_keeps {z s : State} (o : NorOp) (h : Keeps z s) :
    Keeps z (s.setNor o) := by
  unfold State.setNor
  repeat' (first
    | with_reducible assumption
    | extract_lets
    | with_reducible apply Keeps.mk)

theorem State.norStart_keeps {z s : State} (op : Nat) (andProgram : Bool) (h : Keeps z s) :
    Keeps z (s.norStart op andProgram) := by
  unfold State.norStart
  repeat' (first
    | with_reducible assumption
    | extract_lets
    | with_reducible apply State.setNor_keeps
    | with_reducible apply State.setReg_keeps
    | with_reducible apply Keeps.ite
    | split
    | dsimp +zetaDelta only)

theorem State.norEnd_keeps {z s : State} (result : Nat) (h : Keeps z s) :
    Keeps z (s.norEnd result) := by
  unfold State.norEnd
  repeat' (first
    | with_reducible assumption
    | extract_lets
    | with_reducible apply State.irq_keeps
    | with_reducible apply State.setNor_keeps
    | with_reducible apply State.setReg_keeps)

theorem State.norTouch_keeps {z s : State} (h : Keeps z s) :
    Keeps z (s.norTouch) := by
  unfold State.norTouch
  repeat' (first
    | with_reducible assumption
    | extract_lets
    | with_reducible apply State.count_keeps
    | with_reducible apply State.setNor_keeps
    | with_reducible apply Keeps.ite
    | split
    | with_reducible apply Keeps.mk)

theorem State.norRead_keeps {z s : State} (a n : Nat) (h : Keeps z s) :
    Keeps z (s.norRead a n).2 := by
  unfold State.norRead
  repeat' (first
    | with_reducible assumption
    | extract_lets
    | with_reducible apply State.freeBytes_keeps
    | with_reducible apply State.norTouch_keeps
    | with_reducible apply Keeps.ite
    | split
    | dsimp +zetaDelta only)

theorem State.loseNor_keeps {z s : State} (h : Keeps z s) :
    Keeps z (s.loseNor) := by
  unfold State.loseNor
  repeat' (first
    | with_reducible assumption
    | extract_lets
    | with_reducible apply State.freeBytes_keeps
    | with_reducible apply State.wrBytes_keeps
    | with_reducible apply Keeps.ite
    | split
    | dsimp +zetaDelta only
    | with_reducible apply Keeps.mk)

theorem State.setPlace_keeps {z s : State} (p : Nat) (x : Place) (h : Keeps z s) :
    Keeps z (s.setPlace p x) := by
  unfold State.setPlace
  repeat' (first
    | with_reducible assumption
    | extract_lets
    | dsimp +zetaDelta only
    | with_reducible apply Keeps.mk)

theorem State.dmaGo_keeps {z s : State} (core p : Nat) (h : Keeps z s) :
    Keeps z (s.dmaGo core p) := by
  unfold State.dmaGo
  repeat' (first
    | with_reducible assumption
    | extract_lets
    | with_reducible apply State.count_keeps
    | with_reducible apply State.setPlace_keeps
    | with_reducible apply State.setReg_keeps
    | with_reducible apply State.stand_keeps
    | with_reducible apply State.tryRefuse_keeps
    | with_reducible apply Keeps.ite
    | split
    | dsimp +zetaDelta only)

theorem State.dmaRead_keeps {z s : State} (x : Place) (a : Nat) (h : Keeps z s) :
    Keeps z (s.dmaRead x a).2 := by
  unfold State.dmaRead
  repeat' (first
    | with_reducible assumption
    | extract_lets
    | with_reducible apply State.catRead_keeps
    | with_reducible apply State.ncRead_keeps
    | with_reducible apply State.norRead_keeps
    | with_reducible apply Keeps.ite
    | split
    | dsimp +zetaDelta only
    | with_reducible apply Keeps.mk)

theorem State.dmaWrite_keeps {z s : State} (x : Place) (a : Nat) (bs : List Byte) (h : Keeps z s) :
    Keeps z (s.dmaWrite x a bs).2 := by
  unfold State.dmaWrite
  repeat' (first
    | with_reducible assumption
    | extract_lets
    | with_reducible apply State.memWrite_keeps
    | with_reducible apply State.wbAccept_keeps
    | with_reducible apply State.wrBytes_keeps
    | with_reducible refine KeepsOpt.getD ?_ ?_
    | with_reducible apply KeepsOpt.ite
    | with_reducible refine KeepsOpt.map ?_ (fun u hu => ?_)
    | with_reducible apply Keeps.ite
    | split
    | dsimp +zetaDelta only
    | with_reducible apply Keeps.mk)

theorem State.dmaWrites_keeps {z s : State} (x : Place) (a : Nat) (bs : List Byte) (h : Keeps z s) (b : Bool) (t : State)
    (e : s.dmaWrites x a bs = some (b, t)) : Keeps z t := by
  unfold State.dmaWrites at e
  have hg : ∀ (l : List Nat) (o : Option (Bool × State)), Keeps z ((o.map Prod.snd).getD s) →
      Keeps z (((l.foldl (fun acc i => match acc with
      | none => none
      | some (false, s) => some (false, s)
      | some (true, s) =>
        match s.dmaWrite x (a + 8 * i) ((bs.drop (8 * i)).take 8) with
        | (.full, _) => none
        | (.busErr, s1) => some (false, s1)
        | (_, s1) => some (true, s1)) o).map Prod.snd).getD s) := by
    intro l o ho
    refine Keeps.foldl_proj (fun o : Option (Bool × State) => (o.map Prod.snd).getD s) (fun u i hu => ?_) l ho
    rcases u with _ | ⟨_ | _, u⟩
    · exact h
    · exact hu
    · have h1 := State.dmaWrite_keeps x (a + 8 * i) ((bs.drop (8 * i)).take 8) (s := u) hu
      dsimp only
      generalize u.dmaWrite x (a + 8 * i) ((bs.drop (8 * i)).take 8) = q at h1 ⊢
      obtain ⟨r, q⟩ := q
      cases r <;> first | exact h1 | exact h
  have := hg (List.range ((bs.length + 7) / 8)) (some (true, s)) h
  exact Eq.mp (congrArg (fun o : Option (Bool × State) => Keeps z ((o.map Prod.snd).getD s)) e) this

theorem State.dmaReads_keeps {z s : State} (x : Place) (a n : Nat) (h : Keeps z s) : Keeps z (s.dmaReads x a n).2 := by
  unfold State.dmaReads
  refine Keeps.foldl_proj Prod.snd (fun u i hu => ?_) _ h
  obtain ⟨r, t⟩ := u
  cases r
  case data b =>
    have h1 := State.dmaRead_keeps x (a + 8 * i) hu
    dsimp only at h1 ⊢
    generalize t.dmaRead x (a + 8 * i) = q at h1
    obtain ⟨r, t1⟩ := q
    cases r <;> exact h1
  all_goals exact hu

theorem State.dmaCipher_keeps {z s : State} (x : Place) (h : Keeps z s) :
    KeepsOpt z (s.dmaCipher x) := by
  unfold State.dmaCipher
  repeat' (first
    | with_reducible assumption
    | extract_lets
    | with_reducible apply State.useArb_keeps
    | with_reducible apply KeepsOpt.none
    | with_reducible apply KeepsOpt.some
    | with_reducible apply KeepsOpt.ite
    | with_reducible apply Keeps.ite
    | split)

theorem State.dmaMove_keeps {z s : State} (p : Nat) (h : Keeps z s) : KeepsOpt z (s.dmaMove p) := by
  unfold State.dmaMove
  extract_lets x d xts unit stop moved put
  have hstop : ∀ u n, Keeps z u → Keeps z (stop u n) := fun u n hu => State.setPlace_keeps _ _ hu
  have hput : ∀ u bs x' k, Keeps z u → KeepsOpt z (put u bs x' k) := by
    intro u bs x' k hu
    have hw := fun b t => State.dmaWrites_keeps x k bs hu b t
    dsimp only [put]
    split
    · exact .none
    · exact .some (hstop _ _ (hw _ _ ‹_›))
    · exact .some (State.setPlace_keeps _ _ (hw _ _ ‹_›))
  clear_value put stop
  split
  · exact hput _ _ _ _ h
  · have hr := State.dmaReads_keeps x (d.srcAddr x + x.moved) unit h
    generalize s.dmaReads x (d.srcAddr x + x.moved) unit = q at hr ⊢
    split
    · exact .none
    · exact .some (hstop _ _ hr)
    · exact .some (hstop _ _ hr)
    · split
      · split
        · exact .none
        · exact .bind (State.dmaCipher_keeps _ hr) (fun t ht => hput _ _ _ _ ht)
      · split
        · extract_lets acc x1
          refine .bind (.ite (State.dmaCipher_keeps _ hr) (.some hr)) (fun t ht => ?_)
          split
          · exact .some (State.setPlace_keeps _ _ ht)
          · exact hput _ _ _ _ ht
        · exact hput _ _ _ _ hr

theorem State.dmaBeat_keeps {z s : State} (p : Nat) (h : Keeps z s) :
    Keeps z (s.dmaBeat p) := by
  unfold State.dmaBeat
  repeat' (first
    | with_reducible assumption
    | extract_lets
    | with_reducible apply State.dmaMove_keeps
    | with_reducible apply State.setArb_keeps
    | with_reducible apply State.setPlace_keeps
    | with_reducible apply Keeps.ite
    | with_reducible refine KeepsOpt.elim ?_ ?_ (fun u hu => ?_)
    | with_reducible refine Keeps.elim _ ?_ (fun a => ?_)
    | split
    | with_reducible refine KeepsOpt.get ?_ (by assumption)
    | dsimp +zetaDelta only
    | with_reducible apply Keeps.mk)

theorem State.dmaBurstEnd_keeps {z s : State} (p n : Nat) (h : Keeps z s) : Keeps z (s.dmaBurstEnd p n) := by
  induction n generalizing s with
  | zero => exact h
  | succ n ih => exact Keeps.ite (ih (State.dmaBeat_keeps p h)) h

theorem State.dmaEnd_keeps {z s : State} (p status : Nat) (h : Keeps z s) :
    Keeps z (s.dmaEnd p status) := by
  unfold State.dmaEnd
  repeat' (first
    | with_reducible assumption
    | extract_lets
    | with_reducible apply State.count_keeps
    | with_reducible apply State.setPlace_keeps
    | with_reducible apply State.setReg_keeps
    | with_reducible apply State.unstand_keeps
    | with_reducible apply Keeps.ite
    | split
    | dsimp +zetaDelta only)

theorem State.dmaTell_keeps {z s : State} (p ctx : Nat) (h : Keeps z s) :
    Keeps z (s.dmaTell p ctx) := by
  unfold State.dmaTell
  repeat' (first
    | with_reducible assumption
    | extract_lets
    | with_reducible apply State.event_keeps
    | with_reducible apply State.irq_keeps
    | with_reducible apply Keeps.ite
    | split)

theorem State.dmaAbort_keeps {z s : State} (p : Nat) (h : Keeps z s) :
    Keeps z (s.dmaAbort p) := by
  unfold State.dmaAbort
  repeat' (first
    | with_reducible assumption
    | extract_lets
    | with_reducible apply State.dmaBurstEnd_keeps
    | with_reducible apply State.dmaEnd_keeps
    | with_reducible refine KeepsOpt.getD ?_ ?_
    | with_reducible refine KeepsOpt.map ?_ (fun u hu => ?_)
    | dsimp +zetaDelta only)

theorem State.loseDma_keeps {z s : State} (h : Keeps z s) :
    Keeps z (s.loseDma) := by
  unfold State.loseDma
  repeat' (first
    | with_reducible assumption
    | extract_lets
    | with_reducible apply State.dmaAbort_keeps
    | with_reducible apply State.dmaTell_keeps
    | with_reducible refine Keeps.foldl (fun u a hu => ?_) _ ?_
    | dsimp +zetaDelta only
    | with_reducible apply Keeps.mk)

theorem State.preempt_keeps {z s : State} (c st : Nat) (cycle : Option Word) (h : Keeps z s) :
    Keeps z (s.preempt c st cycle) := by
  unfold State.preempt
  repeat' (first
    | with_reducible assumption
    | extract_lets
    | with_reducible apply State.drainAll_keeps
    | with_reducible apply State.freeBits_keeps
    | with_reducible apply State.saveRec_keeps
    | with_reducible apply State.setCore_keeps
    | with_reducible apply State.setSlot_keeps
    | with_reducible refine KeepsOpt.getD ?_ ?_
    | with_reducible apply KeepsOpt.some
    | with_reducible apply KeepsOpt.ite
    | with_reducible refine KeepsOpt.map ?_ (fun u hu => ?_)
    | with_reducible apply Keeps.ite
    | with_reducible refine KeepsOpt.elim ?_ ?_ (fun u hu => ?_)
    | with_reducible refine Keeps.elim _ ?_ (fun a => ?_)
    | split
    | dsimp +zetaDelta only
    | with_reducible apply Keeps.mk)

theorem State.dispatch_keeps {z s : State} (c n : Nat) (h : Keeps z s) :
    Keeps z (s.dispatch c n) := by
  unfold State.dispatch
  repeat' (first
    | with_reducible assumption
    | extract_lets
    | with_reducible apply State.setCore_keeps
    | with_reducible apply State.setSlot_keeps
    | with_reducible apply State.trap_keeps
    | with_reducible apply Keeps.ite
    | split
    | dsimp +zetaDelta only
    | with_reducible apply Keeps.mk)

theorem State.clearHalted_keeps {z s : State} (c : Nat) (h : Keeps z s) :
    Keeps z (s.clearHalted c) := by
  unfold State.clearHalted
  repeat' (first
    | with_reducible assumption
    | extract_lets
    | with_reducible apply State.preempt_keeps
    | with_reducible apply Keeps.ite
    | split)

theorem State.fill_keeps {z s : State} (skip : Nat → Bool) (h : Keeps z s) :
    Keeps z (s.fill skip) := by
  unfold State.fill
  repeat' (first
    | with_reducible assumption
    | extract_lets
    | with_reducible apply State.clearHalted_keeps
    | with_reducible apply State.dispatch_keeps
    | with_reducible apply Keeps.ite
    | with_reducible refine Keeps.foldl (fun u a hu => ?_) _ ?_
    | split
    | dsimp +zetaDelta only
    | with_reducible apply Keeps.mk)

theorem State.initSlot_keeps {z s : State} (n : Nat) (halted : Bool) (h : Keeps z s) :
    Keeps z (s.initSlot n halted) := by
  unfold State.initSlot
  repeat' (first
    | with_reducible assumption
    | extract_lets
    | with_reducible apply State.initRec_keeps
    | with_reducible apply State.setSlot_keeps
    | with_reducible apply State.withdraw_keeps
    | with_reducible apply Keeps.ite
    | split
    | dsimp +zetaDelta only
    | with_reducible apply Keeps.mk)

theorem State.resetFence_keeps {z s : State} (t : Nat) (h : Keeps z s) :
    Keeps z (s.resetFence t) := by
  unfold State.resetFence
  repeat' (first
    | with_reducible assumption
    | extract_lets
    | with_reducible apply State.setReg_keeps
    | with_reducible apply State.setSlot_keeps
    | with_reducible apply State.setTenState_keeps
    | with_reducible apply Keeps.ite
    | with_reducible refine Keeps.foldl (fun u a hu => ?_) _ ?_
    | split
    | dsimp +zetaDelta only
    | with_reducible apply Keeps.mk)

theorem State.resetStop_keeps {z s : State} (c : Nat) (h : Keeps z s) :
    Keeps z (s.resetStop c) := by
  unfold State.resetStop
  repeat' (first
    | with_reducible assumption
    | extract_lets
    | with_reducible apply State.drainAll_keeps
    | with_reducible apply State.setCore_keeps
    | with_reducible apply State.setSlot_keeps
    | with_reducible refine KeepsOpt.getD ?_ ?_
    | with_reducible apply KeepsOpt.ite
    | with_reducible refine KeepsOpt.map ?_ (fun u hu => ?_)
    | with_reducible apply Keeps.ite
    | split
    | dsimp +zetaDelta only
    | with_reducible apply Keeps.mk)

theorem State.resetCleats_keeps {z s : State} (t : Nat) (h : Keeps z s) :
    Keeps z (s.resetCleats t).2 := by
  unfold State.resetCleats
  repeat' (first
    | with_reducible assumption
    | extract_lets
    | with_reducible apply State.freeCleat_keeps
    | with_reducible refine Keeps.foldl (fun u a hu => ?_) _ ?_
    | with_reducible refine KeepsOpt.elim ?_ ?_ (fun u hu => ?_)
    | with_reducible refine Keeps.elim _ ?_ (fun a => ?_)
    | dsimp +zetaDelta only
    | with_reducible apply Keeps.mk)

theorem State.resetStart_keeps {z s : State} (t cause : Nat) (h : Keeps z s) :
    Keeps z (s.resetStart t cause) := by
  unfold State.resetStart
  repeat' (first
    | with_reducible assumption
    | extract_lets
    | with_reducible apply State.dmaAbort_keeps
    | with_reducible apply State.resetCleats_keeps
    | with_reducible apply State.resetFence_keeps
    | with_reducible apply State.resetStop_keeps
    | with_reducible apply State.sfuFree_keeps
    | with_reducible refine Keeps.foldl (fun u a hu => ?_) _ ?_
    | with_reducible refine KeepsOpt.elim ?_ ?_ (fun u hu => ?_)
    | with_reducible refine Keeps.elim _ ?_ (fun a => ?_)
    | dsimp +zetaDelta only
    | with_reducible apply Keeps.mk)

theorem State.resetKick_keeps {z s : State} (h : Keeps z s) :
    Keeps z (s.resetKick) := by
  unfold State.resetKick
  repeat' (first
    | with_reducible assumption
    | extract_lets
    | with_reducible apply State.resetStart_keeps
    | with_reducible apply Keeps.ite
    | split
    | dsimp +zetaDelta only
    | with_reducible apply Keeps.mk)

theorem State.settle_keeps {z s : State} (s0 : State) (h : Keeps z s) :
    Keeps z (State.settle s0 s) := by
  unfold State.settle
  repeat' (first
    | with_reducible assumption
    | extract_lets
    | with_reducible apply State.fill_keeps
    | with_reducible apply State.resetKick_keeps)

theorem State.resetComplete_keeps {z s : State} (r : TenReset) (h : Keeps z s) :
    Keeps z (s.resetComplete r) := by
  unfold State.resetComplete
  repeat' (first
    | with_reducible assumption
    | extract_lets
    | with_reducible apply State.initSlot_keeps
    | with_reducible apply State.memWrite_keeps
    | with_reducible apply State.setReg_keeps
    | with_reducible apply State.setShadow_keeps
    | with_reducible apply State.setTenState_keeps
    | with_reducible apply State.settle_keeps
    | with_reducible apply Keeps.ite
    | with_reducible refine Keeps.foldl (fun u a hu => ?_) _ ?_
    | split
    | dsimp +zetaDelta only
    | with_reducible apply Keeps.mk)

theorem State.setBayCh_keeps {z s : State} (n : Nat) (c : BayCh) (h : Keeps z s) :
    Keeps z (s.setBayCh n c) := by
  unfold State.setBayCh
  repeat' (first
    | with_reducible assumption
    | extract_lets
    | dsimp +zetaDelta only
    | with_reducible apply Keeps.mk)

theorem State.setPort_keeps {z s : State} (n : Nat) (p : BayuCh) (h : Keeps z s) :
    Keeps z (s.setPort n p) := by
  unfold State.setPort
  repeat' (first
    | with_reducible assumption
    | extract_lets
    | dsimp +zetaDelta only
    | with_reducible apply Keeps.mk)

theorem State.bayEvent_keeps {z s : State} (n i : Nat) (h : Keeps z s) :
    Keeps z (s.bayEvent n i) := by
  unfold State.bayEvent
  repeat' (first
    | with_reducible assumption
    | extract_lets
    | with_reducible apply State.setFlag_keeps)

theorem State.dequeue_keeps {z s : State} (n : Nat) (h : Keeps z s) :
    Keeps z (s.dequeue n) := by
  unfold State.dequeue
  repeat' (first
    | with_reducible assumption
    | extract_lets
    | dsimp +zetaDelta only
    | with_reducible apply Keeps.mk)

theorem State.bayOff_keeps {z s : State} (n : Nat) (h : Keeps z s) :
    Keeps z (s.bayOff n) := by
  unfold State.bayOff
  repeat' (first
    | with_reducible assumption
    | extract_lets
    | with_reducible apply State.dequeue_keeps
    | with_reducible apply State.setBayCh_keeps
    | with_reducible apply Keeps.mk)

theorem State.bayTrip_keeps {z s : State} (n cause : Nat) (h : Keeps z s) :
    Keeps z (s.bayTrip n cause) := by
  unfold State.bayTrip
  repeat' (first
    | with_reducible assumption
    | extract_lets
    | with_reducible apply State.bayEvent_keeps
    | with_reducible apply State.raise_keeps
    | with_reducible apply State.setBayCh_keeps
    | with_reducible apply State.setReg_keeps
    | with_reducible apply Keeps.ite
    | split
    | dsimp +zetaDelta only
    | with_reducible apply Keeps.mk)

theorem State.bayStop_keeps {z s : State} (n : Nat) (h : Keeps z s) :
    Keeps z (s.bayStop n) := by
  unfold State.bayStop
  repeat' (first
    | with_reducible assumption
    | extract_lets
    | with_reducible apply State.bayOff_keeps
    | with_reducible apply State.dequeue_keeps
    | with_reducible apply Keeps.ite
    | split
    | dsimp +zetaDelta only)

theorem State.bayDisable_keeps {z s : State} (n : Nat) (h : Keeps z s) :
    Keeps z (s.bayDisable n) := by
  unfold State.bayDisable
  repeat' (first
    | with_reducible assumption
    | extract_lets
    | with_reducible apply State.bayStop_keeps)

theorem State.bayRestart_keeps {z s : State} (n : Nat) (h : Keeps z s) :
    Keeps z (s.bayRestart n) := by
  unfold State.bayRestart
  repeat' (first
    | with_reducible assumption
    | extract_lets
    | with_reducible apply State.setBayCh_keeps
    | with_reducible apply Keeps.ite
    | split
    | with_reducible apply Keeps.mk)

theorem State.noteLeftOut_keeps {z s : State} (ns : List Nat) (h : Keeps z s) :
    Keeps z (s.noteLeftOut ns) := by
  unfold State.noteLeftOut
  repeat' (first
    | with_reducible assumption
    | extract_lets
    | with_reducible apply State.bayEvent_keeps
    | with_reducible apply Keeps.ite
    | with_reducible refine Keeps.foldl (fun u a hu => ?_) _ ?_
    | split
    | dsimp +zetaDelta only)

theorem State.queueUnit_keeps {z s : State} (u : List Nat) (h : Keeps z s) :
    Keeps z (s.queueUnit u) := by
  unfold State.queueUnit
  repeat' (first
    | with_reducible assumption
    | extract_lets
    | with_reducible apply State.setFlag_keeps
    | with_reducible apply Keeps.ite
    | split
    | dsimp +zetaDelta only
    | with_reducible apply Keeps.mk)

theorem State.retryDue_keeps {z s : State} (n : Nat) (h : Keeps z s) :
    Keeps z (s.retryDue n).2 := by
  unfold State.retryDue
  repeat' (first
    | with_reducible assumption
    | extract_lets
    | with_reducible apply State.bayEvent_keeps
    | with_reducible apply State.bayOff_keeps
    | with_reducible apply State.setBayCh_keeps
    | split
    | dsimp +zetaDelta only
    | with_reducible apply Keeps.mk)

theorem State.backoffExpiry_keeps {z s : State} (n : Nat) (h : Keeps z s) : Keeps z (s.backoffExpiry n) := by
  have h1 := State.retryDue_keeps n h
  unfold State.backoffExpiry
  generalize s.retryDue n = q at h1 ⊢
  split
  · exact State.queueUnit_keeps _ h1
  · exact h1

theorem State.admitChan_keeps {z s : State} (n : Nat) (h : Keeps z s) :
    Keeps z (s.admitChan n) := by
  unfold State.admitChan
  repeat' (first
    | with_reducible assumption
    | extract_lets
    | with_reducible apply State.bayTrip_keeps
    | with_reducible apply State.setBayCh_keeps
    | with_reducible apply Keeps.ite
    | split
    | dsimp +zetaDelta only
    | with_reducible apply Keeps.mk)

theorem State.admitUnits_keeps {z s : State} (k : Nat) (h : Keeps z s) : Keeps z (State.admitUnits k s) := by
  induction k generalizing s with
  | zero => exact h
  | succ k ih =>
    unfold State.admitUnits
    split
    · exact h
    · split
      · exact ih (Keeps.foldl (fun u a hu => State.admitChan_keeps _ hu) _ (Keeps.mk h))
      · exact h

theorem State.newUnits_keeps {z s : State} (h : Keeps z s) : Keeps z s.newUnits.2 := by
  unfold State.newUnits
  refine Keeps.foldl_proj Prod.snd (fun u n hu => ?_) _ (State.noteLeftOut_keeps _
    (Keeps.foldl_proj Prod.snd (fun u n hu => ?_) _ h))
  · obtain ⟨us, u⟩ := u
    have h1 := State.retryDue_keeps n hu
    dsimp only at h1 ⊢
    generalize u.retryDue n = q at h1
    obtain ⟨o, t⟩ := q
    cases o <;> exact h1
  · exact State.noteLeftOut_keeps _ hu

theorem State.bayLatch_keeps {z s : State} (h : Keeps z s) : Keeps z s.bayLatch := by
  unfold State.bayLatch
  refine State.admitUnits_keeps _ (Keeps.mk (Keeps.foldl (fun u n hu => State.setBayCh_keeps _ _ hu) _
    (Keeps.foldl (fun u n hu => State.queueUnit_keeps _ hu) _ (State.newUnits_keeps
    (Keeps.foldl (fun u n hu => State.setBayCh_keeps _ _ hu) _ (Keeps.mk
    (Keeps.foldl (fun u n hu => State.setBayCh_keeps _ _ (State.bayStop_keeps _ hu)) _ h)))))))

theorem State.portTx_keeps {z s : State} (n v : Nat) (h : Keeps z s) :
    Keeps z (s.portTx n v) := by
  unfold State.portTx
  repeat' (first
    | with_reducible assumption
    | extract_lets
    | with_reducible apply State.count_keeps
    | with_reducible apply State.setPort_keeps
    | with_reducible apply Keeps.ite
    | split
    | dsimp +zetaDelta only
    | with_reducible apply Keeps.mk)

theorem State.portRx_keeps {z s : State} (n : Nat) (h : Keeps z s) :
    Keeps z (s.portRx n).2 := by
  unfold State.portRx
  repeat' (first
    | with_reducible assumption
    | extract_lets
    | with_reducible apply State.setPort_keeps
    | split
    | with_reducible apply Keeps.mk)

theorem State.portEnable_keeps {z s : State} (n : Nat) (en : Bool) (h : Keeps z s) :
    Keeps z (s.portEnable n en) := by
  unfold State.portEnable
  repeat' (first
    | with_reducible assumption
    | extract_lets
    | with_reducible apply State.setPort_keeps
    | with_reducible apply Keeps.ite
    | split
    | with_reducible apply Keeps.mk)

theorem State.loseBayGroup_keeps {z s : State} (g : Nat) (h : Keeps z s) :
    Keeps z (s.loseBayGroup g) := by
  unfold State.loseBayGroup
  repeat' (first
    | with_reducible assumption
    | extract_lets
    | with_reducible apply State.setReg_keeps
    | dsimp +zetaDelta only
    | with_reducible apply Keeps.mk)

theorem State.setConv_keeps {z s : State} (c : Nat) (x : Conv) (h : Keeps z s) :
    Keeps z (s.setConv c x) := by
  unfold State.setConv
  repeat' (first
    | with_reducible assumption
    | extract_lets
    | dsimp +zetaDelta only
    | with_reducible apply Keeps.mk)

theorem State.startEntry_keeps {z s : State} (c e : Nat) (h : Keeps z s) :
    Keeps z (s.startEntry c e) := by
  unfold State.startEntry
  repeat' (first
    | with_reducible assumption
    | extract_lets
    | with_reducible apply State.setConv_keeps
    | dsimp +zetaDelta only
    | with_reducible apply Keeps.mk)

theorem State.startGroup_keeps {z s : State} (c : Nat) (h : Keeps z s) :
    Keeps z (s.startGroup c) := by
  unfold State.startGroup
  repeat' (first
    | with_reducible assumption
    | extract_lets
    | with_reducible apply State.setConv_keeps
    | with_reducible apply State.startEntry_keeps
    | with_reducible refine Keeps.foldl (fun u a hu => ?_) _ ?_
    | dsimp +zetaDelta only
    | with_reducible apply Keeps.mk)

theorem State.adcLatch_keeps {z s : State} (h : Keeps z s) :
    Keeps z (s.adcLatch) := by
  unfold State.adcLatch
  repeat' (first
    | with_reducible assumption
    | extract_lets
    | with_reducible apply State.setConv_keeps
    | with_reducible apply State.startEntry_keeps
    | with_reducible apply Keeps.ite
    | with_reducible refine Keeps.foldl (fun u a hu => ?_) _ ?_
    | split
    | dsimp +zetaDelta only
    | with_reducible apply Keeps.mk)

theorem State.convEnable_keeps {z s : State} (c : Nat) (en : Bool) (h : Keeps z s) :
    Keeps z (s.convEnable c en) := by
  unfold State.convEnable
  repeat' (first
    | with_reducible assumption
    | extract_lets
    | with_reducible apply State.setConv_keeps
    | with_reducible apply Keeps.ite
    | with_reducible refine Keeps.foldl (fun u a hu => ?_) _ ?_
    | split
    | dsimp +zetaDelta only
    | with_reducible apply Keeps.mk)

theorem State.putResult_keeps {z s : State} (c word ring : Nat) (h : Keeps z s) :
    Keeps z (s.putResult c word ring) := by
  unfold State.putResult
  repeat' (first
    | with_reducible assumption
    | extract_lets
    | with_reducible apply State.count_keeps
    | with_reducible apply State.setConv_keeps
    | with_reducible apply Keeps.ite
    | split
    | dsimp +zetaDelta only
    | with_reducible apply Keeps.mk)

theorem State.entryDone_keeps {z s : State} (c : Nat) (h : Keeps z s) :
    Keeps z (s.entryDone c) := by
  unfold State.entryDone
  repeat' (first
    | with_reducible assumption
    | extract_lets
    | with_reducible apply State.setConv_keeps
    | with_reducible apply State.startEntry_keeps
    | with_reducible apply Keeps.ite
    | with_reducible refine Keeps.foldl (fun u a hu => ?_) _ ?_
    | split
    | dsimp +zetaDelta only
    | with_reducible apply Keeps.mk)

theorem State.conversion_keeps {z s : State} (c : Nat) (uv : Int) (h : Keeps z s) :
    Keeps z (s.conversion c uv) := by
  unfold State.conversion
  repeat' (first
    | with_reducible assumption
    | extract_lets
    | with_reducible apply State.entryDone_keeps
    | with_reducible apply State.freeBits_keeps
    | with_reducible apply State.putResult_keeps
    | with_reducible apply State.setConv_keeps
    | with_reducible apply Keeps.ite
    | split
    | dsimp +zetaDelta only
    | with_reducible apply Keeps.mk)

theorem State.loseConv_keeps {z s : State} (c : Nat) (h : Keeps z s) :
    Keeps z (s.loseConv c) := by
  unfold State.loseConv
  repeat' (first
    | with_reducible assumption
    | extract_lets
    | with_reducible apply State.convEnable_keeps
    | with_reducible apply State.setConv_keeps
    | dsimp +zetaDelta only
    | with_reducible apply Keeps.mk)

theorem State.cryptResult_keeps {z s : State} (op slot len tag : Nat) (h : Keeps z s) :
    Keeps z (s.cryptResult op slot len tag).2 := by
  unfold State.cryptResult
  repeat' (first
    | with_reducible assumption
    | extract_lets
    | with_reducible apply State.freeBytes_keeps
    | with_reducible apply Keeps.ite
    | split
    | dsimp +zetaDelta only
    | with_reducible apply Keeps.mk)

theorem State.cryptCmd_keeps {z s : State} (op slot len : Nat) (h : Keeps z s) :
    Keeps z (s.cryptCmd op slot len) := by
  unfold State.cryptCmd
  repeat' (first
    | with_reducible assumption
    | extract_lets
    | with_reducible apply State.count_keeps
    | with_reducible apply State.cryptResult_keeps
    | with_reducible apply State.setReg_keeps
    | with_reducible apply State.stand_keeps
    | with_reducible apply State.tryRefuse_keeps
    | with_reducible apply Keeps.ite
    | split
    | dsimp +zetaDelta only
    | with_reducible apply Keeps.mk)

theorem State.cryptEnd_keeps {z s : State} (o : CryptOp) (h : Keeps z s) :
    Keeps z (s.cryptEnd o) := by
  unfold State.cryptEnd
  repeat' (first
    | with_reducible assumption
    | extract_lets
    | with_reducible apply State.count_keeps
    | with_reducible apply State.irq_keeps
    | with_reducible apply State.setReg_keeps
    | with_reducible apply State.unstand_keeps
    | with_reducible refine KeepsOpt.getD ?_ ?_
    | with_reducible apply KeepsOpt.some
    | with_reducible apply KeepsOpt.ite
    | with_reducible refine KeepsOpt.map ?_ (fun u hu => ?_)
    | with_reducible apply Keeps.ite
    | split
    | dsimp +zetaDelta only
    | with_reducible apply Keeps.mk)

theorem State.kekWrite_keeps {z s : State} (w v : Nat) (h : Keeps z s) :
    Keeps z (s.kekWrite w v) := by
  unfold State.kekWrite
  repeat' (first
    | with_reducible assumption
    | extract_lets
    | dsimp +zetaDelta only
    | with_reducible apply Keeps.mk)

theorem State.bufWrite_keeps {z s : State} (at_ v : Nat) (h : Keeps z s) :
    Keeps z (s.bufWrite at_ v) := by
  unfold State.bufWrite
  repeat' (first
    | with_reducible assumption
    | extract_lets
    | with_reducible apply Keeps.ite
    | split
    | with_reducible apply Keeps.mk)

theorem State.loseCrypt_keeps {z s : State} (h : Keeps z s) :
    Keeps z (s.loseCrypt) := by
  unfold State.loseCrypt
  repeat' (first
    | with_reducible assumption
    | extract_lets
    | with_reducible apply State.cryptEnd_keeps
    | split
    | dsimp +zetaDelta only
    | with_reducible apply Keeps.mk)

theorem State.kekRelease_keeps {z s : State} (h : Keeps z s) :
    Keeps z (s.kekRelease) := by
  unfold State.kekRelease
  repeat' (first
    | with_reducible assumption
    | extract_lets
    | with_reducible apply State.kekWrite_keeps
    | with_reducible apply Keeps.ite
    | with_reducible refine Keeps.foldl (fun u a hu => ?_) _ ?_
    | split
    | dsimp +zetaDelta only
    | with_reducible apply Keeps.mk)

theorem State.spineSend_keeps {z s : State} (bs : List Byte) (h : Keeps z s) :
    Keeps z (s.spineSend bs) := by
  unfold State.spineSend
  repeat' (first
    | with_reducible assumption
    | extract_lets
    | with_reducible apply State.count_keeps
    | with_reducible apply Keeps.ite
    | split
    | with_reducible apply Keeps.mk)

theorem State.crcFail_keeps {z s : State} (h : Keeps z s) :
    Keeps z (s.crcFail) := by
  unfold State.crcFail
  repeat' (first
    | with_reducible assumption
    | extract_lets
    | with_reducible apply State.count_keeps)

theorem State.sdSeen_keeps {z s : State} (h : Keeps z s) :
    Keeps z (s.sdSeen) := by
  unfold State.sdSeen
  repeat' (first
    | with_reducible assumption
    | extract_lets
    | with_reducible apply Keeps.mk)

theorem State.pickFrame_keeps {w : Nat} {z s : State} (r : Rx w) (ok : BitVec w → Bool) (h : Keeps z s) :
    Keeps z (s.pickFrame r ok).2 := by
  unfold State.pickFrame
  extract_lets p s0 s1 s2
  have h1 : Keeps z s1 := Keeps.ite (State.crcFail_keeps (State.sdSeen_keeps h)) (State.sdSeen_keeps h)
  have h2 : Keeps z s2 := Keeps.ite (State.crcFail_keeps h1) h1
  clear_value s2
  split
  · exact h
  split
  · exact Keeps.ite (State.setFlag_keeps _ _ h2) h2
  · split <;> exact h2

theorem State.frameAccepted_keeps {z s : State} (h : Keeps z s) :
    Keeps z (s.frameAccepted) := by
  unfold State.frameAccepted
  repeat' (first
    | with_reducible assumption
    | extract_lets
    | with_reducible apply State.count_keeps)

theorem State.excEnd_keeps {z s : State} (h : Keeps z s) :
    Keeps z (s.excEnd) := by
  unfold State.excEnd
  repeat' (first
    | with_reducible assumption
    | extract_lets
    | with_reducible apply State.loseArb_keeps
    | with_reducible apply State.setDom_keeps
    | with_reducible apply Keeps.ite
    | with_reducible refine Keeps.foldl (fun u a hu => ?_) _ ?_
    | split
    | dsimp +zetaDelta only
    | with_reducible apply Keeps.mk)

theorem State.prbPower_keeps {z s : State} (d : Nat) (h : Keeps z s) :
    Keeps z (s.prbPower d) := by
  unfold State.prbPower
  repeat' (first
    | with_reducible assumption
    | extract_lets
    | with_reducible apply State.setDom_keeps
    | with_reducible apply Keeps.ite
    | split
    | with_reducible apply Keeps.mk)

theorem State.ticketFor_keeps {z s : State} (tenant key : Nat) (h : Keeps z s) : Keeps z (s.ticketFor tenant key).2.2 := by
  unfold State.ticketFor
  split
  · exact h
  · split
    · exact State.setFlag_keeps _ _ h
    · exact State.halyard_keeps _ (Keeps.mk (State.wrLe_keeps _ _ _ (State.wrLe_keeps _ _ _ (State.wrLe_keeps _ _ _ h))))

theorem State.prbWord_keeps {z s : State} (off : Nat) (h : Keeps z s) :
    Keeps z (s.prbWord off).2.2 := by
  unfold State.prbWord
  repeat' (first
    | with_reducible assumption
    | extract_lets
    | with_reducible apply State.corrected_keeps
    | with_reducible apply State.count_keeps
    | with_reducible apply State.poisonWords_keeps
    | with_reducible apply Keeps.ite
    | split
    | with_reducible apply Keeps.mk)

theorem State.prbLook_keeps {z s : State} (key : Nat) (offs : List Nat) (h : Keeps z s) : Keeps z (s.prbLook key offs).2 := by
  unfold State.prbLook
  refine Keeps.foldl_proj Prod.snd (fun u o hu => ?_) offs h
  split
  · exact hu
  · exact State.prbWord_keeps _ (State.prbWord_keeps _ hu)

theorem State.prbBanks_keeps {z s : State} (offs : List Nat) (h : Keeps z s) :
    Keeps z (s.prbBanks offs) := by
  unfold State.prbBanks
  repeat' (first
    | with_reducible assumption
    | extract_lets
    | with_reducible apply State.prbPower_keeps
    | with_reducible apply Keeps.ite
    | with_reducible refine Keeps.foldl (fun u a hu => ?_) _ ?_
    | split
    | dsimp +zetaDelta only)

theorem State.prbAsk_keeps {z s : State} (buckets : List Nat) (h : Keeps z s) : KeepsOpt z (s.prbAsk buckets) := by
  unfold State.prbAsk
  refine KeepsOpt.foldl (fun o a ho => ?_) _ (.some h)
  exact .bind ho (fun t ht => .bind (State.useArb_keeps _ _ ht) (fun u hu => .ite (State.useArb_keeps _ _ hu) (.some hu)))

theorem State.probeFound_keeps {z s : State} (tenant key : Nat) (l : Look) (h : Keeps z s) :
    Keeps z (s.probeFound tenant key l).2.2 := by
  cases l with
  | deferred => exact State.ticketFor_keeps _ _ h
  | _ => exact h

theorem State.opProbe_keeps {z s : State} (tenant key : Nat) (late : Bool) (h : Keeps z s) :
    Keeps z (s.opProbe tenant key late).2.2 := by
  unfold State.opProbe
  extract_lets d bk offs s1
  have h1 : Keeps z s1 := State.prbBanks_keeps _ (State.reef1Leave_keeps h)
  clear_value s1
  split
  · exact h1
  · have h2 := State.prbAsk_keeps [bk.1, bk.2] h1
    generalize s1.prbAsk [bk.1, bk.2] = q at h2 ⊢
    split
    · exact h1
    · exact State.probeFound_keeps _ _ _ (State.prbLook_keeps _ _ (h2 _ rfl))

theorem State.opTicket_keeps {z s : State} (tenant key : Nat) (h : Keeps z s) :
    Keeps z (s.opTicket tenant key).2.2 := by
  unfold State.opTicket
  repeat' (first
    | with_reducible assumption
    | extract_lets
    | with_reducible apply State.freeBits_keeps
    | with_reducible apply State.wr_keeps
    | with_reducible apply Keeps.ite
    | split
    | dsimp +zetaDelta only)

theorem State.opWake_keeps {z s : State} (h : Keeps z s) :
    Keeps z (s.opWake) := by
  unfold State.opWake
  repeat' (first
    | with_reducible assumption
    | extract_lets
    | with_reducible apply State.halyard_keeps
    | with_reducible apply State.setFlag_keeps
    | with_reducible apply Keeps.ite
    | split)

theorem State.opSleep_keeps {z s : State} (h : Keeps z s) :
    Keeps z (s.opSleep) := by
  unfold State.opSleep
  repeat' (first
    | with_reducible assumption
    | extract_lets
    | with_reducible apply State.halyard_keeps
    | with_reducible apply State.setFlag_keeps)

theorem State.chunkDrop_keeps {z s : State} (h : Keeps z s) :
    Keeps z (s.chunkDrop) := by
  unfold State.chunkDrop
  repeat' (first
    | with_reducible assumption
    | extract_lets
    | with_reducible apply Keeps.mk)

theorem State.chunkStore_keeps {z s : State} (n seq : Nat) (data : List Byte) (h : Keeps z s) :
    Keeps z (s.chunkStore n seq data).2 := by
  unfold State.chunkStore
  repeat' (first
    | with_reducible assumption
    | extract_lets
    | with_reducible apply State.chunkDrop_keeps
    | with_reducible apply State.halyard_keeps
    | with_reducible apply State.setFlag_keeps
    | with_reducible apply State.wrBytes_keeps
    | with_reducible apply Keeps.ite
    | split
    | dsimp +zetaDelta only
    | with_reducible apply Keeps.mk)

theorem State.opChunk_keeps {z s : State} (tenant key : Nat) (h : Keeps z s) :
    Keeps z (s.opChunk tenant key).2 := by
  unfold State.opChunk
  repeat' (first
    | with_reducible assumption
    | extract_lets
    | with_reducible apply State.chunkDrop_keeps
    | with_reducible apply State.chunkStore_keeps
    | with_reducible apply State.halyard_keeps
    | with_reducible apply State.setFlag_keeps
    | with_reducible apply Keeps.ite
    | split
    | dsimp +zetaDelta only)

theorem State.operate_keeps {z s : State} (op tenant key : Nat) (late : Bool) (h : Keeps z s) :
    Keeps z (s.operate op tenant key late).2.2 := by
  unfold State.operate
  repeat' (first
    | with_reducible assumption
    | extract_lets
    | with_reducible apply State.opChunk_keeps
    | with_reducible apply State.opProbe_keeps
    | with_reducible apply State.opSleep_keeps
    | with_reducible apply State.opTicket_keeps
    | with_reducible apply State.opWake_keeps
    | with_reducible apply Keeps.ite
    | split
    | dsimp +zetaDelta only
    | with_reducible apply Keeps.mk)

theorem State.countAnswer_keeps {z s : State} (st : Nat) (h : Keeps z s) :
    Keeps z (s.countAnswer st) := by
  unfold State.countAnswer
  repeat' (first
    | with_reducible assumption
    | extract_lets
    | with_reducible apply State.count_keeps
    | with_reducible apply Keeps.ite
    | split
    | dsimp +zetaDelta only)

theorem State.answer_keeps {z s : State} (op tenant key : Nat) (late : Bool) (h : Keeps z s) :
    Keeps z (s.answer op tenant key late) := by
  unfold State.answer
  repeat' (first
    | with_reducible assumption
    | extract_lets
    | with_reducible apply State.countAnswer_keeps
    | with_reducible apply State.operate_keeps
    | with_reducible apply Keeps.ite
    | split
    | dsimp +zetaDelta only
    | with_reducible apply Keeps.mk)

theorem State.broadcast_keeps {z s : State} (op : Nat) (h : Keeps z s) :
    Keeps z (s.broadcast op) := by
  unfold State.broadcast
  repeat' (first
    | with_reducible assumption
    | extract_lets
    | with_reducible apply State.opSleep_keeps
    | with_reducible apply State.opWake_keeps
    | with_reducible apply Keeps.ite
    | split)

theorem State.query_keeps {z s : State} (f : BitVec 72) (late : Bool) (h : Keeps z s) :
    Keeps z (s.query f late) := by
  unfold State.query
  repeat' (first
    | with_reducible assumption
    | extract_lets
    | with_reducible apply State.answer_keeps
    | with_reducible apply State.broadcast_keeps
    | with_reducible apply State.frameAccepted_keeps
    | with_reducible apply Keeps.ite
    | split
    | dsimp +zetaDelta only)

theorem State.rptPost_keeps {z s : State} (q : Nat) (h : Keeps z s) :
    Keeps z (s.rptPost q) := by
  unfold State.rptPost
  repeat' (first
    | with_reducible assumption
    | extract_lets
    | with_reducible apply Keeps.ite
    | split
    | dsimp +zetaDelta only
    | with_reducible apply Keeps.mk)

theorem State.deliverUndel_keeps {z s : State} (h : Keeps z s) :
    Keeps z (s.deliverUndel) := by
  unfold State.deliverUndel
  repeat' (first
    | with_reducible assumption
    | extract_lets
    | with_reducible apply State.raise_keeps
    | split
    | with_reducible apply Keeps.mk)

theorem State.pairTake_keeps {z s : State} (bs : List Byte) (h : Keeps z s) : Keeps z (s.pairTake bs) := by
  unfold State.pairTake
  extract_lets seq hd s0 p1 s1 s2 p2 p3 r ack
  have h1 : Keeps z s1 := Keeps.mk (State.frameAccepted_keeps h)
  have h2 : Keeps z s2 := State.wrBytes_keeps _ _ h1
  have hr : Keeps z r.2 := by
    unfold r
    split
    · exact h1
    · split
      · exact h1
      · exact Keeps.mk (State.setReg_keeps _ _ h2)
  clear_value r
  split
  · exact h
  · exact KeepsOpt.elim (State.useArb_keeps _ _ hr) hr (fun u hu => State.spineSend_keeps _ hu)

theorem State.pairAcked_keeps {z s : State} (bs : List Byte) (h : Keeps z s) :
    Keeps z (s.pairAcked bs) := by
  unfold State.pairAcked
  repeat' (first
    | with_reducible assumption
    | extract_lets
    | with_reducible apply State.frameAccepted_keeps
    | with_reducible apply State.setReg_keeps
    | with_reducible apply Keeps.ite
    | split
    | dsimp +zetaDelta only
    | with_reducible apply Keeps.mk)

theorem State.headTick_keeps {z s : State} (h : Keeps z s) :
    Keeps z (s.headTick) := by
  unfold State.headTick
  repeat' (first
    | with_reducible assumption
    | extract_lets
    | with_reducible apply Keeps.ite
    | split
    | dsimp +zetaDelta only
    | with_reducible apply Keeps.mk)

theorem State.spineTick_keeps {z s : State} (h : Keeps z s) :
    Keeps z (s.spineTick) := by
  unfold State.spineTick
  repeat' (first
    | with_reducible assumption
    | extract_lets
    | with_reducible apply State.setFlag_keeps
    | with_reducible apply Keeps.ite
    | split
    | dsimp +zetaDelta only
    | with_reducible apply Keeps.mk)

theorem State.loseProbe_keeps {z s : State} (h : Keeps z s) :
    Keeps z (s.loseProbe) := by
  unfold State.loseProbe
  repeat' (first
    | with_reducible assumption
    | extract_lets
    | with_reducible apply Keeps.mk)

theorem State.loseSpl_keeps {z s : State} (h : Keeps z s) :
    Keeps z (s.loseSpl) := by
  unfold State.loseSpl
  repeat' (first
    | with_reducible assumption
    | extract_lets
    | with_reducible apply Keeps.mk)

theorem State.dropRegs_keeps {z s : State} (lo hi : Nat) (h : Keeps z s) : Keeps z (s.dropRegs lo hi) :=
  ⟨h.1, fun c => by
    have := h.2 c; simp only [State.canonical, Bool.and_eq_true] at this ⊢; exact ⟨this.1, Tab.wf_keep regReset (fun k : Nat => !decide (lo ≤ keyAddr k ∧ keyAddr k < hi)) s.regs this.2⟩⟩

theorem State.dropMem_keeps {z s : State} (lo hi : Nat) (h : Keeps z s) : Keeps z (s.dropMem lo hi) :=
  ⟨h.1, fun c => by
    have := h.2 c; simp only [State.canonical, Bool.and_eq_true] at this ⊢; exact ⟨s.dropMem_wf lo hi this.1, this.2⟩⟩

theorem State.dropRing_keeps {z s : State} (b : Nat) (h : Keeps z s) :
    Keeps z (s.dropRing b) := by
  unfold State.dropRing
  repeat' (first
    | with_reducible assumption
    | extract_lets
    | with_reducible apply State.setRing_keeps)

theorem State.dropBlock_keeps {z s : State} (b : Nat) (h : Keeps z s) :
    Keeps z (s.dropBlock b) := by
  unfold State.dropBlock
  repeat' (first
    | with_reducible assumption
    | extract_lets
    | with_reducible apply State.dropRegs_keeps
    | with_reducible apply State.dropRing_keeps)

theorem State.loseFab_keeps {z s : State} (h : Keeps z s) :
    Keeps z (s.loseFab) := by
  unfold State.loseFab
  repeat' (first
    | with_reducible assumption
    | extract_lets
    | with_reducible apply State.dropBlock_keeps
    | with_reducible apply State.setFlag_keeps
    | with_reducible refine Keeps.foldl (fun u a hu => ?_) _ ?_
    | dsimp +zetaDelta only
    | with_reducible apply Keeps.mk)

theorem State.loseSgm_keeps {z s : State} (p : Nat) (h : Keeps z s) :
    Keeps z (s.loseSgm p) := by
  unfold State.loseSgm
  repeat' (first
    | with_reducible assumption
    | extract_lets
    | dsimp +zetaDelta only
    | with_reducible apply Keeps.mk)

theorem State.loseDom_keeps {z s0 : State} (d : Nat) (h : Keeps z s0) :
    Keeps z (s0.loseDom d) := by
  unfold State.loseDom
  repeat' (first
    | with_reducible assumption
    | extract_lets
    | with_reducible apply State.dropBlock_keeps
    | with_reducible apply State.dropMem_keeps
    | with_reducible apply State.dropRegs_keeps
    | with_reducible apply State.loseArb_keeps
    | with_reducible apply State.loseBayGroup_keeps
    | with_reducible apply State.loseConv_keeps
    | with_reducible apply State.loseCrypt_keeps
    | with_reducible apply State.loseDma_keeps
    | with_reducible apply State.loseFab_keeps
    | with_reducible apply State.loseNor_keeps
    | with_reducible apply State.loseProbe_keeps
    | with_reducible apply State.loseSfu_keeps
    | with_reducible apply State.loseSgm_keeps
    | with_reducible apply State.loseSpl_keeps
    | with_reducible apply State.setCore_keeps
    | with_reducible apply State.setFlag_keeps
    | with_reducible apply Keeps.ite
    | split
    | dsimp +zetaDelta only
    | with_reducible apply Keeps.mk)

theorem State.offDom_keeps {z s : State} (d : Nat) (h : Keeps z s) :
    Keeps z (s.offDom d) := by
  unfold State.offDom
  repeat' (first
    | with_reducible assumption
    | extract_lets
    | with_reducible apply State.loseDom_keeps
    | with_reducible apply State.setDom_keeps
    | with_reducible apply Keeps.ite
    | split)

theorem State.offDomHeld_keeps {z s : State} (d : Nat) (h : Keeps z s) :
    Keeps z (s.offDomHeld d) := by
  unfold State.offDomHeld
  repeat' (first
    | with_reducible assumption
    | extract_lets
    | with_reducible apply State.offDom_keeps
    | with_reducible apply Keeps.ite
    | split
    | dsimp +zetaDelta only
    | with_reducible apply Keeps.mk)

theorem State.dropShadows_keeps {z s : State} (d : Nat) (h : Keeps z s) :
    Keeps z (s.dropShadows d) := by
  unfold State.dropShadows
  repeat' (first
    | with_reducible assumption
    | extract_lets
    | with_reducible refine KeepsOpt.elim ?_ ?_ (fun u hu => ?_)
    | with_reducible refine Keeps.elim _ ?_ (fun a => ?_)
    | dsimp +zetaDelta only
    | with_reducible apply Keeps.mk)

theorem State.retainDom_keeps {z s : State} (d : Nat) (h : Keeps z s) :
    Keeps z (s.retainDom d) := by
  unfold State.retainDom
  repeat' (first
    | with_reducible assumption
    | extract_lets
    | with_reducible apply State.dropShadows_keeps
    | with_reducible apply State.loseArb_keeps
    | with_reducible apply State.loseDma_keeps
    | with_reducible apply State.setCore_keeps
    | with_reducible apply State.setDom_keeps
    | with_reducible apply Keeps.ite
    | split
    | dsimp +zetaDelta only
    | with_reducible apply Keeps.mk)

theorem State.onDom_keeps {z s : State} (d : Nat) (h : Keeps z s) :
    Keeps z (s.onDom d) := by
  unfold State.onDom
  repeat' (first
    | with_reducible assumption
    | extract_lets
    | with_reducible apply State.setDom_keeps
    | with_reducible apply Keeps.ite
    | split
    | dsimp +zetaDelta only
    | with_reducible apply Keeps.mk)

theorem State.fabReleased_keeps {z s : State} (h : Keeps z s) :
    Keeps z (s.fabReleased) := by
  unfold State.fabReleased
  repeat' (first
    | with_reducible assumption
    | extract_lets
    | with_reducible apply State.deliverUndel_keeps
    | with_reducible apply State.raise_keeps
    | with_reducible refine Keeps.foldl (fun u a hu => ?_) _ ?_
    | dsimp +zetaDelta only
    | with_reducible apply Keeps.mk)

theorem State.frameRestart_keeps {z s : State} (h : Keeps z s) :
    Keeps z (s.frameRestart) := by
  unfold State.frameRestart
  repeat' (first
    | with_reducible assumption
    | extract_lets
    | with_reducible apply State.setFlag_keeps)

theorem State.releaseDom_keeps {z s : State} (d : Nat) (h : Keeps z s) :
    Keeps z (s.releaseDom d) := by
  unfold State.releaseDom
  repeat' (first
    | with_reducible assumption
    | extract_lets
    | with_reducible apply State.fabReleased_keeps
    | with_reducible apply State.frameRestart_keeps
    | with_reducible apply State.kekRelease_keeps
    | with_reducible apply State.setCore_keeps
    | with_reducible apply State.setDom_keeps
    | with_reducible apply Keeps.ite
    | split
    | dsimp +zetaDelta only
    | with_reducible apply Keeps.mk)

theorem State.alarm_keeps {z s : State} (n : Nat) (h : Keeps z s) :
    Keeps z (s.alarm n) := by
  unfold State.alarm
  repeat' (first
    | with_reducible assumption
    | extract_lets
    | with_reducible apply State.halyard_keeps
    | with_reducible apply State.setFlag_keeps
    | with_reducible apply Keeps.ite
    | split)

theorem State.alarms_keeps {z s : State} (h : Keeps z s) :
    Keeps z (s.alarms) := by
  unfold State.alarms
  repeat' (first
    | with_reducible assumption
    | extract_lets
    | with_reducible apply State.alarm_keeps)

theorem State.rtcCapture_keeps {z s : State} (h : Keeps z s) :
    Keeps z (s.rtcCapture) := by
  unfold State.rtcCapture
  repeat' (first
    | with_reducible assumption
    | extract_lets
    | with_reducible apply State.setReg_keeps
    | dsimp +zetaDelta only)

theorem State.rtcLoad_keeps {z s : State} (h : Keeps z s) :
    Keeps z (s.rtcLoad) := by
  unfold State.rtcLoad
  repeat' (first
    | with_reducible assumption
    | extract_lets
    | with_reducible apply State.alarms_keeps
    | with_reducible apply State.setFlag_keeps
    | dsimp +zetaDelta only
    | with_reducible apply Keeps.mk)

theorem State.rtcCycle_keeps {z s : State} (h : Keeps z s) :
    Keeps z (s.rtcCycle) := by
  unfold State.rtcCycle
  repeat' (first
    | with_reducible assumption
    | extract_lets
    | with_reducible apply Keeps.ite
    | split
    | with_reducible apply Keeps.mk)

end Sys2Proof.Machine
end

