-- ==== Sys2Proof/Laws/KeepsBus.lean ====
section
/-! SUPPORT. What wakes, entries, clocks, views and register accesses keep (see Keeps.lean). -/
namespace Sys2Proof.Machine

theorem State.reefReq_keeps {z s : State} (level : Nat) (h : Keeps z s) :
    Keeps z (s.reefReq level) := by
  unfold State.reefReq
  repeat' (first
    | with_reducible assumption
    | extract_lets
    | with_reducible apply State.setReg_keeps
    | with_reducible apply Keeps.ite
    | split
    | dsimp +zetaDelta only
    | with_reducible apply Keeps.mk)

theorem State.entryLoses_keeps {z s : State} (target : Nat) (h : Keeps z s) :
    Keeps z (s.entryLoses target) := by
  unfold State.entryLoses
  repeat' (first
    | with_reducible assumption
    | extract_lets
    | with_reducible apply Keeps.ite
    | split
    | with_reducible apply Keeps.mk)

theorem State.entryForces_keeps {z s : State} (h : Keeps z s) :
    Keeps z (s.entryForces) := by
  unfold State.entryForces
  repeat' (first
    | with_reducible assumption
    | extract_lets
    | with_reducible apply State.offDom_keeps
    | with_reducible apply State.setFlag_keeps
    | with_reducible refine Keeps.foldl (fun u a hu => ?_) _ ?_
    | dsimp +zetaDelta only
    | with_reducible apply Keeps.mk)

theorem State.wakeCut_keeps {z s : State} (h : Keeps z s) :
    Keeps z (s.wakeCut) := by
  unfold State.wakeCut
  repeat' (first
    | with_reducible assumption
    | extract_lets
    | with_reducible apply State.setDom_keeps
    | with_reducible apply Keeps.ite
    | with_reducible refine Keeps.foldl (fun u a hu => ?_) _ ?_
    | split
    | dsimp +zetaDelta only
    | with_reducible apply Keeps.mk)

theorem State.entryStart_keeps {z s0 : State} (target : Nat) (forced low : Bool) (h : Keeps z s0) :
    Keeps z (s0.entryStart target forced low) := by
  unfold State.entryStart
  repeat' (first
    | with_reducible assumption
    | extract_lets
    | with_reducible apply State.cleanCore_keeps
    | with_reducible apply State.drainAll_keeps
    | with_reducible apply State.entryForces_keeps
    | with_reducible apply State.entryLoses_keeps
    | with_reducible apply State.preempt_keeps
    | with_reducible apply State.setFlag_keeps
    | with_reducible apply State.setReg_keeps
    | with_reducible apply State.wakeCut_keeps
    | with_reducible apply Keeps.ite
    | with_reducible refine Keeps.foldl (fun u a hu => ?_) _ ?_
    | split
    | dsimp +zetaDelta only
    | with_reducible apply Keeps.mk)

theorem State.cleanAll_keeps {z s : State} (h : Keeps z s) :
    Keeps z (s.cleanAll) := by
  unfold State.cleanAll
  repeat' (first
    | with_reducible assumption
    | extract_lets
    | with_reducible apply State.cleanCore_keeps
    | with_reducible refine Keeps.foldl (fun u a hu => ?_) _ ?_
    | dsimp +zetaDelta only)

theorem State.enterLevel_keeps {z s : State} (level : Nat) (h : Keeps z s) :
    Keeps z (s.enterLevel level) := by
  unfold State.enterLevel
  repeat' (first
    | with_reducible assumption
    | extract_lets
    | with_reducible apply State.cleanAll_keeps
    | with_reducible apply State.offDom_keeps
    | with_reducible apply State.retainDom_keeps
    | with_reducible apply State.setReg_keeps
    | with_reducible apply Keeps.ite
    | with_reducible refine Keeps.foldl (fun u a hu => ?_) _ ?_
    | split
    | dsimp +zetaDelta only
    | with_reducible apply Keeps.mk)

theorem State.demote_keeps {z s : State} (h : Keeps z s) :
    Keeps z (s.demote) := by
  unfold State.demote
  repeat' (first
    | with_reducible assumption
    | extract_lets
    | with_reducible apply State.entryLoses_keeps
    | with_reducible apply State.offDom_keeps
    | with_reducible apply State.setFlag_keeps
    | with_reducible apply State.setReg_keeps
    | with_reducible apply Keeps.ite
    | with_reducible refine Keeps.foldl (fun u a hu => ?_) _ ?_
    | split
    | dsimp +zetaDelta only)

theorem State.forceFurl_keeps {z s : State} (h : Keeps z s) :
    Keeps z (s.forceFurl) := by
  unfold State.forceFurl
  repeat' (first
    | with_reducible assumption
    | extract_lets
    | with_reducible apply State.entryStart_keeps
    | with_reducible apply Keeps.ite
    | split)

theorem State.storeLowEntry_keeps {z s : State} (h : Keeps z s) :
    Keeps z (s.storeLowEntry) := by
  unfold State.storeLowEntry
  repeat' (first
    | with_reducible assumption
    | extract_lets
    | with_reducible apply State.demote_keeps
    | with_reducible apply State.entryForces_keeps
    | with_reducible apply State.entryLoses_keeps
    | with_reducible apply State.entryStart_keeps
    | with_reducible apply Keeps.ite
    | with_reducible refine KeepsOpt.elim ?_ ?_ (fun u hu => ?_)
    | with_reducible refine Keeps.elim _ ?_ (fun a => ?_)
    | split
    | dsimp +zetaDelta only
    | with_reducible apply Keeps.mk)

theorem State.loadDomOn_keeps {z s : State} (h : Keeps z s) :
    Keeps z (s.loadDomOn) := by
  unfold State.loadDomOn
  repeat' (first
    | with_reducible assumption
    | extract_lets
    | with_reducible apply State.setReg_keeps
    | with_reducible apply State.setShadow_keeps
    | with_reducible refine Keeps.foldl (fun u a hu => ?_) _ ?_
    | dsimp +zetaDelta only)

theorem State.fullWake_keeps {z s : State} (h : Keeps z s) :
    Keeps z (s.fullWake) := by
  unfold State.fullWake
  repeat' (first
    | with_reducible assumption
    | extract_lets
    | with_reducible apply State.loadDomOn_keeps
    | with_reducible apply State.offDom_keeps
    | with_reducible apply State.onDom_keeps
    | with_reducible apply State.setReg_keeps
    | with_reducible apply Keeps.ite
    | with_reducible refine Keeps.foldl (fun u a hu => ?_) _ ?_
    | split
    | dsimp +zetaDelta only
    | with_reducible apply Keeps.mk)

theorem State.wakeEnd_keeps {z s : State} (h : Keeps z s) :
    Keeps z (s.wakeEnd) := by
  unfold State.wakeEnd
  repeat' (first
    | with_reducible assumption
    | extract_lets
    | with_reducible apply State.setReg_keeps
    | dsimp +zetaDelta only
    | with_reducible apply Keeps.mk)

theorem State.setPin_keeps {z s : State} (n : Nat) (p : Pin) (h : Keeps z s) :
    Keeps z (s.setPin n p) := by
  unfold State.setPin
  repeat' (first
    | with_reducible assumption
    | extract_lets
    | dsimp +zetaDelta only
    | with_reducible apply Keeps.mk)

theorem State.pinEvent_keeps {z s : State} (n : Nat) (h : Keeps z s) :
    Keeps z (s.pinEvent n) := by
  unfold State.pinEvent
  repeat' (first
    | with_reducible assumption
    | extract_lets
    | with_reducible apply State.halyard_keeps
    | with_reducible apply State.setReg_keeps)

theorem State.pinEdge_keeps {z s : State} (n : Nat) (level : Bool) (h : Keeps z s) :
    Keeps z (s.pinEdge n level) := by
  unfold State.pinEdge
  repeat' (first
    | with_reducible assumption
    | extract_lets
    | with_reducible apply State.halyard_keeps
    | with_reducible apply State.pinEvent_keeps
    | with_reducible apply State.setPin_keeps
    | with_reducible apply State.setReg_keeps
    | with_reducible apply Keeps.ite
    | split
    | dsimp +zetaDelta only
    | with_reducible apply Keeps.mk)

theorem State.pinReset_keeps {z s : State} (n : Nat) (h : Keeps z s) :
    Keeps z (s.pinReset n) := by
  unfold State.pinReset
  repeat' (first
    | with_reducible assumption
    | extract_lets
    | with_reducible apply State.setPin_keeps
    | with_reducible apply State.setReg_keeps)

theorem State.pinBoundary_keeps {z s : State} (h : Keeps z s) :
    Keeps z (s.pinBoundary) := by
  unfold State.pinBoundary
  repeat' (first
    | with_reducible assumption
    | extract_lets
    | dsimp +zetaDelta only
    | with_reducible apply Keeps.mk)

theorem State.startSample_keeps {z s : State} (h : Keeps z s) :
    Keeps z (s.startSample) := by
  unfold State.startSample
  repeat' (first
    | with_reducible assumption
    | extract_lets
    | with_reducible apply State.setFlag_keeps
    | with_reducible apply Keeps.ite
    | split
    | with_reducible apply Keeps.mk)

theorem State.publish_keeps {z s : State} (vstore harvested drawn cycles : Nat) (h : Keeps z s) :
    Keeps z (s.publish vstore harvested drawn cycles) := by
  unfold State.publish
  repeat' (first
    | with_reducible assumption
    | extract_lets
    | with_reducible apply State.halyard_keeps
    | with_reducible apply State.setFlag_keeps
    | with_reducible apply State.setReg_keeps
    | with_reducible apply Keeps.ite
    | with_reducible refine Keeps.foldl (fun u a hu => ?_) _ ?_
    | split
    | dsimp +zetaDelta only
    | with_reducible apply Keeps.mk)

theorem State.letGo15_keeps {z s : State} (h : Keeps z s) :
    Keeps z (s.letGo15) := by
  unfold State.letGo15
  repeat' (first
    | with_reducible assumption
    | extract_lets
    | with_reducible apply State.offDomHeld_keeps
    | with_reducible apply Keeps.ite
    | split
    | dsimp +zetaDelta only
    | with_reducible apply Keeps.mk)

theorem State.sourceToXt1_keeps {z s : State} (h : Keeps z s) :
    Keeps z (s.sourceToXt1) := by
  unfold State.sourceToXt1
  repeat' (first
    | with_reducible assumption
    | extract_lets
    | with_reducible apply State.setFlag_keeps
    | with_reducible apply Keeps.ite
    | split)

theorem State.setAct_keeps {z s : State} (h : Keeps z s) :
    Keeps z (s.setAct) := by
  unfold State.setAct
  repeat' (first
    | with_reducible assumption
    | extract_lets
    | with_reducible apply State.setFlag_keeps
    | dsimp +zetaDelta only)

theorem State.harvEn_keeps {z s : State} (b was now : Bool) (h : Keeps z s) :
    Keeps z (s.harvEn b was now) := by
  unfold State.harvEn
  repeat' (first
    | with_reducible assumption
    | extract_lets
    | with_reducible apply State.setAct_keeps
    | with_reducible apply State.setFlag_keeps
    | with_reducible apply Keeps.ite
    | split
    | dsimp +zetaDelta only
    | with_reducible apply Keeps.mk)

theorem State.lowEnds_keeps {z s : State} (h : Keeps z s) :
    Keeps z (s.lowEnds) := by
  unfold State.lowEnds
  repeat' (first
    | with_reducible assumption
    | extract_lets
    | with_reducible apply State.setFlag_keeps
    | with_reducible apply Keeps.mk)

theorem State.powerLost_keeps {z s : State} (h : Keeps z s) : Keeps z s.powerLost :=
  ⟨h.1, fun c => by
    have := h.2 c; simp only [State.canonical, Bool.and_eq_true] at this ⊢
    exact ⟨Tab.wf_keep memDefault (fun a : Nat => decide (0x20000000 ≤ a ∧ a < 0x24000000) ||
        decide (0x01000000 ≤ a ∧ a < 0x01800000)) s.mem this.1,
      Tab.wf_keep regReset (fun k : Nat => decide (0x40003000 ≤ keyAddr k ∧ keyAddr k < 0x40004000) ||
        keyAddr k == 0x40001014) s.regs this.2⟩⟩

theorem State.resetThresholds_keeps {z s : State} (h : Keeps z s) :
    Keeps z (s.resetThresholds) := by
  unfold State.resetThresholds
  repeat' (first
    | with_reducible assumption
    | extract_lets
    | with_reducible apply State.setReg_keeps)

theorem State.forceFirc_keeps {z s : State} (h : Keeps z s) :
    Keeps z (s.forceFirc) := by
  unfold State.forceFirc
  repeat' (first
    | with_reducible assumption
    | extract_lets
    | with_reducible apply State.setFlag_keeps
    | with_reducible apply State.setReg_keeps)

theorem State.clkEvent_keeps {z s : State} (b : Nat) (h : Keeps z s) :
    Keeps z (s.clkEvent b) := by
  unfold State.clkEvent
  repeat' (first
    | with_reducible assumption
    | extract_lets
    | with_reducible apply State.raise_keeps
    | with_reducible apply State.setFlag_keeps)

theorem State.unanchor_keeps {z s : State} (s0 : State) (h : Keeps z s) :
    Keeps z (State.unanchor s0 s) := by
  unfold State.unanchor
  repeat' (first
    | with_reducible assumption
    | extract_lets
    | with_reducible apply State.setFlag_keeps
    | with_reducible apply Keeps.ite
    | split
    | dsimp +zetaDelta only)

theorem State.pllLoss_keeps {z s : State} (p : Nat) (h : Keeps z s) :
    Keeps z (s.pllLoss p) := by
  unfold State.pllLoss
  repeat' (first
    | with_reducible assumption
    | extract_lets
    | with_reducible apply State.clkEvent_keeps
    | with_reducible apply State.setFlag_keeps
    | with_reducible apply State.setReg_keeps
    | with_reducible apply Keeps.ite
    | split
    | dsimp +zetaDelta only)

theorem State.fmStart_keeps {z s : State} (h : Keeps z s) :
    Keeps z (s.fmStart) := by
  unfold State.fmStart
  repeat' (first
    | with_reducible assumption
    | extract_lets
    | with_reducible apply State.setFlag_keeps
    | with_reducible apply State.setReg_keeps)

theorem State.acquire_keeps {z s : State} (e : Int) (per : Nat) (h : Keeps z s) :
    Keeps z (s.acquire e per) := by
  unfold State.acquire
  repeat' (first
    | with_reducible assumption
    | extract_lets
    | with_reducible apply State.setFlag_keeps
    | with_reducible apply State.setReg_keeps
    | dsimp +zetaDelta only
    | with_reducible apply Keeps.mk)

theorem State.correct_keeps {z s : State} (e : Int) (per : Nat) (h : Keeps z s) :
    Keeps z (s.correct e per) := by
  unfold State.correct
  repeat' (first
    | with_reducible assumption
    | extract_lets
    | with_reducible apply State.count_keeps
    | with_reducible apply State.setFlag_keeps
    | with_reducible apply State.setReg_keeps
    | with_reducible apply Keeps.ite
    | split
    | dsimp +zetaDelta only
    | with_reducible apply Keeps.mk)

theorem State.takeBeacon_keeps {z s : State} (bs : List Byte) (h : Keeps z s) :
    Keeps z (s.takeBeacon bs) := by
  unfold State.takeBeacon
  repeat' (first
    | with_reducible assumption
    | extract_lets
    | with_reducible apply State.setFlag_keeps
    | with_reducible apply State.setReg_keeps
    | dsimp +zetaDelta only)

theorem State.judgeBeacon_keeps {z s : State} (bs : List Byte) (e : Int) (per : Nat) (h : Keeps z s) :
    Keeps z (s.judgeBeacon bs e per) := by
  unfold State.judgeBeacon
  repeat' (first
    | with_reducible assumption
    | extract_lets
    | with_reducible apply State.acquire_keeps
    | with_reducible apply State.correct_keeps
    | with_reducible apply State.frameAccepted_keeps
    | with_reducible apply State.setFlag_keeps
    | with_reducible apply State.takeBeacon_keeps
    | with_reducible apply Keeps.ite
    | split
    | dsimp +zetaDelta only
    | with_reducible apply Keeps.mk)

theorem State.zero_keeps {z s : State} (ks : List Key) (h : Keeps z s) :
    Keeps z (s.zero ks) := by
  unfold State.zero
  repeat' (first
    | with_reducible assumption
    | extract_lets
    | with_reducible apply State.setReg_keeps
    | with_reducible refine Keeps.foldl (fun u a hu => ?_) _ ?_
    | dsimp +zetaDelta only)

theorem State.pmuAct_keeps {z s : State} (o : Nat) (ws : List (Key × Nat)) (h : Keeps z s) :
    Keeps z (s.pmuAct o ws) := by
  unfold State.pmuAct
  repeat' (first
    | with_reducible assumption
    | extract_lets
    | with_reducible apply State.reefReq_keeps
    | with_reducible refine KeepsOpt.getD ?_ ?_
    | with_reducible apply KeepsOpt.some
    | with_reducible apply KeepsOpt.ite
    | with_reducible refine KeepsOpt.map ?_ (fun u hu => ?_)
    | with_reducible apply Keeps.ite
    | with_reducible refine KeepsOpt.elim ?_ ?_ (fun u hu => ?_)
    | with_reducible refine Keeps.elim _ ?_ (fun a => ?_)
    | split
    | dsimp +zetaDelta only
    | with_reducible apply Keeps.mk)

theorem State.harvAct_keeps {z s : State} (s0 : State) (o : Nat) (ws : List (Key × Nat)) (h : Keeps z s) :
    Keeps z (State.harvAct s0 s o ws) := by
  unfold State.harvAct
  repeat' (first
    | with_reducible assumption
    | extract_lets
    | with_reducible apply State.harvEn_keeps
    | with_reducible apply Keeps.ite
    | with_reducible refine Keeps.foldl (fun u a hu => ?_) _ ?_
    | with_reducible refine KeepsOpt.elim ?_ ?_ (fun u hu => ?_)
    | with_reducible refine Keeps.elim _ ?_ (fun a => ?_)
    | split
    | dsimp +zetaDelta only)

theorem State.rtcAct_keeps {z s : State} (o : Nat) (ws : List (Key × Nat)) (h : Keeps z s) :
    Keeps z (s.rtcAct o ws) := by
  unfold State.rtcAct
  repeat' (first
    | with_reducible assumption
    | extract_lets
    | with_reducible apply State.rtcCapture_keeps
    | with_reducible apply State.rtcLoad_keeps
    | with_reducible apply Keeps.ite
    | split
    | dsimp +zetaDelta only)

theorem State.wakeAct_keeps {z s : State} (o : Nat) (ws : List (Key × Nat)) (h : Keeps z s) :
    Keeps z (s.wakeAct o ws) := by
  unfold State.wakeAct
  repeat' (first
    | with_reducible assumption
    | extract_lets
    | with_reducible apply State.pinReset_keeps
    | with_reducible apply Keeps.ite
    | split)

theorem State.clkAct_keeps {z s : State} (o : Nat) (ws : List (Key × Nat)) (h : Keeps z s) :
    Keeps z (s.clkAct o ws) := by
  unfold State.clkAct
  repeat' (first
    | with_reducible assumption
    | extract_lets
    | with_reducible apply State.fmStart_keeps
    | with_reducible apply Keeps.ite
    | split)

theorem State.frameAct_keeps {z s : State} (o : Nat) (ws : List (Key × Nat)) (h : Keeps z s) :
    Keeps z (s.frameAct o ws) := by
  unfold State.frameAct
  repeat' (first
    | with_reducible assumption
    | extract_lets
    | with_reducible apply State.unanchor_keeps
    | with_reducible apply State.zero_keeps
    | with_reducible apply Keeps.ite
    | split
    | dsimp +zetaDelta only)

theorem State.arbAct_keeps {z s : State} (o : Nat) (ws : List (Key × Nat)) (h : Keeps z s) :
    Keeps z (s.arbAct o ws) := by
  unfold State.arbAct
  repeat' (first
    | with_reducible assumption
    | extract_lets
    | with_reducible apply State.zero_keeps
    | with_reducible apply Keeps.ite
    | split
    | dsimp +zetaDelta only)

theorem State.lockAct_keeps {z s : State} (o : Nat) (ws : List (Key × Nat)) (h : Keeps z s) :
    Keeps z (s.lockAct o ws) := by
  unfold State.lockAct
  repeat' (first
    | with_reducible assumption
    | extract_lets
    | with_reducible apply State.zero_keeps
    | with_reducible apply Keeps.ite
    | split)

theorem State.memctlAct_keeps {z s : State} (o : Nat) (ws : List (Key × Nat)) (h : Keeps z s) :
    Keeps z (s.memctlAct o ws) := by
  unfold State.memctlAct
  repeat' (first
    | with_reducible assumption
    | extract_lets
    | with_reducible apply State.zero_keeps
    | with_reducible apply Keeps.ite
    | split
    | dsimp +zetaDelta only)

theorem State.catAct_keeps {z s : State} (o : Nat) (ws : List (Key × Nat)) (h : Keeps z s) :
    Keeps z (s.catAct o ws) := by
  unfold State.catAct
  repeat' (first
    | with_reducible assumption
    | extract_lets
    | with_reducible apply State.zero_keeps
    | with_reducible apply Keeps.ite
    | split)

theorem State.norAct_keeps {z s : State} (o : Nat) (ws : List (Key × Nat)) (h : Keeps z s) :
    Keeps z (s.norAct o ws) := by
  unfold State.norAct
  repeat' (first
    | with_reducible assumption
    | extract_lets
    | with_reducible apply State.norStart_keeps
    | with_reducible apply Keeps.ite
    | with_reducible refine KeepsOpt.elim ?_ ?_ (fun u hu => ?_)
    | with_reducible refine Keeps.elim _ ?_ (fun a => ?_)
    | split
    | dsimp +zetaDelta only
    | with_reducible apply Keeps.mk)

theorem State.spineAct_keeps {z s : State} (o : Nat) (ws : List (Key × Nat)) (h : Keeps z s) :
    Keeps z (s.spineAct o ws) := by
  unfold State.spineAct
  repeat' (first
    | with_reducible assumption
    | extract_lets
    | with_reducible apply State.setFlag_keeps
    | with_reducible apply State.zero_keeps
    | with_reducible apply Keeps.ite
    | split
    | dsimp +zetaDelta only
    | with_reducible apply Keeps.mk)

theorem State.probeAct_keeps {z s : State} (o : Nat) (ws : List (Key × Nat)) (h : Keeps z s) :
    Keeps z (s.probeAct o ws) := by
  unfold State.probeAct
  repeat' (first
    | with_reducible assumption
    | extract_lets
    | with_reducible apply State.chunkDrop_keeps
    | with_reducible apply State.rptPost_keeps
    | with_reducible apply State.setFlag_keeps
    | with_reducible apply State.zero_keeps
    | with_reducible apply Keeps.ite
    | with_reducible refine KeepsOpt.elim ?_ ?_ (fun u hu => ?_)
    | with_reducible refine Keeps.elim _ ?_ (fun a => ?_)
    | split
    | dsimp +zetaDelta only
    | with_reducible apply Keeps.mk)

theorem State.dmaAct_keeps {z s : State} (core o : Nat) (ws : List (Key × Nat)) (h : Keeps z s) :
    Keeps z (s.dmaAct core o ws) := by
  unfold State.dmaAct
  repeat' (first
    | with_reducible assumption
    | extract_lets
    | with_reducible apply State.dmaGo_keeps
    | with_reducible apply State.zero_keeps
    | with_reducible apply Keeps.ite
    | split)

theorem State.sfuAct_keeps {z s : State} (o : Nat) (ws : List (Key × Nat)) (h : Keeps z s) :
    Keeps z (s.sfuAct o ws) := by
  unfold State.sfuAct
  repeat' (first
    | with_reducible assumption
    | extract_lets
    | with_reducible apply State.zero_keeps
    | with_reducible apply Keeps.ite
    | split)

theorem State.adcAct_keeps {z s : State} (s0 : State) (o : Nat) (ws : List (Key × Nat)) (h : Keeps z s) :
    Keeps z (State.adcAct s0 s o ws) := by
  unfold State.adcAct
  repeat' (first
    | with_reducible assumption
    | extract_lets
    | with_reducible apply State.convEnable_keeps
    | with_reducible apply State.setReg_keeps
    | with_reducible apply State.zero_keeps
    | with_reducible apply Keeps.ite
    | with_reducible refine KeepsOpt.elim ?_ ?_ (fun u hu => ?_)
    | with_reducible refine Keeps.elim _ ?_ (fun a => ?_)
    | split
    | dsimp +zetaDelta only
    | with_reducible apply Keeps.mk)

theorem State.xramAct_keeps {z s : State} (o : Nat) (ws : List (Key × Nat)) (h : Keeps z s) :
    Keeps z (s.xramAct o ws) := by
  unfold State.xramAct
  repeat' (first
    | with_reducible assumption
    | extract_lets
    | with_reducible apply State.zero_keeps
    | with_reducible apply Keeps.ite
    | split)

theorem State.gpioAct_keeps {z s : State} (o : Nat) (ws : List (Key × Nat)) (h : Keeps z s) :
    Keeps z (s.gpioAct o ws) := by
  unfold State.gpioAct
  repeat' (first
    | with_reducible assumption
    | extract_lets
    | with_reducible apply Keeps.ite
    | with_reducible refine KeepsOpt.elim ?_ ?_ (fun u hu => ?_)
    | with_reducible refine Keeps.elim _ ?_ (fun a => ?_)
    | split
    | dsimp +zetaDelta only
    | with_reducible apply Keeps.mk)

theorem State.consAct_keeps {z s : State} (s0 : State) (o : Nat) (h : Keeps z s) :
    Keeps z (State.consAct s0 s o) := by
  unfold State.consAct
  repeat' (first
    | with_reducible assumption
    | extract_lets
    | with_reducible apply Keeps.ite
    | split
    | dsimp +zetaDelta only
    | with_reducible apply Keeps.mk)

theorem State.errDone_keeps {z s : State} (h : Keeps z s) :
    Keeps z (s.errDone) := by
  unfold State.errDone
  repeat' (first
    | with_reducible assumption
    | extract_lets
    | with_reducible apply State.errKick_keeps
    | with_reducible refine KeepsOpt.getD ?_ ?_
    | with_reducible apply KeepsOpt.some
    | with_reducible apply KeepsOpt.ite
    | with_reducible refine KeepsOpt.map ?_ (fun u hu => ?_)
    | with_reducible apply Keeps.ite
    | with_reducible refine KeepsOpt.elim ?_ ?_ (fun u hu => ?_)
    | with_reducible refine Keeps.elim _ ?_ (fun a => ?_)
    | split
    | dsimp +zetaDelta only
    | with_reducible apply Keeps.mk)

theorem State.errAct_keeps {z s : State} (o : Nat) (ws : List (Key × Nat)) (h : Keeps z s) :
    Keeps z (s.errAct o ws) := by
  unfold State.errAct
  repeat' (first
    | with_reducible assumption
    | extract_lets
    | with_reducible apply State.errDone_keeps
    | with_reducible apply State.errKick_keeps
    | with_reducible apply State.setReg_keeps
    | with_reducible apply Keeps.ite
    | with_reducible refine KeepsOpt.elim ?_ ?_ (fun u hu => ?_)
    | with_reducible refine Keeps.elim _ ?_ (fun a => ?_)
    | split
    | dsimp +zetaDelta only
    | with_reducible apply Keeps.mk)

theorem State.tenGo_keeps {z s : State} (t cause : Nat) (h : Keeps z s) :
    Keeps z (s.tenGo t cause) := by
  unfold State.tenGo
  repeat' (first
    | with_reducible assumption
    | extract_lets
    | with_reducible apply State.resetStart_keeps
    | with_reducible apply State.setFlag_keeps
    | with_reducible apply State.settle_keeps
    | with_reducible apply Keeps.ite
    | split)

theorem State.tenAct_keeps {z s : State} (o : Nat) (ws : List (Key × Nat)) (h : Keeps z s) :
    Keeps z (s.tenAct o ws) := by
  unfold State.tenAct
  repeat' (first
    | with_reducible assumption
    | extract_lets
    | with_reducible apply State.postEvent_keeps
    | with_reducible apply State.tenGo_keeps
    | with_reducible refine KeepsOpt.getD ?_ ?_
    | with_reducible apply KeepsOpt.ite
    | with_reducible refine KeepsOpt.map ?_ (fun u hu => ?_)
    | with_reducible apply Keeps.ite
    | with_reducible refine KeepsOpt.elim ?_ ?_ (fun u hu => ?_)
    | with_reducible refine Keeps.elim _ ?_ (fun a => ?_)
    | split
    | with_reducible apply Keeps.mk)

theorem State.cryptAct_keeps {z s : State} (o : Nat) (ws : List (Key × Nat)) (h : Keeps z s) :
    Keeps z (s.cryptAct o ws) := by
  unfold State.cryptAct
  repeat' (first
    | with_reducible assumption
    | extract_lets
    | with_reducible apply State.bufWrite_keeps
    | with_reducible apply State.cryptCmd_keeps
    | with_reducible apply State.kekWrite_keeps
    | with_reducible apply State.setReg_keeps
    | with_reducible apply State.zero_keeps
    | with_reducible refine KeepsOpt.getD ?_ ?_
    | with_reducible apply KeepsOpt.ite
    | with_reducible refine KeepsOpt.map ?_ (fun u hu => ?_)
    | with_reducible apply Keeps.ite
    | with_reducible refine KeepsOpt.elim ?_ ?_ (fun u hu => ?_)
    | with_reducible refine Keeps.elim _ ?_ (fun a => ?_)
    | split
    | dsimp +zetaDelta only)

theorem State.bayAct_keeps {z s : State} (o : Nat) (ws : List (Key × Nat)) (h : Keeps z s) :
    Keeps z (s.bayAct o ws) := by
  unfold State.bayAct
  repeat' (first
    | with_reducible assumption
    | extract_lets
    | with_reducible apply State.bayDisable_keeps
    | with_reducible apply State.bayRestart_keeps
    | with_reducible apply State.setBayCh_keeps
    | with_reducible refine KeepsOpt.getD ?_ ?_
    | with_reducible apply KeepsOpt.some
    | with_reducible apply KeepsOpt.ite
    | with_reducible refine KeepsOpt.map ?_ (fun u hu => ?_)
    | with_reducible apply Keeps.ite
    | split
    | dsimp +zetaDelta only
    | with_reducible apply Keeps.mk)

theorem State.bayuAct_keeps {z s : State} (o : Nat) (ws : List (Key × Nat)) (h : Keeps z s) :
    Keeps z (s.bayuAct o ws) := by
  unfold State.bayuAct
  repeat' (first
    | with_reducible assumption
    | extract_lets
    | with_reducible apply State.portEnable_keeps
    | with_reducible apply State.portTx_keeps
    | with_reducible apply State.zero_keeps
    | with_reducible apply Keeps.ite
    | with_reducible refine KeepsOpt.elim ?_ ?_ (fun u hu => ?_)
    | with_reducible refine Keeps.elim _ ?_ (fun a => ?_)
    | split
    | dsimp +zetaDelta only
    | with_reducible apply Keeps.mk)

theorem State.coreAct_keeps {z s : State} (base : Nat) (o : Nat) (ws : List (Key × Nat)) (h : Keeps z s) :
    Keeps z (s.coreAct base o ws) := by
  unfold State.coreAct
  repeat' (first
    | with_reducible assumption
    | extract_lets
    | with_reducible apply State.zero_keeps
    | with_reducible apply Keeps.ite
    | with_reducible refine KeepsOpt.elim ?_ ?_ (fun u hu => ?_)
    | with_reducible refine Keeps.elim _ ?_ (fun a => ?_)
    | split
    | dsimp +zetaDelta only
    | with_reducible apply Keeps.mk)

theorem State.blockAct_keeps {z s : State} (s0 : State) (core b o : Nat) (ws : List (Key × Nat)) (h : Keeps z s) :
    Keeps z (State.blockAct s0 s core b o ws) := by
  unfold State.blockAct
  repeat' (first
    | with_reducible assumption
    | extract_lets
    | with_reducible apply State.adcAct_keeps
    | with_reducible apply State.arbAct_keeps
    | with_reducible apply State.bayAct_keeps
    | with_reducible apply State.bayuAct_keeps
    | with_reducible apply State.catAct_keeps
    | with_reducible apply State.clkAct_keeps
    | with_reducible apply State.consAct_keeps
    | with_reducible apply State.coreAct_keeps
    | with_reducible apply State.cryptAct_keeps
    | with_reducible apply State.dmaAct_keeps
    | with_reducible apply State.errAct_keeps
    | with_reducible apply State.frameAct_keeps
    | with_reducible apply State.gpioAct_keeps
    | with_reducible apply State.harvAct_keeps
    | with_reducible apply State.lockAct_keeps
    | with_reducible apply State.memctlAct_keeps
    | with_reducible apply State.norAct_keeps
    | with_reducible apply State.pmuAct_keeps
    | with_reducible apply State.probeAct_keeps
    | with_reducible apply State.rtcAct_keeps
    | with_reducible apply State.sfuAct_keeps
    | with_reducible apply State.spineAct_keeps
    | with_reducible apply State.tenAct_keeps
    | with_reducible apply State.wakeAct_keeps
    | with_reducible apply State.xramAct_keeps
    | with_reducible apply Keeps.ite
    | split
    | with_reducible apply Keeps.mk)

theorem State.applyField_keeps {z s : State} (w : Key × Nat) (h : Keeps z s) :
    Keeps z (s.applyField w) := by
  unfold State.applyField
  repeat' (first
    | with_reducible assumption
    | extract_lets
    | with_reducible apply State.setReg_keeps
    | with_reducible apply State.setShadow_keeps
    | with_reducible apply Keeps.ite
    | split
    | dsimp +zetaDelta only
    | with_reducible apply Keeps.mk)

theorem State.takeWrite_keeps {z s : State} (core b addr : Nat) (ws : List (Key × Nat)) (h : Keeps z s) :
    Keeps z (s.takeWrite core b addr ws) := by
  unfold State.takeWrite
  repeat' (first
    | with_reducible assumption
    | extract_lets
    | with_reducible apply State.applyField_keeps
    | with_reducible apply State.blockAct_keeps
    | with_reducible refine Keeps.foldl (fun u a hu => ?_) _ ?_)

theorem State.discard_keeps {z s : State} (b : Nat) (h : Keeps z s) :
    Keeps z (s.discard b) := by
  unfold State.discard
  repeat' (first
    | with_reducible assumption
    | extract_lets
    | with_reducible apply State.setFlag_keeps
    | with_reducible apply Keeps.ite
    | split
    | dsimp +zetaDelta only
    | with_reducible apply Keeps.mk)

theorem State.ctrlWrite_keeps {z s : State} (b v : Nat) (h : Keeps z s) :
    Keeps z (s.ctrlWrite b v) := by
  unfold State.ctrlWrite
  repeat' (first
    | with_reducible assumption
    | extract_lets
    | with_reducible apply State.discard_keeps
    | with_reducible apply State.setReg_keeps
    | with_reducible apply Keeps.ite
    | split
    | dsimp +zetaDelta only)

theorem State.crossOne_keeps {z s : State} (b : Nat) (h : Keeps z s) :
    Keeps z (s.crossOne b) := by
  unfold State.crossOne
  repeat' (first
    | with_reducible assumption
    | extract_lets
    | with_reducible apply State.ctrlWrite_keeps
    | with_reducible apply State.takeWrite_keeps
    | with_reducible refine KeepsOpt.getD ?_ ?_
    | with_reducible apply KeepsOpt.some
    | with_reducible apply KeepsOpt.ite
    | with_reducible refine KeepsOpt.map ?_ (fun u hu => ?_)
    | with_reducible apply Keeps.ite
    | split
    | dsimp +zetaDelta only
    | with_reducible apply Keeps.mk)

theorem State.flushXt1_keeps {z s : State} (b : Nat) (h : Keeps z s) :
    Keeps z (s.flushXt1 b) := by
  unfold State.flushXt1
  repeat' (first
    | with_reducible assumption
    | extract_lets
    | with_reducible apply State.crossOne_keeps
    | with_reducible refine Keeps.foldl (fun u a hu => ?_) _ ?_
    | dsimp +zetaDelta only)

theorem State.commonWrite_keeps {z s : State} (b a v : Nat) (h : Keeps z s) :
    KeepsOpt z (s.commonWrite b a v) := by
  unfold State.commonWrite
  repeat' (first
    | with_reducible assumption
    | extract_lets
    | with_reducible apply State.ctrlWrite_keeps
    | with_reducible apply State.setRing_keeps
    | with_reducible apply KeepsOpt.none
    | with_reducible apply KeepsOpt.some
    | with_reducible apply KeepsOpt.ite
    | with_reducible apply Keeps.ite
    | split
    | dsimp +zetaDelta only
    | with_reducible apply Keeps.mk)

theorem State.reportAll_keeps {z s : State} (b : Nat) (es : List Nat) (h : Keeps z s) :
    Keeps z (s.reportAll b es) := by
  unfold State.reportAll
  repeat' (first
    | with_reducible assumption
    | extract_lets
    | with_reducible apply State.report_keeps
    | with_reducible refine Keeps.foldl (fun u a hu => ?_) _ ?_
    | dsimp +zetaDelta only)

theorem State.busWriteMask_keeps {z s : State} (core addr v mask : Nat) (h : Keeps z s) :
    Keeps z (s.busWriteMask core addr v mask) := by
  unfold State.busWriteMask
  extract_lets a
  split
  · exact h
  · split
    · exact h
    · have hc := State.commonWrite_keeps ‹Nat› a (v &&& mask) h
      split
      · exact hc _ ‹_›
      · have hr := fun b es => State.reportAll_keeps b es h
        dsimp only
        split
        · split
          · exact hr _ _
          · exact Keeps.mk (hr _ _)
        · exact Keeps.ite (State.takeWrite_keeps _ _ _ _ (hr _ _)) (hr _ _)

theorem State.busWrite_keeps {z s : State} (core addr v : Nat) (h : Keeps z s) :
    Keeps z (s.busWrite core addr v) := by
  unfold State.busWrite
  repeat' (first
    | with_reducible assumption
    | extract_lets
    | with_reducible apply State.busWriteMask_keeps)

theorem State.busRead_keeps {z s : State} (core addr : Nat) (h : Keeps z s) :
    Keeps z (s.busRead core addr).2 := by
  unfold State.busRead
  repeat' (first
    | with_reducible assumption
    | extract_lets
    | with_reducible apply State.flushXt1_keeps
    | with_reducible apply State.freeBits_keeps
    | with_reducible apply State.portRx_keeps
    | with_reducible apply Keeps.ite
    | split
    | dsimp +zetaDelta only
    | with_reducible apply Keeps.mk)

theorem State.regCommand_keeps {z s : State} (addr v : Nat) (h : Keeps z s) :
    Keeps z (s.regCommand addr v) := by
  unfold State.regCommand
  repeat' (first
    | with_reducible assumption
    | extract_lets
    | with_reducible apply State.busWrite_keeps
    | with_reducible apply State.flushXt1_keeps
    | with_reducible apply Keeps.ite
    | split
    | dsimp +zetaDelta only
    | with_reducible apply Keeps.mk)

end Sys2Proof.Machine
end

