-- ==== Sys2Proof/Laws/KeepsCores.lean ====
section
/-! SUPPORT. What the accesses of the cores keep (see Keeps.lean). -/
namespace Sys2Proof.Machine

/-- What a load keeps, however it ends. -/
def KeepsLd (s : State) : LdRes → Prop
  | .data _ t | .fault _ t | .lock t => Keeps s t
  | .wait => True

/-- What an instruction's own work keeps, however it ends. -/
def KeepsEx (s : State) : Ex → Prop
  | .fin t | .trap _ _ _ t => Keeps s t
  | .wait => True

theorem KeepsLd.data {z t : State} {v : Nat} (h : Keeps z t) : KeepsLd z (.data v t) := h
theorem KeepsLd.ite {z : State} {c : Prop} [Decidable c] {p q : LdRes} (hp : KeepsLd z p) (hq : KeepsLd z q) :
    KeepsLd z (if c then p else q) := by
  split
  · exact hp
  · exact hq

theorem State.rsvd_keeps {z s : State} (h : Keeps z s) : KeepsEx z s.rsvd := h

theorem State.fin_keeps {z s : State} (c : Nat) (f : Core → Core) (h : Keeps z s) : KeepsEx z (s.fin c f) :=
  State.setCore_keeps _ _ h

theorem State.storeReg_keeps {z s : State} (c a n v : Nat) (h : Keeps z s) :
    Keeps z (s.storeReg c a n v) := by
  unfold State.storeReg
  repeat' (first
    | with_reducible assumption
    | extract_lets
    | with_reducible apply State.busWrite_keeps
    | with_reducible apply State.busWriteMask_keeps
    | with_reducible apply Keeps.ite
    | split)

theorem State.storeCleat_keeps {z s : State} (c : Nat) (e : SbEnt) (h : Keeps z s) :
    Keeps z (s.storeCleat c e) := by
  unfold State.storeCleat
  repeat' (first
    | with_reducible assumption
    | extract_lets
    | with_reducible apply State.cleatStore_keeps
    | with_reducible apply State.lockErr_keeps
    | with_reducible apply State.storeErr_keeps
    | with_reducible apply Keeps.ite
    | split
    | dsimp +zetaDelta only)

theorem State.drainEntry_keeps {z s : State} (c : Nat) (e : SbEnt) (h : Keeps z s) :
    KeepsOpt z (s.drainEntry c e) := by
  unfold State.drainEntry
  repeat' (first
    | with_reducible assumption
    | extract_lets
    | with_reducible apply State.drainEnt_keeps
    | with_reducible apply State.storeCleat_keeps
    | with_reducible apply State.storeErr_keeps
    | with_reducible apply State.storeReg_keeps
    | with_reducible apply KeepsOpt.none
    | with_reducible apply KeepsOpt.some
    | with_reducible apply KeepsOpt.ite
    | with_reducible apply Keeps.ite
    | split
    | with_reducible apply Keeps.mk)

theorem State.drainOne_keeps {z s : State} (c : Nat) (h : Keeps z s) :
    KeepsOpt z (s.drainOne c) := by
  unfold State.drainOne
  repeat' (first
    | with_reducible assumption
    | extract_lets
    | with_reducible apply State.drainEntry_keeps
    | with_reducible apply State.setCore_keeps
    | with_reducible apply KeepsOpt.none
    | with_reducible apply KeepsOpt.some
    | with_reducible refine KeepsOpt.map ?_ (fun u hu => ?_)
    | split
    | dsimp +zetaDelta only
    | with_reducible apply Keeps.mk)

theorem State.drainFirst_keeps {z s : State} (c n : Nat) (h : Keeps z s) : KeepsOpt z (s.drainFirst c n) := by
  induction n generalizing s with
  | zero => exact .some h
  | succ n ih => exact .bind (State.drainOne_keeps c h) (fun t ht => ih ht)

theorem State.drained_keeps {z s : State} (c : Nat) (h : Keeps z s) :
    KeepsOpt z (s.drained c) := by
  unfold State.drained
  repeat' (first
    | with_reducible assumption
    | extract_lets
    | with_reducible apply State.drainFirst_keeps
    | with_reducible apply KeepsOpt.none
    | with_reducible apply KeepsOpt.some)

theorem State.drainForeign_keeps {z s : State} (c : Nat) (h : Keeps z s) :
    KeepsOpt z (s.drainForeign c) := by
  unfold State.drainForeign
  repeat' (first
    | with_reducible assumption
    | extract_lets
    | with_reducible apply State.drainFirst_keeps
    | with_reducible apply KeepsOpt.none
    | with_reducible apply KeepsOpt.some
    | dsimp +zetaDelta only)

theorem State.loadCat_keeps {z s : State} (c a n : Nat) (h : Keeps z s) : KeepsLd z (s.loadCat c a n) := by
  have hr := State.catRead_keeps (s.coreReq c) ((a - 0x20000000) / 8 * 8) h
  unfold State.loadCat
  dsimp only
  generalize s.catRead (s.coreReq c) ((a - 0x20000000) / 8 * 8) = q at hr ⊢
  split
  · exact hr
  · exact hr
  · exact hr
  · trivial

theorem State.loadReg_keeps {z s : State} (c a n : Nat) (h : Keeps z s) : KeepsLd z (s.loadReg c a n) := by
  unfold State.loadReg
  dsimp only
  split
  · exact State.busRead_keeps _ _ (State.busRead_keeps _ _ h)
  · exact State.busRead_keeps _ _ h

theorem State.loadCleat_keeps {z s : State} (c a n : Nat) (h : Keeps z s) : KeepsLd z (s.loadCleat c a n) := by
  unfold State.loadCleat
  extract_lets o
  split
  · have hr := State.cleatLoad_keeps (o / 16) (o % 16 / 4) (s.ctxOf c) (s.core c).tmode h
    generalize s.cleatLoad (o / 16) (o % 16 / 4) (s.ctxOf c) (s.core c).tmode = q at hr ⊢
    split <;> exact hr
  · exact State.lockErr_keeps h

theorem State.loadMem_keeps {z s : State} (c : Nat) (sg : Seg) (a n : Nat) (h : Keeps z s) :
    KeepsLd z (s.loadMem c sg a n) := by
  unfold State.loadMem
  split
  · exact h
  · split
    · split
      · exact State.setCore_keeps _ _ h
      · exact h
      · split
        · split
          · trivial
          · exact State.install_keeps _ _ (State.norRead_keeps _ _ h)
        · exact State.readMiss_keeps _ _ h
    · split
      · exact State.loadCat_keeps _ _ _ h
      · exact State.loadReg_keeps _ _ _ h
      · exact State.loadCleat_keeps _ _ _ h
      · exact State.tableBytes_keeps _ _ h
      · split
        · trivial
        · exact State.norRead_keeps _ _ h
      · exact State.ncRead_keeps _ _ h

theorem State.load_keeps {z s : State} (c : Nat) (sg : Seg) (a n : Nat) (h : Keeps z s) : KeepsLd z (s.load c sg a n) := by
  unfold State.load
  have hd := State.drained_keeps c h
  have hf := fun n => State.drainFirst_keeps c n h
  refine .ite ?_ ?_
  · generalize s.drained c = q at hd ⊢
    cases q with
    | none => trivial
    | some t => exact State.loadMem_keeps _ _ _ _ (hd _ rfl)
  · generalize sbOverlap (s.core c).sb a n = l
    cases l with
    | nil => exact State.loadMem_keeps _ _ _ _ h
    | cons e l =>
      refine .ite (State.count_keeps _ _ _ h) ?_
      have hg := hf ((List.map (fun x => x.1) (e :: l)).foldl max 0 + 1)
      generalize s.drainFirst c ((List.map (fun x => x.1) (e :: l)).foldl max 0 + 1) = q at hg ⊢
      cases q with
      | none => trivial
      | some t => exact State.loadMem_keeps _ _ _ _ (State.count_keeps _ _ _ (hg _ rfl))

theorem State.loadDwords_keeps {z s : State} (c : Nat) (sg : Seg) (a n : Nat) (h : Keeps z s) :
    KeepsLd z (s.loadDwords c sg a n) := by
  induction n generalizing s a with
  | zero => exact h
  | succ n ih =>
    have h1 := State.load_keeps c sg a 8 h
    unfold State.loadDwords
    generalize s.load c sg a 8 = q at h1 ⊢
    cases q with
    | data v s1 =>
      have h2 := ih (a + 8) h1
      dsimp only
      generalize s1.loadDwords c sg (a + 8) n = r at h2 ⊢
      cases r with
      | data w t => exact KeepsLd.data (v := v + w * 2 ^ 64) h2
      | _ => exact h2
    | _ => exact h1

theorem State.loadOp_keeps {z s : State} (c seg : Nat) (off : Word) (n rd : Nat) (f : Nat → Core → Core) (h : Keeps z s) :
    KeepsEx z (s.loadOp c seg off n rd f) := by
  unfold State.loadOp
  split
  · exact h
  · rename_i sg _
    have h1 := State.load_keeps c sg (sg.base + off.toNat) n h
    generalize s.load c sg (sg.base + off.toNat) n = q at h1 ⊢
    cases q with
    | wait => trivial
    | fault => exact h1
    | data => exact State.setCore_keeps _ _ h1
    | lock => exact State.setCore_keeps _ _ h1

theorem State.storeBuf_keeps {z s : State} (c : Nat) (e : SbEnt) (h : Keeps z s) :
    KeepsOpt z (s.storeBuf c e) := by
  unfold State.storeBuf
  repeat' (first
    | with_reducible assumption
    | extract_lets
    | with_reducible apply State.drainOne_keeps
    | with_reducible apply State.setCore_keeps
    | with_reducible apply KeepsOpt.none
    | with_reducible apply KeepsOpt.some
    | with_reducible apply KeepsOpt.ite
    | with_reducible refine KeepsOpt.map ?_ (fun u hu => ?_)
    | with_reducible apply Keeps.ite
    | split
    | dsimp +zetaDelta only
    | with_reducible apply Keeps.mk)

theorem State.storeOp_keeps {z s : State} (c seg : Nat) (off : Word) (n v : Nat) (h : Keeps z s) :
    KeepsEx z (s.storeOp c seg off n v) := by
  unfold State.storeOp
  split
  · exact h
  · extract_lets a e first
    have hf : KeepsOpt z first := by
      unfold first
      split
      · exact State.drained_keeps _ h
      · exact .some h
    have hk : KeepsOpt z (first.bind (fun s1 => s1.storeBuf c e)) := .bind hf (fun t ht => State.storeBuf_keeps _ _ ht)
    generalize first.bind (fun s1 => s1.storeBuf c e) = q at hk ⊢
    cases q with
    | none => trivial
    | some t => exact State.setCore_keeps _ _ (hk t rfl)

theorem State.atomicOp_keeps {z s : State} (c seg : Nat) (off : Word) (rd : Nat) (f : Word → Option Word)
    (swap : Option (Word × Word)) (h : Keeps z s) : KeepsEx z (s.atomicOp c seg off rd f swap) := by
  unfold State.atomicOp
  split
  · exact h
  · rename_i sg _
    extract_lets a o
    have hd := State.drained_keeps c h
    generalize s.drained c = q at hd ⊢
    cases q with
    | none => trivial
    | some s1 =>
      have h1 : Keeps z s1 := hd s1 rfl
      dsimp only
      split
      · exact h1
      · have hs := fun l => State.snoopAll_keeps true noCore l h1
        split
        · refine State.setCore_keeps _ _ ?_
          split
          · exact State.wrLe_keeps _ _ _ (hs _)
          · exact hs _
        · rename_i e v _
          have hw := State.cleatSwap_keeps (o / 16) (o % 16 / 4) (s1.ctxOf c) e.toNat v.toNat (s1.core c).tmode h1
          generalize s1.cleatSwap (o / 16) (o % 16 / 4) (s1.ctxOf c) e.toNat v.toNat (s1.core c).tmode = w at hw ⊢
          split
          · exact State.setCore_keeps _ _ hw
          · exact hw
        · exact State.lockErr_keeps h1
        · exact h1

theorem State.fetch_keeps {z s : State} (c : Nat) (h : Keeps z s) : KeepsLd z (s.fetch c) := by
  unfold State.fetch
  extract_lets x sg a
  split
  · exact h
  · split
    · exact State.setCore_keeps _ _ h
    · split
      · exact h
      · split
        · exact State.loadCat_keeps _ _ _ h
        · split
          · trivial
          · exact State.setCore_keeps _ _ (State.norRead_keeps _ _ h)
        all_goals first | exact State.setCore_keeps _ _ (State.ncRead_keeps _ _ h) | exact h

theorem State.takeInterrupt_keeps {z s : State} (h : Keeps z s) : KeepsOptP z s.takeInterrupt := by
  unfold State.takeInterrupt
  extract_lets x
  split
  · exact .none
  · intro p e
    obtain ⟨k, -, e⟩ := Option.map_eq_some_iff.mp e
    subst e
    extract_lets y x1
    have h1 : Keeps z (s.setCore 0 x1) := State.setCore_keeps _ _ h
    clear_value x1
    split
    · exact State.takeImp_keeps _ h1
    · exact State.setCore_keeps _ _ (State.logTrap_keeps _ _ _ _ _ h1)

theorem State.boundary_keeps {z s : State} (c : Nat) (h : Keeps z s) : KeepsOpt z (s.boundary c) :=
  .ite (KeepsOptP.toOpt (State.takeInterrupt_keeps h) (fun _ hp => hp)) .none

theorem State.eki_keeps {z s t : State} {core : Fin 5} {op : Nat} {x : BitVec 26} {body : Nat → Nat → State → Ex}
    (hb : ∀ c n u, Keeps z u → KeepsEx z (body c n u)) (h : Keeps z s) (e : s.eki core op x body = .next t) : Keeps z t := by
  unfold State.eki at e
  dsimp only at e
  have hd := State.drainForeign_keeps core.val h
  have hi := fun u hu => (State.boundary_keeps core.val h).getD (t := u) hu
  split at e
  · cases e; exact h
  split at e
  · injection e with e; subst e; exact State.settle_keeps _ (State.takeImp_keeps _ h)
  generalize s.drainForeign core.val = q at hd e
  cases q with
  | none => injection e with e; subst e; exact hi _ h
  | some s0 =>
    have hf := State.fetch_keeps core.val (hd s0 rfl)
    dsimp only at e
    generalize s0.fetch core.val = f at hf e
    cases f with
    | wait => injection e with e; subst e; exact hi _ h
    | lock => injection e with e; subst e; exact hi _ h
    | fault => injection e with e; subst e; exact State.settle_keeps _ (State.trap_keeps _ _ _ _ _ hf)
    | data v s1 =>
      have hx := hb core.val x.toNat s1 hf
      dsimp only at e
      generalize body core.val x.toNat s1 = r at hx e
      cases r with
      | wait => injection e with e; subst e; exact hi _ h
      | fin => injection e with e; subst e; exact hi _ hx
      | trap => injection e with e; subst e; exact State.settle_keeps _ (State.trap_keeps _ _ _ _ _ hx)

theorem State.guardEki_keeps {z s : State} (ok : Bool) {e : Ex} (he : KeepsEx z e) (h : Keeps z s) : KeepsEx z (s.guardEki ok e) := by
  unfold State.guardEki
  split
  · exact he
  · exact h

theorem State.immOp_keeps {z s : State} (c x : Nat) (v : Word) (h : Keeps z s) : KeepsEx z (s.immOp c x v) :=
  State.setCore_keeps _ _ h

theorem State.loadTo_keeps {z s : State} (c x n : Nat) (f : Nat → Word) (h : Keeps z s) : KeepsEx z (s.loadTo c x n f) :=
  State.loadOp_keeps _ _ _ _ _ _ h

theorem State.jump_keeps {z s : State} (c : Nat) (pc : Word) (f : Core → Core) (h : Keeps z s) : KeepsEx z (s.jump c pc f) :=
  State.setCore_keeps _ _ h

theorem State.branch_keeps {z s : State} (c x : Nat) (k : Cond) (h : Keeps z s) : KeepsEx z (s.branch c x k) := by
  unfold State.branch
  split <;> exact State.setCore_keeps _ _ h

theorem State.noteWfe_keeps {z s : State} (c : Nat) (h : Keeps z s) :
    Keeps z (s.noteWfe c) := by
  unfold State.noteWfe
  repeat' (first
    | with_reducible assumption
    | extract_lets
    | with_reducible apply State.setSlot_keeps
    | split
    | with_reducible refine KeepsOpt.get ?_ (by assumption)
    | with_reducible apply Keeps.mk)

theorem State.mfcVal_keeps {z s : State} (c i : Nat) (h : Keeps z s) :
    Keeps z (s.mfcVal c i).2 := by
  unfold State.mfcVal
  repeat' (first
    | with_reducible assumption
    | extract_lets
    | with_reducible apply State.freeBits_keeps
    | split
    | dsimp +zetaDelta only
    | with_reducible apply Keeps.mk)

theorem State.loadDesc_keeps {z s : State} (c seg : Nat) (off : Word) (n : Nat) (k : List Byte → State → Ex)
    (hk : ∀ d t, Keeps z t → KeepsEx z (k d t)) (h : Keeps z s) : KeepsEx z (s.loadDesc c seg off n k) := by
  unfold State.loadDesc
  split
  · exact h
  · rename_i sg _
    have h1 := State.loadDwords_keeps c sg (sg.base + off.toNat) (n / 8) h
    generalize s.loadDwords c sg (sg.base + off.toNat) (n / 8) = q at h1 ⊢
    cases q with
    | wait => trivial
    | lock => trivial
    | fault => exact h1
    | data => exact hk _ _ h1

theorem State.cacheOp_keeps {z s : State} (c op la : Nat) (h : Keeps z s) :
    Keeps z (s.cacheOp c op la) := by
  unfold State.cacheOp
  repeat' (first
    | with_reducible assumption
    | extract_lets
    | with_reducible apply State.setCore_keeps
    | with_reducible apply State.writeBack_keeps
    | with_reducible apply Keeps.ite
    | split
    | dsimp +zetaDelta only
    | with_reducible apply Keeps.mk)

theorem State.prefetch_keeps {z s : State} (c : Nat) (sg : Seg) (a : Nat) (h : Keeps z s) : Keeps z (s.prefetch c sg a) := by
  unfold State.prefetch
  split
  · exact h
  · have h1 := State.loadMem_keeps c sg (lineOf a) 4 h
    generalize s.loadMem c sg (lineOf a) 4 = q at h1 ⊢
    cases q with
    | data => exact h1
    | _ => exact h

theorem State.cleatTrap_keeps {z s : State} (c cleat word : Nat) (h : Keeps z s) :
    Keeps z (s.cleatTrap c cleat word) := by
  unfold State.cleatTrap
  repeat' (first
    | with_reducible assumption
    | extract_lets
    | with_reducible apply State.settle_keeps
    | with_reducible apply State.trap_keeps
    | dsimp +zetaDelta only)

end Sys2Proof.Machine
end

