-- ==== Sys2Proof/Laws/KeepsCommands.lean ====
section
/-! SUPPORT. What starts, packets, their operations and the tick keep (see Keeps.lean). -/
namespace Sys2Proof.Machine

theorem State.applyPairs_keeps {z s : State} (ps : List (Nat × Nat)) (h : Keeps z s) :
    Keeps z (s.applyPairs ps) := by
  unfold State.applyPairs
  repeat' (first
    | with_reducible assumption
    | extract_lets
    | with_reducible apply State.regCommand_keeps
    | with_reducible refine Keeps.foldl (fun u a hu => ?_) _ ?_
    | dsimp +zetaDelta only)

theorem State.writeKek_keeps {z s : State} (h : Keeps z s) :
    Keeps z (s.writeKek) := by
  unfold State.writeKek
  repeat' (first
    | with_reducible assumption
    | extract_lets
    | with_reducible apply State.regCommand_keeps
    | with_reducible refine Keeps.foldl (fun u a hu => ?_) _ ?_
    | split
    | dsimp +zetaDelta only
    | with_reducible apply Keeps.mk)

theorem State.applyRec_keeps {z s : State} (r : Nat × List Byte) (h : Keeps z s) :
    Keeps z (s.applyRec r) := by
  unfold State.applyRec
  repeat' (first
    | with_reducible assumption
    | extract_lets
    | with_reducible apply State.applyPairs_keeps
    | with_reducible apply State.writeKek_keeps
    | split
    | dsimp +zetaDelta only
    | with_reducible apply Keeps.mk)

theorem State.rwSet_keeps {z s : State} (a v mask : Nat) (h : Keeps z s) :
    Keeps z (s.rwSet a v mask) := by
  unfold State.rwSet
  repeat' (first
    | with_reducible assumption
    | extract_lets
    | with_reducible apply State.regCommand_keeps)

theorem State.writeDir_keeps {z s : State} (t : Nat) (h : Keeps z s) :
    Keeps z (s.writeDir t) := by
  unfold State.writeDir
  repeat' (first
    | with_reducible assumption
    | extract_lets
    | with_reducible apply State.wrLe_keeps
    | with_reducible apply Keeps.ite
    | split
    | dsimp +zetaDelta only)

theorem State.writeDirectory_keeps {z s : State} (h : Keeps z s) :
    Keeps z (s.writeDirectory) := by
  unfold State.writeDirectory
  repeat' (first
    | with_reducible assumption
    | extract_lets
    | with_reducible apply State.wrLe_keeps
    | with_reducible apply State.writeDir_keeps
    | with_reducible apply Keeps.ite
    | with_reducible refine Keeps.foldl (fun u a hu => ?_) _ ?_
    | split
    | dsimp +zetaDelta only)

theorem State.snapshot_keeps {z s : State} (level : Nat) (h : Keeps z s) : Keeps z (s.snapshot level).2 := by
  unfold State.snapshot
  dsimp only
  with_reducible exact State.freeBytes_keeps _ h

theorem State.snapFresh_keeps {z s : State} (h : Keeps z s) :
    Keeps z (s.snapFresh) := by
  unfold State.snapFresh
  repeat' (first
    | with_reducible assumption
    | extract_lets
    | dsimp +zetaDelta only
    | with_reducible apply Keeps.mk)

theorem State.writeSnapshot_keeps {z s : State} (level : Nat) (h : Keeps z s) :
    Keeps z (s.writeSnapshot level) := by
  unfold State.writeSnapshot
  repeat' (first
    | with_reducible assumption
    | extract_lets
    | with_reducible apply State.snapFresh_keeps
    | with_reducible apply State.snapshot_keeps
    | with_reducible apply State.wrBytes_keeps
    | with_reducible apply Keeps.ite
    | split
    | dsimp +zetaDelta only)

theorem State.applySnapshot_keeps {z s : State} (h : Keeps z s) :
    Keeps z (s.applySnapshot) := by
  unfold State.applySnapshot
  repeat' (first
    | with_reducible assumption
    | extract_lets
    | with_reducible apply State.applyPairs_keeps
    | with_reducible apply State.ncWriteN_keeps
    | with_reducible apply State.wrBytes_keeps
    | with_reducible apply Keeps.ite
    | split
    | dsimp +zetaDelta only)

theorem State.bootStep1_keeps {z s : State} (h : Keeps z s) :
    Keeps z (s.bootStep1) := by
  unfold State.bootStep1
  repeat' (first
    | with_reducible assumption
    | extract_lets
    | with_reducible apply State.rwSet_keeps
    | with_reducible apply Keeps.ite
    | split
    | dsimp +zetaDelta only)

theorem State.bootStep2_keeps {z s : State} (recs : List (Nat × List Byte)) (shelfId : Option Byte) (h : Keeps z s) :
    Keeps z (s.bootStep2 recs shelfId) := by
  unfold State.bootStep2
  repeat' (first
    | with_reducible assumption
    | extract_lets
    | with_reducible apply State.regCommand_keeps
    | with_reducible apply State.rwSet_keeps
    | with_reducible refine KeepsOpt.getD ?_ ?_
    | with_reducible apply KeepsOpt.some
    | with_reducible refine KeepsOpt.map ?_ (fun u hu => ?_)
    | split
    | dsimp +zetaDelta only
    | with_reducible apply Keeps.mk)

theorem State.bootStep3_keeps {z s : State} (h : Keeps z s) :
    Keeps z (s.bootStep3) := by
  unfold State.bootStep3
  repeat' (first
    | with_reducible assumption
    | extract_lets
    | with_reducible apply State.freeBits_keeps
    | with_reducible apply State.freeBytes_keeps
    | with_reducible apply State.setFlag_keeps
    | with_reducible apply State.setReg_keeps
    | with_reducible apply Keeps.ite
    | split
    | dsimp +zetaDelta only
    | with_reducible apply Keeps.mk)

theorem State.bootStep4_keeps {z s : State} (h : Keeps z s) :
    Keeps z (s.bootStep4) := by
  unfold State.bootStep4
  repeat' (first
    | with_reducible assumption
    | extract_lets
    | with_reducible apply State.applyRec_keeps
    | with_reducible apply State.applySnapshot_keeps
    | with_reducible apply State.freeBits_keeps
    | with_reducible apply State.setFlag_keeps
    | with_reducible apply Keeps.ite
    | with_reducible refine Keeps.foldl (fun u a hu => ?_) _ ?_
    | split
    | dsimp +zetaDelta only
    | with_reducible apply Keeps.mk)

theorem State.accept_keeps {z s : State} (h : Keeps z s) :
    Keeps z (s.accept) := by
  unfold State.accept
  repeat' (first
    | with_reducible assumption
    | extract_lets
    | with_reducible apply Keeps.mk)

theorem State.bootRest_keeps {z s : State} (shelfId : Option Byte) (h : Keeps z s) :
    Keeps z (s.bootRest shelfId) := by
  unfold State.bootRest
  repeat' (first
    | with_reducible assumption
    | extract_lets
    | with_reducible apply State.accept_keeps
    | with_reducible apply State.bootStep2_keeps
    | with_reducible apply State.bootStep3_keeps
    | with_reducible apply State.bootStep4_keeps
    | with_reducible apply State.rwSet_keeps
    | with_reducible apply State.writeDirectory_keeps
    | with_reducible refine KeepsOpt.getD ?_ ?_
    | with_reducible refine KeepsOpt.map ?_ (fun u hu => ?_)
    | dsimp +zetaDelta only
    | with_reducible apply Keeps.mk)

theorem State.resetAon_keeps {z s : State} (h : Keeps z s) : Keeps z s.resetAon :=
  ⟨h.1, fun c => by
    have := h.2 c; simp only [State.canonical, Bool.and_eq_true] at this ⊢
    exact ⟨this.1, Tab.wf_keep regReset (fun k : Nat =>
      !(decide (keyAddr k < 0x40001000 ∨ 0x40002000 ≤ keyAddr k ∧ keyAddr k < 0x40003000)) || keyAddr k == 0x40000048 ||
        decide (0x40000100 ≤ keyAddr k ∧ keyAddr k < 0x40000200) || keyAddr k == 0x40000068 || keyAddr k == 0x40002044 ||
        k == kClkStat 0 || k == kClkStat 4) s.regs this.2⟩⟩

theorem State.warmStart_keeps {z s : State} (src reason : Nat) (h : Keeps z s) :
    Keeps z (s.warmStart src reason) := by
  unfold State.warmStart
  repeat' (first
    | with_reducible assumption
    | extract_lets
    | with_reducible apply State.offDom_keeps
    | with_reducible apply Keeps.ite
    | with_reducible refine Keeps.foldl (fun u a hu => ?_) _ ?_
    | split
    | dsimp +zetaDelta only
    | with_reducible apply Keeps.mk)

theorem State.ethSend_keeps {z s : State} (p : Nat) (f : List Byte) (h : Keeps z s) :
    Keeps z (s.ethSend p f) := by
  unfold State.ethSend
  repeat' (first
    | with_reducible assumption
    | extract_lets
    | with_reducible apply Keeps.ite
    | split
    | dsimp +zetaDelta only
    | with_reducible apply Keeps.mk)

theorem State.setCons_keeps {z s : State} (p : Nat) (l : List Nat) (h : Keeps z s) :
    Keeps z (s.setCons p l) := by
  unfold State.setCons
  repeat' (first
    | with_reducible assumption
    | extract_lets
    | dsimp +zetaDelta only
    | with_reducible apply Keeps.mk)

theorem State.consSend_keeps {z s : State} (p : Nat) (l : List Byte) (h : Keeps z s) :
    Keeps z (s.consSend p l) := by
  unfold State.consSend
  repeat' (first
    | with_reducible assumption
    | extract_lets
    | with_reducible apply Keeps.ite
    | split
    | dsimp +zetaDelta only
    | with_reducible apply Keeps.mk)

theorem State.freeStatus_keeps {z s : State} (h : Keeps z s) :
    Keeps z (s.freeStatus).2 := by
  unfold State.freeStatus
  repeat' (first
    | with_reducible assumption
    | extract_lets
    | with_reducible apply State.freeBits_keeps
    | with_reducible refine KeepsOpt.getD ?_ ?_
    | with_reducible refine KeepsOpt.map ?_ (fun u hu => ?_)
    | dsimp +zetaDelta only)

theorem State.eventRecord_keeps {z s : State} (typ seq : Nat) (detail : List Byte) (h : Keeps z s) :
    Keeps z (s.eventRecord typ seq detail).2 := by
  unfold State.eventRecord
  repeat' (first
    | with_reducible assumption
    | extract_lets
    | with_reducible apply State.freeBytes_keeps
    | with_reducible refine KeepsOpt.getD ?_ ?_
    | with_reducible refine KeepsOpt.map ?_ (fun u hu => ?_)
    | dsimp +zetaDelta only)

theorem State.postMail_keeps {z s : State} (t typ : Nat) (detail : List Byte) (h : Keeps z s) :
    Keeps z (s.postMail t typ detail) := by
  unfold State.postMail
  repeat' (first
    | with_reducible assumption
    | extract_lets
    | with_reducible apply State.eventRecord_keeps
    | with_reducible apply State.regCommand_keeps
    | with_reducible apply State.wrBytes_keeps
    | with_reducible apply State.wrLe_keeps
    | with_reducible apply Keeps.ite
    | split
    | dsimp +zetaDelta only)

theorem State.postLate_keeps {z s : State} (t code seg off seq : Nat) (h : Keeps z s) :
    Keeps z (s.postLate t code seg off seq) := by
  unfold State.postLate
  repeat' (first
    | with_reducible assumption
    | extract_lets
    | with_reducible apply State.postMail_keeps)

theorem State.sendSpine_keeps {z s : State} (tag : Nat) (p : List Byte) (h : Keeps z s) :
    Keeps z (s.sendSpine tag p) := by
  unfold State.sendSpine
  repeat' (first
    | with_reducible assumption
    | extract_lets
    | with_reducible apply State.regCommand_keeps
    | with_reducible apply State.wrBytes_keeps
    | with_reducible apply State.wrLe_keeps
    | with_reducible apply Keeps.ite
    | split
    | dsimp +zetaDelta only
    | with_reducible apply Keeps.mk)

theorem State.flushOutbox_keeps {z s : State} (h : Keeps z s) :
    Keeps z (s.flushOutbox) := by
  unfold State.flushOutbox
  repeat' (first
    | with_reducible assumption
    | extract_lets
    | with_reducible apply State.sendSpine_keeps
    | with_reducible refine Keeps.foldl (fun u a hu => ?_) _ ?_
    | dsimp +zetaDelta only
    | with_reducible apply Keeps.mk)

theorem State.sendUdp_keeps {z s : State} (p dst dport : Nat) (mac : List Byte) (body : List Byte) (h : Keeps z s) :
    Keeps z (s.sendUdp p dst dport mac body) := by
  unfold State.sendUdp
  repeat' (first
    | with_reducible assumption
    | extract_lets
    | with_reducible apply State.ethSend_keeps
    | with_reducible apply Keeps.ite
    | split
    | dsimp +zetaDelta only)

theorem State.sendMailbox_keeps {z s : State} (t seq : Nat) (p : List Byte) (h : Keeps z s) :
    Keeps z (s.sendMailbox t seq p) := by
  unfold State.sendMailbox
  repeat' (first
    | with_reducible assumption
    | extract_lets
    | with_reducible apply State.postMail_keeps
    | with_reducible apply State.wrBytes_keeps
    | with_reducible apply State.wrLe_keeps
    | with_reducible apply Keeps.ite
    | split
    | dsimp +zetaDelta only)

theorem State.send_keeps {z s : State} (src : CmdSrc) (seq : Nat) (p : List Byte) (h : Keeps z s) :
    Keeps z (s.send src seq p) := by
  unfold State.send
  repeat' (first
    | with_reducible assumption
    | extract_lets
    | with_reducible apply State.consSend_keeps
    | with_reducible apply State.sendMailbox_keeps
    | with_reducible apply State.sendSpine_keeps
    | with_reducible apply State.sendUdp_keeps
    | split
    | with_reducible apply Keeps.mk)

theorem State.keepReply_keeps {z s : State} (c : Cmd) (r : Option (List Byte)) (h : Keeps z s) :
    Keeps z (s.keepReply c r) := by
  unfold State.keepReply
  repeat' (first
    | with_reducible assumption
    | extract_lets
    | with_reducible apply Keeps.ite
    | split
    | dsimp +zetaDelta only
    | with_reducible apply Keeps.mk)

theorem State.postedFailure_keeps {z s : State} (c : Cmd) (status : Nat) (h : Keeps z s) :
    Keeps z (s.postedFailure c status) := by
  unfold State.postedFailure
  repeat' (first
    | with_reducible assumption
    | extract_lets
    | with_reducible apply State.postLate_keeps
    | with_reducible apply State.raise_keeps
    | with_reducible apply Keeps.ite
    | split
    | with_reducible refine KeepsOpt.get ?_ (by assumption)
    | dsimp +zetaDelta only
    | with_reducible apply Keeps.mk)

theorem State.finish_keeps {z s : State} (c : Cmd) (status : Nat) (result : List Byte) (made : List Nat) (h : Keeps z s) :
    Keeps z (s.finish c status result made) := by
  unfold State.finish
  repeat' (first
    | with_reducible assumption
    | extract_lets
    | with_reducible apply State.keepReply_keeps
    | with_reducible apply State.postedFailure_keeps
    | with_reducible apply State.send_keeps
    | with_reducible apply Keeps.ite
    | split
    | dsimp +zetaDelta only)

theorem State.ok_keeps {z s : State} (bs : List Byte) (h : Keeps z s) :
    Keeps z (s.ok bs).2 := by
  unfold State.ok
  repeat' (first
    | with_reducible assumption
    | extract_lets)

theorem State.okWith_keeps {z s : State} (bs : List Byte) (es : List Nat) (h : Keeps z s) :
    Keeps z (s.okWith bs es).2 := by
  unfold State.okWith
  repeat' (first
    | with_reducible assumption
    | extract_lets)

theorem State.no_keeps {z s : State} (status : Nat) (h : Keeps z s) :
    Keeps z (s.no status).2 := by
  unfold State.no
  repeat' (first
    | with_reducible assumption
    | extract_lets)

theorem State.noWith_keeps {z s : State} (status : Nat) (es : List Nat) (h : Keeps z s) :
    Keeps z (s.noWith status es).2 := by
  unfold State.noWith
  repeat' (first
    | with_reducible assumption
    | extract_lets)

theorem State.noFree_keeps {z s : State} (es : List Nat) (h : Keeps z s) :
    Keeps z (s.noFree es).2 := by
  unfold State.noFree
  repeat' (first
    | with_reducible assumption
    | extract_lets
    | with_reducible apply State.freeStatus_keeps
    | with_reducible apply State.noWith_keeps
    | dsimp +zetaDelta only)

theorem State.param_keeps {z s : State} (c : Cmd) (pos lo hi v : Nat) (h : Keeps z s) :
    Keeps z (s.param c pos lo hi v).2.2 := by
  unfold State.param
  repeat' (first
    | with_reducible assumption
    | extract_lets
    | with_reducible apply Keeps.ite
    | split
    | dsimp +zetaDelta only
    | with_reducible apply Keeps.mk)

theorem State.sizeParam_keeps {z s : State} (c : Cmd) (pos lo hi unit v : Nat) (h : Keeps z s) :
    Keeps z (s.sizeParam c pos lo hi unit v).2.2 := by
  unfold State.sizeParam
  repeat' (first
    | with_reducible assumption
    | extract_lets
    | with_reducible apply State.param_keeps
    | dsimp +zetaDelta only)

theorem State.multParam_keeps {z s : State} (c : Cmd) (pos k hi v : Nat) (h : Keeps z s) :
    Keeps z (s.multParam c pos k hi v).2.2 := by
  unfold State.multParam
  repeat' (first
    | with_reducible assumption
    | extract_lets
    | with_reducible apply State.param_keeps
    | with_reducible apply Keeps.ite
    | split
    | dsimp +zetaDelta only
    | with_reducible apply Keeps.mk)

theorem State.writeWord_keeps {z s : State} (a v : Nat) (h : Keeps z s) :
    Keeps z (s.writeWord a v).2 := by
  unfold State.writeWord
  repeat' (first
    | with_reducible assumption
    | extract_lets
    | with_reducible apply State.flushXt1_keeps
    | with_reducible apply State.regCommand_keeps
    | with_reducible apply Keeps.ite
    | split
    | dsimp +zetaDelta only
    | with_reducible apply Keeps.mk)

theorem State.writeWords_keeps {z s : State} (ws : List (Nat × Nat)) (h : Keeps z s) : Keeps z (s.writeWords ws).2 := by
  unfold State.writeWords
  refine Keeps.foldl_proj Prod.snd (fun u w hu => ?_) _ h
  exact State.writeWord_keeps _ _ hu

theorem State.writeMembers_keeps {z s : State} (b o : Nat) (vals : List (Fld × Nat)) (h : Keeps z s) :
    Keeps z (s.writeMembers b o vals).2 := by
  unfold State.writeMembers
  repeat' (first
    | with_reducible assumption
    | extract_lets
    | with_reducible apply State.flushXt1_keeps
    | with_reducible apply State.reportAll_keeps
    | with_reducible apply State.takeWrite_keeps
    | with_reducible apply Keeps.ite
    | split
    | dsimp +zetaDelta only)

theorem State.writeField_keeps {z s : State} (id v : Nat) (h : Keeps z s) : Keeps z (s.writeField id v).2 := by
  unfold State.writeField
  refine Keeps.foldl_proj Prod.snd (fun u w hu => ?_) _ h
  exact State.writeMembers_keeps _ _ _ hu

theorem State.applyFields_keeps {z s : State} (ps : List (Nat × Nat)) (h : Keeps z s) : Keeps z (s.applyFields ps).2 := by
  unfold State.applyFields
  refine Keeps.foldl_proj Prod.snd (fun u w hu => ?_) _ h
  exact State.writeField_keeps _ _ hu

theorem State.fieldList_keeps {z s : State} (c : Cmd) (scope : Nat → Nat → Bool) (h : Keeps z s) :
    Keeps z (s.fieldList c scope).2 := by
  unfold State.fieldList
  repeat' (first
    | with_reducible assumption
    | extract_lets
    | with_reducible apply State.applyFields_keeps
    | with_reducible apply State.no_keeps
    | with_reducible apply State.okWith_keeps
    | with_reducible apply State.writeDirectory_keeps
    | with_reducible refine KeepsOpt.getD ?_ ?_
    | with_reducible apply KeepsOpt.some
    | with_reducible apply KeepsOpt.ite
    | with_reducible refine KeepsOpt.map ?_ (fun u hu => ?_)
    | with_reducible refine KeepsOptP.toOpt ?_ (fun u hu => ?_)
    | with_reducible refine KeepsOptP.bindOpt ?_ (fun u hu => ?_)
    | with_reducible apply Keeps.ite
    | split
    | dsimp +zetaDelta only
    | with_reducible apply Keeps.mk)

theorem State.opNop_keeps {z s : State} (_c : Cmd) (h : Keeps z s) :
    Keeps z (s.opNop _c).2 := by
  unfold State.opNop
  repeat' (first
    | with_reducible assumption
    | extract_lets
    | with_reducible apply State.ok_keeps)

theorem State.opIdent_keeps {z s : State} (_c : Cmd) (h : Keeps z s) :
    Keeps z (s.opIdent _c).2 := by
  unfold State.opIdent
  repeat' (first
    | with_reducible assumption
    | extract_lets
    | with_reducible apply State.ok_keeps)

theorem State.opCfgSet_keeps {z s : State} (c : Cmd) (h : Keeps z s) :
    Keeps z (s.opCfgSet c).2 := by
  unfold State.opCfgSet
  repeat' (first
    | with_reducible assumption
    | extract_lets
    | with_reducible apply State.fieldList_keeps
    | dsimp +zetaDelta only)

theorem State.readField_keeps {z s : State} (id : Nat) (h : Keeps z s) : Keeps z (s.readField id).2 := by
  unfold State.readField
  extract_lets b ms s0 view r
  have h0 : Keeps z s0 := Keeps.ite (State.flushXt1_keeps _ h) h
  split
  · exact State.freeBits_keeps _ h
  · exact State.setReg_keeps _ _ (Keeps.foldl_proj (fun u : Nat × Nat × State => u.2.2)
      (fun u m hu => State.busRead_keeps _ _ hu) _ (State.setReg_keeps _ _ h0))

theorem State.opCfgGet_keeps {z s : State} (c : Cmd) (h : Keeps z s) : Keeps z (s.opCfgGet c).2 := by
  unfold State.opCfgGet
  extract_lets p ids r
  have hp : Keeps z p.2.2 := State.param_keeps _ _ _ _ _ h
  split
  · exact State.noWith_keeps _ _ hp
  · exact State.okWith_keeps _ _ (Keeps.foldl_proj Prod.snd (fun u m hu => by exact State.readField_keeps _ hu) _ hp)

theorem State.busWords_keeps {z s : State} (as : List Nat) (h : Keeps z s) : Keeps z (s.busWords as).2 := by
  unfold State.busWords
  refine Keeps.foldl_proj Prod.snd (fun u x hu => ?_) _ h
  exact State.busRead_keeps _ _ hu

theorem State.opRegRead_keeps {z s : State} (c : Cmd) (h : Keeps z s) : Keeps z (s.opRegRead c).2 := by
  unfold State.opRegRead
  extract_lets a p l r
  have hp : Keeps z p.2.2 := State.param_keeps _ _ _ _ _ h
  split
  · exact State.noWith_keeps _ _ hp
  · split
    · exact State.noFree_keeps _ hp
    · exact State.okWith_keeps _ _ (State.busWords_keeps _ hp)

theorem State.opRptRead_keeps {z s : State} (c : Cmd) (h : Keeps z s) :
    Keeps z (s.opRptRead c).2 := by
  unfold State.opRptRead
  repeat' (first
    | with_reducible assumption
    | extract_lets
    | with_reducible apply State.ok_keeps
    | dsimp +zetaDelta only)

theorem State.opRptClear_keeps {z s : State} (_c : Cmd) (h : Keeps z s) :
    Keeps z (s.opRptClear _c).2 := by
  unfold State.opRptClear
  repeat' (first
    | with_reducible assumption
    | extract_lets
    | with_reducible apply State.ok_keeps
    | with_reducible apply State.regCommand_keeps)

theorem State.opWarmReset_keeps {z s : State} (c : Cmd) (h : Keeps z s) :
    Keeps z (s.opWarmReset c).2 := by
  unfold State.opWarmReset
  repeat' (first
    | with_reducible assumption
    | extract_lets
    | with_reducible apply State.ok_keeps
    | with_reducible apply Keeps.ite
    | split
    | with_reducible apply Keeps.mk)

theorem State.opPowerStat_keeps {z s : State} (_c : Cmd) (h : Keeps z s) :
    Keeps z (s.opPowerStat _c).2 := by
  unfold State.opPowerStat
  repeat' (first
    | with_reducible assumption
    | extract_lets
    | with_reducible apply State.busWords_keeps
    | with_reducible apply State.ok_keeps
    | dsimp +zetaDelta only)

theorem State.opReefReq_keeps {z s : State} (c : Cmd) (h : Keeps z s) :
    Keeps z (s.opReefReq c).2 := by
  unfold State.opReefReq
  repeat' (first
    | with_reducible assumption
    | extract_lets
    | with_reducible apply State.okWith_keeps
    | with_reducible apply State.writeField_keeps
    | with_reducible apply State.writeSnapshot_keeps
    | with_reducible apply Keeps.ite
    | split
    | dsimp +zetaDelta only)

theorem State.startShelf_keeps {z s : State} (wake : Bool) (h : Keeps z s) :
    Keeps z (s.startShelf wake).2 := by
  unfold State.startShelf
  repeat' (first
    | with_reducible assumption
    | extract_lets
    | with_reducible apply State.no_keeps
    | with_reducible apply State.regCommand_keeps
    | with_reducible apply Keeps.ite
    | split)

theorem State.opShelfWake_keeps {z s : State} (_c : Cmd) (h : Keeps z s) :
    Keeps z (s.opShelfWake _c).2 := by
  unfold State.opShelfWake
  repeat' (first
    | with_reducible assumption
    | extract_lets
    | with_reducible apply State.startShelf_keeps)

theorem State.opShelfSleep_keeps {z s : State} (_c : Cmd) (h : Keeps z s) :
    Keeps z (s.opShelfSleep _c).2 := by
  unfold State.opShelfSleep
  repeat' (first
    | with_reducible assumption
    | extract_lets
    | with_reducible apply State.startShelf_keeps)

theorem State.opPowerSet_keeps {z s : State} (c : Cmd) (h : Keeps z s) :
    Keeps z (s.opPowerSet c).2 := by
  unfold State.opPowerSet
  repeat' (first
    | with_reducible assumption
    | extract_lets
    | with_reducible apply State.fieldList_keeps)

theorem State.opBayStat_keeps {z s : State} (c : Cmd) (h : Keeps z s) :
    Keeps z (s.opBayStat c).2 := by
  unfold State.opBayStat
  repeat' (first
    | with_reducible assumption
    | extract_lets
    | with_reducible apply State.noWith_keeps
    | with_reducible apply State.okWith_keeps
    | with_reducible apply State.param_keeps
    | with_reducible apply Keeps.ite
    | split
    | dsimp +zetaDelta only)

theorem State.opBaySet_keeps {z s : State} (c : Cmd) (h : Keeps z s) :
    Keeps z (s.opBaySet c).2 := by
  unfold State.opBaySet
  repeat' (first
    | with_reducible assumption
    | extract_lets
    | with_reducible apply State.fieldList_keeps
    | with_reducible apply State.no_keeps
    | with_reducible apply Keeps.ite
    | with_reducible refine KeepsOpt.elim ?_ ?_ (fun u hu => ?_)
    | with_reducible refine Keeps.elim _ ?_ (fun a => ?_)
    | split
    | dsimp +zetaDelta only)

theorem State.opGangStart_keeps {z s : State} (c : Cmd) (h : Keeps z s) :
    Keeps z (s.opGangStart c).2 := by
  unfold State.opGangStart
  repeat' (first
    | with_reducible assumption
    | extract_lets
    | with_reducible apply State.no_keeps
    | with_reducible apply State.regCommand_keeps
    | with_reducible apply Keeps.ite
    | split
    | dsimp +zetaDelta only)

theorem State.opGangStop_keeps {z s : State} (c : Cmd) (h : Keeps z s) :
    Keeps z (s.opGangStop c).2 := by
  unfold State.opGangStop
  repeat' (first
    | with_reducible assumption
    | extract_lets
    | with_reducible apply State.no_keeps
    | with_reducible apply State.ok_keeps
    | with_reducible apply State.regCommand_keeps
    | with_reducible apply Keeps.ite
    | split
    | dsimp +zetaDelta only)

theorem State.opBayRestart_keeps {z s : State} (c : Cmd) (h : Keeps z s) :
    Keeps z (s.opBayRestart c).2 := by
  unfold State.opBayRestart
  repeat' (first
    | with_reducible assumption
    | extract_lets
    | with_reducible apply State.noWith_keeps
    | with_reducible apply State.okWith_keeps
    | with_reducible apply State.param_keeps
    | with_reducible apply State.regCommand_keeps
    | with_reducible apply Keeps.ite
    | split
    | dsimp +zetaDelta only)

theorem State.opSerSend_keeps {z s : State} (c : Cmd) (h : Keeps z s) : Keeps z (s.opSerSend c).2 := by
  unfold State.opSerSend
  extract_lets p n r
  have hp : Keeps z p.2.2 := State.param_keeps _ _ _ _ _ h
  split
  · exact State.noWith_keeps _ _ hp
  · split
    · exact State.noWith_keeps _ _ hp
    · refine State.okWith_keeps _ _ (Keeps.foldl_proj Prod.snd (fun u m hu => ?_) _ hp)
      split
      · exact State.regCommand_keeps _ _ hu
      · exact hu

theorem State.takeRx_keeps {z s : State} (n k : Nat) (h : Keeps z s) : Keeps z (s.takeRx n k).2 := by
  induction k generalizing s with
  | zero => exact h
  | succ k ih =>
    unfold State.takeRx
    split
    · exact h
    · exact ih (State.portRx_keeps n h)

theorem State.opSerRecv_keeps {z s : State} (c : Cmd) (h : Keeps z s) : Keeps z (s.opSerRecv c).2 := by
  unfold State.opSerRecv
  extract_lets p m n l tail k r s1 t
  have hp : Keeps z p.2.2 := State.param_keeps _ _ _ _ _ h
  have hm : Keeps z m.2.2 := State.sizeParam_keeps _ _ _ _ _ _ hp
  have hr : Keeps z r.2 := Keeps.foldl_proj Prod.snd (fun u i hu => by exact State.ncRead_keeps _ _ hu) _ hm
  have h1 : Keeps z s1 := Keeps.ite hr (State.regCommand_keeps _ _ hr)
  split
  · exact State.noWith_keeps _ _ hm
  · split
    · exact State.noWith_keeps _ _ hm
    · exact State.okWith_keeps _ _ (State.takeRx_keeps _ _ h1)

theorem State.catTag_keeps {z s : State} (c : Cmd) (h : Keeps z s) :
    Keeps z (s.catTag c) := by
  unfold State.catTag
  repeat' (first
    | with_reducible assumption
    | extract_lets
    | with_reducible apply State.setReg_keeps
    | with_reducible apply Keeps.ite
    | split
    | dsimp +zetaDelta only)

theorem State.catPost_keeps {z s : State} (l : List (Nat × List Byte)) (h : Keeps z s) : Keeps z (s.catPost l).2 := by
  induction l generalizing s with
  | nil => exact State.ok_keeps _ h
  | cons e l ih =>
    obtain ⟨o, bs⟩ := e
    have hw := State.wbAccept_keeps .cc o bs (s.ccTag o) h
    unfold State.catPost
    generalize s.wbAccept .cc o bs (s.ccTag o) = q at hw ⊢
    split
    · exact ih hw
    · exact hw
    · exact State.no_keeps _ hw
    · exact State.no_keeps _ hw

theorem State.readEntry_keeps {z s : State} (off : Nat) (h : Keeps z s) :
    Keeps z (s.readEntry off).2 := by
  unfold State.readEntry
  repeat' (first
    | with_reducible assumption
    | extract_lets
    | with_reducible apply State.catRead_keeps
    | split
    | dsimp +zetaDelta only
    | with_reducible apply Keeps.mk)

theorem State.readBuckets_keeps {z s : State} (t key : Nat) (h : Keeps z s) : Keeps z (s.readBuckets t key).2 := by
  unfold State.readBuckets
  extract_lets offs r
  have hr : Keeps z r.2 := Keeps.foldl_proj Prod.snd (fun u i hu => by exact State.readEntry_keeps _ hu) _ h
  clear_value r
  split
  · exact h
  · split
    · exact hr
    · exact hr

theorem State.setOverflow_keeps {z s : State} (t key : Nat) (e : Option Nat) (h : Keeps z s) :
    Keeps z (s.setOverflow t key e) := by
  unfold State.setOverflow
  repeat' (first
    | with_reducible assumption
    | extract_lets
    | with_reducible refine KeepsOpt.elim ?_ ?_ (fun u hu => ?_)
    | with_reducible refine Keeps.elim _ ?_ (fun a => ?_)
    | dsimp +zetaDelta only
    | with_reducible apply Keeps.mk)

theorem State.opCatLookup_keeps {z s : State} (c : Cmd) (h : Keeps z s) : Keeps z (s.opCatLookup c).2 := by
  have hb := State.readBuckets_keeps c.ten (c.par 0 6) h
  unfold State.opCatLookup
  dsimp only
  generalize s.readBuckets c.ten (c.par 0 6) = q at hb ⊢
  split
  · exact hb
  · exact State.no_keeps _ hb
  · repeat' (first | exact State.ok_keeps _ hb | exact State.no_keeps _ hb | split | exact hb)

theorem State.placeOutside_keeps {z s : State} (t key e : Nat) (offs : List Nat) (es : List (Nat × Bool)) (h : Keeps z s) :
    Keeps z (s.placeOutside t key e offs es).2 := by
  unfold State.placeOutside
  extract_lets r
  have hr : Keeps z r.2 := by
    dsimp only [r]
    repeat' (first | exact State.ok_keeps _ h | exact State.catPost_keeps _ h | split)
  clear_value r
  split
  · split
    · exact State.setOverflow_keeps _ _ _ hr
    · exact hr
  · exact State.setOverflow_keeps _ _ _ hr

theorem State.opCatPut_keeps {z s : State} (c : Cmd) (h : Keeps z s) : Keeps z (s.opCatPut c).2 := by
  unfold State.opCatPut
  extract_lets e key
  have hb := State.readBuckets_keeps c.ten key h
  generalize s.readBuckets c.ten key = q at hb ⊢
  split
  · exact hb
  · exact State.no_keeps _ hb
  · have hc := State.catTag_keeps c hb
    dsimp only
    repeat' (first | exact State.catPost_keeps _ hc | exact State.ok_keeps _ (State.setOverflow_keeps _ _ _ hc) |
      exact State.catPost_keeps _ (State.setOverflow_keeps _ _ _ hc) | exact State.placeOutside_keeps _ _ _ _ _ hc | split)

theorem State.opCatDelete_keeps {z s : State} (c : Cmd) (h : Keeps z s) : Keeps z (s.opCatDelete c).2 := by
  unfold State.opCatDelete
  extract_lets key
  have hb := State.readBuckets_keeps c.ten key h
  generalize s.readBuckets c.ten key = q at hb ⊢
  split
  · exact hb
  · exact State.no_keeps _ hb
  · have hc := State.catTag_keeps c hb
    repeat' (first | exact State.catPost_keeps _ hc | exact State.ok_keeps _ (State.setOverflow_keeps _ _ _ hb) |
      exact State.no_keeps _ hb | split)

theorem State.catWords_keeps {z s : State} (l : List Nat) (h : Keeps z s) : Keeps z (s.catWords l).2 := by
  induction l generalizing s with
  | nil => exact h
  | cons o l ih =>
    have h1 := State.catRead_keeps (s.coreReq 0) o h
    unfold State.catWords
    generalize s.catRead (s.coreReq 0) o = q at h1 ⊢
    obtain ⟨r, s1⟩ := q
    cases r with
    | data w =>
      have h2 := ih h1
      dsimp only at h2 ⊢
      generalize s1.catWords l = q at h2 ⊢
      obtain ⟨r, s2⟩ := q
      cases r <;> exact h2
    | _ => exact h1

theorem State.opCatRead_keeps {z s : State} (c : Cmd) (h : Keeps z s) : Keeps z (s.opCatRead c).2 := by
  unfold State.opCatRead
  extract_lets off p n lo
  have hp : Keeps z p.2.2 := State.multParam_keeps _ _ _ _ _ h
  split
  · exact State.noWith_keeps _ _ hp
  · have hw := fun l => State.catWords_keeps l hp
    generalize (List.range ((off + n + 7) / 8 - off / 8)).map (fun i => lo + 8 * i) = l
    have hw := hw l
    generalize p.2.2.catWords l = q at hw ⊢
    split
    · exact State.okWith_keeps _ _ hw
    · exact State.noWith_keeps _ _ hw
    · exact State.noWith_keeps _ _ hw
    · exact h

theorem State.opCatWrite_keeps {z s : State} (c : Cmd) (h : Keeps z s) : Keeps z (s.opCatWrite c).2 := by
  unfold State.opCatWrite
  extract_lets off d
  split
  · exact State.no_keeps _ h
  · exact State.catPost_keeps _ (State.catTag_keeps _ h)

theorem State.opCatRegion_keeps {z s : State} (c : Cmd) (h : Keeps z s) :
    Keeps z (s.opCatRegion c).2 := by
  unfold State.opCatRegion
  repeat' (first
    | with_reducible assumption
    | extract_lets
    | with_reducible apply State.fieldList_keeps
    | dsimp +zetaDelta only)

theorem State.opTenStat_keeps {z s : State} (c : Cmd) (h : Keeps z s) :
    Keeps z (s.opTenStat c).2 := by
  unfold State.opTenStat
  repeat' (first
    | with_reducible assumption
    | extract_lets
    | with_reducible apply State.ok_keeps)

theorem State.opTenSeg_keeps {z s : State} (c : Cmd) (h : Keeps z s) :
    Keeps z (s.opTenSeg c).2 := by
  unfold State.opTenSeg
  repeat' (first
    | with_reducible assumption
    | extract_lets
    | with_reducible apply State.ncWriteN_keeps
    | with_reducible apply State.noWith_keeps
    | with_reducible apply State.okWith_keeps
    | with_reducible apply State.param_keeps
    | with_reducible apply Keeps.ite
    | split
    | dsimp +zetaDelta only)

theorem State.opTenActivate_keeps {z s : State} (c : Cmd) (h : Keeps z s) :
    Keeps z (s.opTenActivate c).2 := by
  unfold State.opTenActivate
  repeat' (first
    | with_reducible assumption
    | extract_lets
    | with_reducible apply State.applyFields_keeps
    | with_reducible apply State.okWith_keeps
    | dsimp +zetaDelta only)

theorem State.opTenReset_keeps {z s : State} (c : Cmd) (h : Keeps z s) :
    Keeps z (s.opTenReset c).2 := by
  unfold State.opTenReset
  repeat' (first
    | with_reducible assumption
    | extract_lets
    | with_reducible apply State.no_keeps
    | with_reducible apply State.tenGo_keeps
    | with_reducible apply Keeps.ite
    | split)

theorem State.opTenLoad_keeps {z s : State} (c : Cmd) (h : Keeps z s) :
    Keeps z (s.opTenLoad c).2 := by
  unfold State.opTenLoad
  repeat' (first
    | with_reducible assumption
    | extract_lets
    | with_reducible apply State.ncWriteN_keeps
    | with_reducible apply State.no_keeps
    | with_reducible apply State.ok_keeps
    | with_reducible apply Keeps.ite
    | split
    | dsimp +zetaDelta only)

theorem State.opSlotStat_keeps {z s : State} (c : Cmd) (h : Keeps z s) :
    Keeps z (s.opSlotStat c).2 := by
  unfold State.opSlotStat
  repeat' (first
    | with_reducible assumption
    | extract_lets
    | with_reducible apply State.okWith_keeps
    | with_reducible apply State.param_keeps
    | dsimp +zetaDelta only)

theorem State.opCleatRead_keeps {z s : State} (c : Cmd) (h : Keeps z s) :
    Keeps z (s.opCleatRead c).2 := by
  unfold State.opCleatRead
  repeat' (first
    | with_reducible assumption
    | extract_lets
    | with_reducible apply State.no_keeps
    | with_reducible apply State.ok_keeps
    | with_reducible apply Keeps.ite
    | with_reducible refine KeepsOpt.elim ?_ ?_ (fun u hu => ?_)
    | with_reducible refine Keeps.elim _ ?_ (fun a => ?_)
    | split
    | dsimp +zetaDelta only)

theorem State.opCleatWrite_keeps {z s : State} (c : Cmd) (h : Keeps z s) :
    Keeps z (s.opCleatWrite c).2 := by
  unfold State.opCleatWrite
  repeat' (first
    | with_reducible assumption
    | extract_lets
    | with_reducible apply State.cleatStore_keeps
    | with_reducible apply State.no_keeps
    | with_reducible apply State.ok_keeps
    | with_reducible apply Keeps.ite
    | split
    | dsimp +zetaDelta only)

theorem State.cleatTry_keeps {z s : State} (k : Nat) (h : Keeps z s) :
    Keeps z (s.cleatTry k).2 := by
  unfold State.cleatTry
  repeat' (first
    | with_reducible assumption
    | extract_lets
    | with_reducible apply State.cleatSwap_keeps
    | with_reducible apply Keeps.ite
    | split
    | dsimp +zetaDelta only)

theorem State.opCleatAcquire_keeps {z s : State} (c : Cmd) (h : Keeps z s) : Keeps z (s.opCleatAcquire c).2 := by
  unfold State.opCleatAcquire
  extract_lets k
  split
  · exact State.no_keeps _ h
  · have ht := State.cleatTry_keeps k h
    generalize s.cleatTry k = q at ht ⊢
    split <;> exact ht

theorem State.cleatRetry_keeps {z s : State} (k tries cycles due : Nat) (h : Keeps z s) :
    Keeps z (s.cleatRetry k tries cycles due).2 := by
  have ht := State.cleatTry_keeps k h
  unfold State.cleatRetry
  generalize s.cleatTry k = q at ht ⊢
  split
  · exact ht
  · split <;> exact ht

theorem State.opArbSet_keeps {z s : State} (c : Cmd) (h : Keeps z s) :
    Keeps z (s.opArbSet c).2 := by
  unfold State.opArbSet
  repeat' (first
    | with_reducible assumption
    | extract_lets
    | with_reducible apply State.fieldList_keeps)

theorem State.opGaugeRead_keeps {z s : State} (_c : Cmd) (h : Keeps z s) :
    Keeps z (s.opGaugeRead _c).2 := by
  unfold State.opGaugeRead
  repeat' (first
    | with_reducible assumption
    | extract_lets
    | with_reducible apply State.ok_keeps)

theorem State.opHarvSet_keeps {z s : State} (c : Cmd) (h : Keeps z s) :
    Keeps z (s.opHarvSet c).2 := by
  unfold State.opHarvSet
  repeat' (first
    | with_reducible assumption
    | extract_lets
    | with_reducible apply State.fieldList_keeps)

theorem State.opTimeGet_keeps {z s : State} (_c : Cmd) (h : Keeps z s) :
    Keeps z (s.opTimeGet _c).2 := by
  unfold State.opTimeGet
  repeat' (first
    | with_reducible assumption
    | extract_lets
    | with_reducible apply State.busWords_keeps
    | with_reducible apply State.ok_keeps
    | with_reducible apply State.regCommand_keeps
    | dsimp +zetaDelta only)

theorem State.opTimeSet_keeps {z s : State} (c : Cmd) (h : Keeps z s) :
    Keeps z (s.opTimeSet c).2 := by
  unfold State.opTimeSet
  repeat' (first
    | with_reducible assumption
    | extract_lets
    | with_reducible apply State.okWith_keeps
    | with_reducible apply State.regCommand_keeps
    | with_reducible apply State.writeWords_keeps
    | dsimp +zetaDelta only)

theorem State.opAlarmSet_keeps {z s : State} (c : Cmd) (h : Keeps z s) :
    Keeps z (s.opAlarmSet c).2 := by
  unfold State.opAlarmSet
  repeat' (first
    | with_reducible assumption
    | extract_lets
    | with_reducible apply State.fieldList_keeps
    | dsimp +zetaDelta only)

theorem State.opAdcSet_keeps {z s : State} (c : Cmd) (h : Keeps z s) :
    Keeps z (s.opAdcSet c).2 := by
  unfold State.opAdcSet
  repeat' (first
    | with_reducible assumption
    | extract_lets
    | with_reducible apply State.fieldList_keeps)

theorem State.opAdcTable_keeps {z s : State} (c : Cmd) (h : Keeps z s) :
    Keeps z (s.opAdcTable c).2 := by
  unfold State.opAdcTable
  repeat' (first
    | with_reducible assumption
    | extract_lets
    | with_reducible apply State.noWith_keeps
    | with_reducible apply State.okWith_keeps
    | with_reducible apply State.param_keeps
    | with_reducible apply State.writeWords_keeps
    | with_reducible apply Keeps.ite
    | split
    | dsimp +zetaDelta only)

theorem State.holdAdc_keeps {z s : State} (w : Nat) (h : Keeps z s) :
    Keeps z (s.holdAdc w) := by
  unfold State.holdAdc
  repeat' (first
    | with_reducible assumption
    | extract_lets
    | with_reducible apply Keeps.ite
    | split
    | dsimp +zetaDelta only
    | with_reducible apply Keeps.mk)

theorem State.opAdcRingRead_keeps {z s : State} (c : Cmd) (h : Keeps z s) : Keeps z (s.opAdcRingRead c).2 := by
  unfold State.opAdcRingRead
  extract_lets q m a l tail n r s1
  have hm : Keeps z m.2.2 := State.multParam_keeps _ _ _ _ _ (State.param_keeps _ _ _ _ _ h)
  have hr : Keeps z r.2 :=
    Keeps.foldl_proj Prod.snd (fun u i hu => State.holdAdc_keeps _ (State.ncReadN_keeps _ _ hu)) _ hm
  have h1 : Keeps z s1 := Keeps.ite hr (State.regCommand_keeps _ _ hr)
  split
  · exact State.noWith_keeps _ _ hm
  · exact State.okWith_keeps _ _ h1

theorem State.opSfuTableLoad_keeps {z s : State} (c : Cmd) (h : Keeps z s) :
    Keeps z (s.opSfuTableLoad c).2 := by
  unfold State.opSfuTableLoad
  repeat' (first
    | with_reducible assumption
    | extract_lets
    | with_reducible apply State.noFree_keeps
    | with_reducible apply State.noWith_keeps
    | with_reducible apply State.okWith_keeps
    | with_reducible apply State.param_keeps
    | with_reducible apply State.tableWrite_keeps
    | with_reducible apply Keeps.ite
    | with_reducible refine Keeps.foldl (fun u a hu => ?_) _ ?_
    | split
    | dsimp +zetaDelta only)

theorem State.opSfuTableCrc_keeps {z s : State} (c : Cmd) (h : Keeps z s) : Keeps z (s.opSfuTableCrc c).2 := by
  have hp : Keeps z (s.param c 0 0 15 (c.par 0 1)).2.2 := State.param_keeps _ _ _ _ _ h
  unfold State.opSfuTableCrc
  generalize s.param c 0 0 15 (c.par 0 1) = p at hp ⊢
  generalize 3088 = n
  have hb := State.tableBytes_keeps (tableBase p.1) n hp
  dsimp only
  split
  · exact State.noWith_keeps _ _ hp
  · exact State.okWith_keeps _ _ hb

theorem State.opSfuRun_keeps {z s : State} (c : Cmd) (h : Keeps z s) :
    Keeps z (s.opSfuRun c).2 := by
  unfold State.opSfuRun
  repeat' (first
    | with_reducible assumption
    | extract_lets
    | with_reducible apply State.no_keeps
    | with_reducible apply State.sfuOffer_keeps
    | with_reducible apply Keeps.ite
    | split
    | dsimp +zetaDelta only)

theorem State.opNorRead_keeps {z s : State} (c : Cmd) (h : Keeps z s) :
    Keeps z (s.opNorRead c).2 := by
  unfold State.opNorRead
  repeat' (first
    | with_reducible assumption
    | extract_lets
    | with_reducible apply State.noFree_keeps
    | with_reducible apply State.noWith_keeps
    | with_reducible apply State.norRead_keeps
    | with_reducible apply State.okWith_keeps
    | with_reducible apply State.sizeParam_keeps
    | with_reducible apply Keeps.ite
    | split
    | dsimp +zetaDelta only)

theorem State.norIssue_keeps {z s : State} (op off : Nat) (data : List Byte) (andP : Bool) (h : Keeps z s) :
    Keeps z (s.norIssue op off data andP) := by
  unfold State.norIssue
  repeat' (first
    | with_reducible assumption
    | extract_lets
    | with_reducible apply State.regCommand_keeps
    | with_reducible refine Keeps.foldl (fun u a hu => ?_) _ ?_
    | dsimp +zetaDelta only)

theorem State.opNorErase_keeps {z s : State} (c : Cmd) (h : Keeps z s) :
    Keeps z (s.opNorErase c).2 := by
  unfold State.opNorErase
  repeat' (first
    | with_reducible assumption
    | extract_lets
    | with_reducible apply State.noWith_keeps
    | with_reducible apply State.norIssue_keeps
    | with_reducible apply State.param_keeps
    | with_reducible apply Keeps.ite
    | split
    | dsimp +zetaDelta only)

theorem State.opNorProgram_keeps {z s : State} (c : Cmd) (h : Keeps z s) :
    Keeps z (s.opNorProgram c).2 := by
  unfold State.opNorProgram
  repeat' (first
    | with_reducible assumption
    | extract_lets
    | with_reducible apply State.no_keeps
    | with_reducible apply State.norIssue_keeps
    | with_reducible apply Keeps.ite
    | split
    | dsimp +zetaDelta only)

theorem State.opImageActivate_keeps {z s : State} (c : Cmd) (h : Keeps z s) :
    Keeps z (s.opImageActivate c).2 := by
  unfold State.opImageActivate
  repeat' (first
    | with_reducible assumption
    | extract_lets
    | with_reducible apply State.noWith_keeps
    | with_reducible apply State.norIssue_keeps
    | with_reducible apply State.param_keeps
    | with_reducible apply Keeps.ite
    | split
    | dsimp +zetaDelta only)

theorem State.norOutcome_keeps {z s : State} (program : Bool) (h : Keeps z s) :
    Keeps z (s.norOutcome program).2 := by
  unfold State.norOutcome
  repeat' (first
    | with_reducible assumption
    | extract_lets
    | with_reducible apply State.no_keeps
    | with_reducible apply State.ok_keeps
    | with_reducible apply Keeps.ite
    | split
    | with_reducible apply Keeps.mk)

theorem State.cryptDo_keeps {z s : State} (op slot : Nat) (bs : List Byte) (h : Keeps z s) :
    Keeps z (s.cryptDo op slot bs).2 := by
  unfold State.cryptDo
  repeat' (first
    | with_reducible assumption
    | extract_lets
    | with_reducible apply State.count_keeps
    | with_reducible apply State.cryptEnd_keeps
    | with_reducible apply State.cryptResult_keeps
    | dsimp +zetaDelta only
    | with_reducible apply Keeps.mk)

theorem State.cryptFree_keeps {z s : State} (k : Ans) (h : Keeps z s) (hk : Keeps z k.2) : Keeps z (s.cryptFree k).2 := by
  unfold State.cryptFree
  repeat' (first | exact State.no_keeps _ h | exact h | exact hk | split)

theorem State.opKeyLoad_keeps {z s : State} (c : Cmd) (h : Keeps z s) :
    Keeps z (s.opKeyLoad c).2 := by
  unfold State.opKeyLoad
  repeat' (first
    | with_reducible assumption
    | extract_lets
    | with_reducible apply State.cryptDo_keeps
    | with_reducible apply State.cryptFree_keeps
    | with_reducible apply State.no_keeps
    | with_reducible apply State.ok_keeps
    | with_reducible apply State.useArb_keeps
    | with_reducible apply Keeps.ite
    | split
    | with_reducible refine KeepsOpt.get ?_ (by assumption)
    | dsimp +zetaDelta only
    | with_reducible apply Keeps.mk)

theorem State.opKeyClear_keeps {z s : State} (c : Cmd) (h : Keeps z s) :
    Keeps z (s.opKeyClear c).2 := by
  unfold State.opKeyClear
  repeat' (first
    | with_reducible assumption
    | extract_lets
    | with_reducible apply State.cryptDo_keeps
    | with_reducible apply State.cryptFree_keeps
    | with_reducible apply State.ok_keeps
    | dsimp +zetaDelta only)

theorem State.opAttest_keeps {z s : State} (c : Cmd) (h : Keeps z s) :
    Keeps z (s.opAttest c).2 := by
  unfold State.opAttest
  repeat' (first
    | with_reducible assumption
    | extract_lets
    | with_reducible apply State.cryptDo_keeps
    | with_reducible apply State.cryptFree_keeps
    | with_reducible apply State.ok_keeps
    | dsimp +zetaDelta only)

theorem State.opAttestKey_keeps {z s : State} (_c : Cmd) (h : Keeps z s) :
    Keeps z (s.opAttestKey _c).2 := by
  unfold State.opAttestKey
  repeat' (first
    | with_reducible assumption
    | extract_lets
    | with_reducible apply State.cryptDo_keeps
    | with_reducible apply State.cryptFree_keeps
    | with_reducible apply State.ok_keeps
    | dsimp +zetaDelta only)

theorem State.opUnlockChallenge_keeps {z s : State} (_c : Cmd) (h : Keeps z s) :
    Keeps z (s.opUnlockChallenge _c).2 := by
  unfold State.opUnlockChallenge
  repeat' (first
    | with_reducible assumption
    | extract_lets
    | with_reducible apply State.cryptDo_keeps
    | with_reducible apply State.cryptFree_keeps
    | with_reducible apply State.ok_keeps
    | dsimp +zetaDelta only
    | with_reducible apply Keeps.mk)

theorem State.opUnlockResponse_keeps {z s : State} (c : Cmd) (h : Keeps z s) :
    Keeps z (s.opUnlockResponse c).2 := by
  unfold State.opUnlockResponse
  repeat' (first
    | with_reducible assumption
    | extract_lets
    | with_reducible apply State.cryptDo_keeps
    | with_reducible apply State.cryptFree_keeps
    | with_reducible apply State.no_keeps
    | with_reducible apply State.ok_keeps
    | with_reducible apply Keeps.ite
    | split
    | dsimp +zetaDelta only
    | with_reducible apply Keeps.mk)

theorem State.opErrRead_keeps {z s : State} (c : Cmd) (h : Keeps z s) :
    Keeps z (s.opErrRead c).2 := by
  unfold State.opErrRead
  repeat' (first
    | with_reducible assumption
    | extract_lets
    | with_reducible apply State.count_keeps
    | with_reducible apply State.okWith_keeps
    | with_reducible apply State.sizeParam_keeps
    | dsimp +zetaDelta only)

theorem State.opErrPop_keeps {z s : State} (c : Cmd) (h : Keeps z s) :
    Keeps z (s.opErrPop c).2 := by
  unfold State.opErrPop
  repeat' (first
    | with_reducible assumption
    | extract_lets
    | with_reducible apply State.okWith_keeps
    | with_reducible apply State.param_keeps
    | with_reducible apply State.regCommand_keeps
    | dsimp +zetaDelta only)

theorem State.opErrStat_keeps {z s : State} (_c : Cmd) (h : Keeps z s) :
    Keeps z (s.opErrStat _c).2 := by
  unfold State.opErrStat
  repeat' (first
    | with_reducible assumption
    | extract_lets
    | with_reducible apply State.ok_keeps)

theorem State.run_keeps {z s : State} (c : Cmd) (h : Keeps z s) :
    Keeps z (s.run c).2 := by
  unfold State.run
  repeat' (first
    | with_reducible assumption
    | extract_lets
    | with_reducible apply State.no_keeps
    | with_reducible apply State.opAdcRingRead_keeps
    | with_reducible apply State.opAdcSet_keeps
    | with_reducible apply State.opAdcTable_keeps
    | with_reducible apply State.opAlarmSet_keeps
    | with_reducible apply State.opArbSet_keeps
    | with_reducible apply State.opAttest_keeps
    | with_reducible apply State.opAttestKey_keeps
    | with_reducible apply State.opBayRestart_keeps
    | with_reducible apply State.opBaySet_keeps
    | with_reducible apply State.opBayStat_keeps
    | with_reducible apply State.opCatDelete_keeps
    | with_reducible apply State.opCatLookup_keeps
    | with_reducible apply State.opCatPut_keeps
    | with_reducible apply State.opCatRead_keeps
    | with_reducible apply State.opCatRegion_keeps
    | with_reducible apply State.opCatWrite_keeps
    | with_reducible apply State.opCfgGet_keeps
    | with_reducible apply State.opCfgSet_keeps
    | with_reducible apply State.opCleatAcquire_keeps
    | with_reducible apply State.opCleatRead_keeps
    | with_reducible apply State.opCleatWrite_keeps
    | with_reducible apply State.opErrPop_keeps
    | with_reducible apply State.opErrRead_keeps
    | with_reducible apply State.opErrStat_keeps
    | with_reducible apply State.opGangStart_keeps
    | with_reducible apply State.opGangStop_keeps
    | with_reducible apply State.opGaugeRead_keeps
    | with_reducible apply State.opHarvSet_keeps
    | with_reducible apply State.opIdent_keeps
    | with_reducible apply State.opImageActivate_keeps
    | with_reducible apply State.opKeyClear_keeps
    | with_reducible apply State.opKeyLoad_keeps
    | with_reducible apply State.opNop_keeps
    | with_reducible apply State.opNorErase_keeps
    | with_reducible apply State.opNorProgram_keeps
    | with_reducible apply State.opNorRead_keeps
    | with_reducible apply State.opPowerSet_keeps
    | with_reducible apply State.opPowerStat_keeps
    | with_reducible apply State.opReefReq_keeps
    | with_reducible apply State.opRegRead_keeps
    | with_reducible apply State.opRptClear_keeps
    | with_reducible apply State.opRptRead_keeps
    | with_reducible apply State.opSerRecv_keeps
    | with_reducible apply State.opSerSend_keeps
    | with_reducible apply State.opSfuRun_keeps
    | with_reducible apply State.opSfuTableCrc_keeps
    | with_reducible apply State.opSfuTableLoad_keeps
    | with_reducible apply State.opShelfSleep_keeps
    | with_reducible apply State.opShelfWake_keeps
    | with_reducible apply State.opSlotStat_keeps
    | with_reducible apply State.opTenActivate_keeps
    | with_reducible apply State.opTenLoad_keeps
    | with_reducible apply State.opTenReset_keeps
    | with_reducible apply State.opTenSeg_keeps
    | with_reducible apply State.opTenStat_keeps
    | with_reducible apply State.opTimeGet_keeps
    | with_reducible apply State.opTimeSet_keeps
    | with_reducible apply State.opUnlockChallenge_keeps
    | with_reducible apply State.opUnlockResponse_keeps
    | with_reducible apply State.opWarmReset_keeps
    | split
    | with_reducible apply Keeps.mk)

theorem State.addLong_keeps {z s : State} (c : Cmd) (w : CmdWait) (h : Keeps z s) :
    Keeps z (s.addLong c w) := by
  unfold State.addLong
  repeat' (first
    | with_reducible assumption
    | extract_lets
    | with_reducible apply Keeps.mk)

theorem State.perform_keeps {z s : State} (c : Cmd) (h : Keeps z s) : KeepsOpt z (s.perform c) := by
  have hr := State.run_keeps c h
  unfold State.perform
  generalize s.run c = q at hr ⊢
  split
  · exact .ite (.some (Keeps.mk h)) .none
  · exact .some (State.finish_keeps _ _ _ _ hr)
  · exact .some (Keeps.mk hr)

theorem State.touchUdp_keeps {z s : State} (src : CmdSrc) (h : Keeps z s) :
    Keeps z (s.touchUdp src) := by
  unfold State.touchUdp
  repeat' (first
    | with_reducible assumption
    | extract_lets
    | split
    | dsimp +zetaDelta only
    | with_reducible apply Keeps.mk)

theorem State.keepCmd_keeps {z s : State} (c : Cmd) (h : Keeps z s) :
    Keeps z (s.keepCmd c) := by
  unfold State.keepCmd
  repeat' (first
    | with_reducible assumption
    | extract_lets
    | dsimp +zetaDelta only
    | with_reducible apply Keeps.mk)

theorem State.clampPrio_keeps {z s : State} (c : Cmd) (h : Keeps z s) :
    Keeps z (s.clampPrio c).2 := by
  unfold State.clampPrio
  repeat' (first
    | with_reducible assumption
    | extract_lets
    | with_reducible apply Keeps.ite
    | with_reducible refine KeepsOpt.elim ?_ ?_ (fun u hu => ?_)
    | with_reducible refine Keeps.elim _ ?_ (fun a => ?_)
    | split
    | dsimp +zetaDelta only
    | with_reducible apply Keeps.mk)

theorem State.acknowledge_keeps {z s : State} (c : Cmd) (h : Keeps z s) :
    Keeps z (s.acknowledge c) := by
  unfold State.acknowledge
  repeat' (first
    | with_reducible assumption
    | extract_lets
    | with_reducible apply State.send_keeps
    | with_reducible apply Keeps.ite
    | split
    | dsimp +zetaDelta only
    | with_reducible apply Keeps.mk)

theorem State.admitCmd_keeps {z s : State} (c : Cmd) (h : Keeps z s) :
    Keeps z (s.admitCmd c).2 := by
  unfold State.admitCmd
  repeat' (first
    | with_reducible assumption
    | extract_lets
    | with_reducible apply State.acknowledge_keeps
    | with_reducible apply State.clampPrio_keeps
    | with_reducible apply State.keepCmd_keeps
    | dsimp +zetaDelta only
    | with_reducible apply Keeps.mk)

theorem State.enqueue_keeps {z s : State} (c : Cmd) (h : Keeps z s) :
    Keeps z (s.enqueue c) := by
  unfold State.enqueue
  repeat' (first
    | with_reducible assumption
    | extract_lets
    | with_reducible apply Keeps.mk)

theorem State.reject_keeps {z s : State} (c : Cmd) (status : Nat) (h : Keeps z s) :
    Keeps z (s.reject c status) := by
  unfold State.reject
  repeat' (first
    | with_reducible assumption
    | extract_lets
    | with_reducible apply State.send_keeps)

theorem State.acceptCmd_keeps {z s : State} (c : Cmd) (h : Keeps z s) :
    Keeps z (s.acceptCmd c) := by
  unfold State.acceptCmd
  repeat' (first
    | with_reducible assumption
    | extract_lets
    | with_reducible apply State.admitCmd_keeps
    | with_reducible apply State.enqueue_keeps
    | with_reducible apply State.reject_keeps
    | with_reducible apply State.send_keeps
    | with_reducible apply Keeps.ite
    | with_reducible refine KeepsOpt.elim ?_ ?_ (fun u hu => ?_)
    | with_reducible refine Keeps.elim _ ?_ (fun a => ?_)
    | split
    | dsimp +zetaDelta only
    | with_reducible apply Keeps.mk)

theorem State.packet_keeps {z s0 : State} (src : CmdSrc) (p : List Byte) (h : Keeps z s0) :
    Keeps z (s0.packet src p) := by
  unfold State.packet
  repeat' (first
    | with_reducible assumption
    | extract_lets
    | with_reducible apply State.acceptCmd_keeps
    | with_reducible apply State.reef1Leave_keeps
    | with_reducible apply State.reject_keeps
    | with_reducible apply State.touchUdp_keeps
    | with_reducible apply Keeps.ite
    | split
    | dsimp +zetaDelta only
    | with_reducible apply Keeps.mk)

theorem State.takeMailbox_keeps {z s : State} (t : Fin 64) (h : Keeps z s) :
    Keeps z (s.takeMailbox t) := by
  unfold State.takeMailbox
  repeat' (first
    | with_reducible assumption
    | extract_lets
    | with_reducible apply State.packet_keeps
    | with_reducible apply State.wrLe_keeps
    | with_reducible apply Keeps.ite
    | split
    | dsimp +zetaDelta only
    | with_reducible apply Keeps.mk)

theorem State.takeChunk_keeps {z s : State} (h : Keeps z s) :
    Keeps z (s.takeChunk) := by
  unfold State.takeChunk
  repeat' (first
    | with_reducible assumption
    | extract_lets
    | with_reducible apply State.packet_keeps
    | with_reducible apply State.regCommand_keeps
    | with_reducible apply Keeps.ite
    | split
    | with_reducible apply Keeps.mk)

theorem State.takeDatagram_keeps {z s : State} (port : Bool) (frame : List Byte) (h : Keeps z s) :
    Keeps z (s.takeDatagram port frame) := by
  unfold State.takeDatagram
  repeat' (first
    | with_reducible assumption
    | extract_lets
    | with_reducible apply State.packet_keeps
    | dsimp +zetaDelta only)

theorem State.takeDatagrams_keeps {z s : State} (h : Keeps z s) :
    Keeps z (s.takeDatagrams) := by
  unfold State.takeDatagrams
  repeat' (first
    | with_reducible assumption
    | extract_lets
    | with_reducible apply State.takeDatagram_keeps
    | with_reducible refine Keeps.foldl (fun u a hu => ?_) _ ?_
    | dsimp +zetaDelta only
    | with_reducible apply Keeps.mk)

theorem State.holdDatagram_keeps {z s : State} (p : Nat) (frame : List Byte) (h : Keeps z s) :
    Keeps z (s.holdDatagram p frame) := by
  unfold State.holdDatagram
  repeat' (first
    | with_reducible assumption
    | extract_lets
    | with_reducible apply Keeps.mk)

theorem State.poll_keeps {z s : State} (c : Cmd) (w : CmdWait) (h : Keeps z s) : Keeps z (s.poll c w).2 := by
  unfold State.poll
  repeat' (first | with_reducible apply State.ok_keeps | with_reducible apply State.no_keeps |
    with_reducible apply State.norOutcome_keeps | with_reducible apply State.catPost_keeps | with_reducible apply State.run_keeps |
    with_reducible apply State.norIssue_keeps | with_reducible assumption | split)

theorem State.completeOne_keeps {z s : State} (b l : List (Cmd × CmdWait)) (h : Keeps z s) : Keeps z (s.completeOne b l) := by
  induction l generalizing b with
  | nil => cases b <;> exact h
  | cons e l ih =>
    obtain ⟨c, w⟩ := e
    have hp := State.poll_keeps c w h
    unfold State.completeOne
    generalize s.poll c w = q at hp ⊢
    split
    · exact ih _
    · exact State.finish_keeps _ _ _ _ (Keeps.mk hp)
    · exact Keeps.mk hp

theorem State.retryOne_keeps {z s : State} (b l : List (Cmd × CmdWait)) (h : Keeps z s) : Keeps z (s.retryOne b l) := by
  induction l generalizing b with
  | nil => cases b <;> exact h
  | cons e l ih =>
    obtain ⟨c, w⟩ := e
    unfold State.retryOne
    split
    · split
      · exact ih _
      · have hp := fun k t c d => State.cleatRetry_keeps k t c d h
        rename_i k t y d _
        have hp := hp k t y d
        dsimp only at hp ⊢
        generalize s.cleatRetry k t y d = q at hp ⊢
        split
        · exact State.finish_keeps _ _ _ _ (Keeps.mk hp)
        · exact Keeps.mk hp
        · exact hp
    · exact ih _

theorem State.endSeq_keeps {z s : State} (wake : Bool) (status : Nat) (h : Keeps z s) :
    Keeps z (s.endSeq wake status) := by
  unfold State.endSeq
  repeat' (first
    | with_reducible assumption
    | extract_lets
    | with_reducible apply State.setFlag_keeps
    | with_reducible apply Keeps.ite
    | split
    | dsimp +zetaDelta only
    | with_reducible apply Keeps.mk)

theorem State.psuOn_keeps {z s : State} (h : Keeps z s) :
    Keeps z (s.psuOn) := by
  unfold State.psuOn
  repeat' (first
    | with_reducible assumption
    | extract_lets
    | with_reducible apply State.rwSet_keeps
    | with_reducible apply Keeps.ite
    | split
    | dsimp +zetaDelta only
    | with_reducible apply Keeps.mk)

theorem State.wakeStage_keeps {z s : State} (k : Nat) (h : Keeps z s) :
    Keeps z (s.wakeStage k) := by
  unfold State.wakeStage
  repeat' (first
    | with_reducible assumption
    | extract_lets
    | with_reducible apply State.endSeq_keeps
    | with_reducible apply State.psuOn_keeps
    | with_reducible apply State.regCommand_keeps
    | with_reducible apply State.rwSet_keeps
    | with_reducible apply Keeps.ite
    | split
    | dsimp +zetaDelta only
    | with_reducible apply Keeps.mk)

theorem State.sleepStage_keeps {z s : State} (k : Nat) (h : Keeps z s) :
    Keeps z (s.sleepStage k) := by
  unfold State.sleepStage
  repeat' (first
    | with_reducible assumption
    | extract_lets
    | with_reducible apply State.endSeq_keeps
    | with_reducible apply State.regCommand_keeps
    | with_reducible apply State.rwSet_keeps
    | with_reducible apply State.writeSnapshot_keeps
    | with_reducible apply Keeps.ite
    | split
    | dsimp +zetaDelta only
    | with_reducible apply Keeps.mk)

theorem State.seqTick_keeps {z s : State} (h : Keeps z s) :
    Keeps z (s.seqTick) := by
  unfold State.seqTick
  repeat' (first
    | with_reducible assumption
    | extract_lets
    | with_reducible apply State.sleepStage_keeps
    | with_reducible apply State.wakeStage_keeps
    | with_reducible apply Keeps.ite
    | split
    | dsimp +zetaDelta only
    | with_reducible apply Keeps.mk)

theorem State.lowSleep_keeps {z s : State} (h : Keeps z s) :
    Keeps z (s.lowSleep) := by
  unfold State.lowSleep
  repeat' (first
    | with_reducible assumption
    | extract_lets
    | with_reducible apply State.regCommand_keeps
    | with_reducible apply Keeps.ite
    | split)

theorem State.warmTick_keeps {z s : State} (h : Keeps z s) :
    Keeps z (s.warmTick) := by
  unfold State.warmTick
  repeat' (first
    | with_reducible assumption
    | extract_lets
    | with_reducible apply State.regCommand_keeps
    | with_reducible apply Keeps.ite
    | split
    | with_reducible apply Keeps.mk)

theorem State.lowSnapshot_keeps {z s : State} (h : Keeps z s) :
    Keeps z (s.lowSnapshot) := by
  unfold State.lowSnapshot
  repeat' (first
    | with_reducible assumption
    | extract_lets
    | with_reducible apply State.writeSnapshot_keeps
    | with_reducible apply Keeps.ite
    | split)

theorem State.cynTick_keeps {z s : State} (h : Keeps z s) :
    Keeps z (s.cynTick) := by
  unfold State.cynTick
  repeat' (first
    | with_reducible assumption
    | extract_lets
    | with_reducible apply State.flushOutbox_keeps
    | with_reducible apply State.lowSleep_keeps
    | with_reducible apply State.lowSnapshot_keeps
    | with_reducible apply State.seqTick_keeps
    | with_reducible apply State.warmTick_keeps
    | with_reducible apply Keeps.ite
    | split
    | dsimp +zetaDelta only
    | with_reducible apply Keeps.mk)

theorem State.forwardHalyard_keeps {z s : State} (bits_ : Nat) (h : Keeps z s) :
    Keeps z (s.forwardHalyard bits_) := by
  unfold State.forwardHalyard
  repeat' (first
    | with_reducible assumption
    | extract_lets
    | with_reducible apply State.postMail_keeps
    | with_reducible apply Keeps.ite
    | with_reducible refine Keeps.foldl (fun u a hu => ?_) _ ?_
    | split
    | dsimp +zetaDelta only)

theorem State.resolveTicket_keeps {z s : State} (i : Nat) (h : Keeps z s) :
    Keeps z (s.resolveTicket i) := by
  unfold State.resolveTicket
  repeat' (first
    | with_reducible assumption
    | extract_lets
    | with_reducible apply State.readBuckets_keeps
    | with_reducible apply State.wrLe_keeps
    | with_reducible apply Keeps.ite
    | split
    | dsimp +zetaDelta only
    | with_reducible apply Keeps.mk)

theorem State.resolveTickets_keeps {z s : State} (h : Keeps z s) :
    Keeps z (s.resolveTickets) := by
  unfold State.resolveTickets
  repeat' (first
    | with_reducible assumption
    | extract_lets
    | with_reducible apply State.resolveTicket_keeps
    | with_reducible apply Keeps.ite
    | with_reducible refine Keeps.foldl (fun u a hu => ?_) _ ?_
    | split
    | dsimp +zetaDelta only)

theorem State.halyardIrq_keeps {z s : State} (h : Keeps z s) :
    Keeps z (s.halyardIrq) := by
  unfold State.halyardIrq
  repeat' (first
    | with_reducible assumption
    | extract_lets
    | with_reducible apply State.forwardHalyard_keeps
    | with_reducible apply State.regCommand_keeps
    | with_reducible apply State.resolveTickets_keeps
    | with_reducible apply Keeps.ite
    | split
    | dsimp +zetaDelta only)

theorem State.errIrq_keeps {z s : State} (h : Keeps z s) :
    Keeps z (s.errIrq) := by
  unfold State.errIrq
  repeat' (first
    | with_reducible assumption
    | extract_lets
    | with_reducible apply State.count_keeps
    | with_reducible apply State.postLate_keeps
    | with_reducible apply Keeps.ite
    | split
    | dsimp +zetaDelta only
    | with_reducible apply Keeps.mk)

theorem State.mailboxIrq_keeps {z s : State} (h : Keeps z s) : Keeps z s.mailboxIrq := by
  unfold State.mailboxIrq
  generalize s.reg (fk 0x40015308 0) + s.reg (fk 0x4001530C 0) * 2 ^ 32 = p
  refine State.regCommand_keeps _ _ (State.regCommand_keeps _ _ (Keeps.mk (Keeps.foldl (fun u t hu => ?_) _ h)))
  split
  · exact State.takeMailbox_keeps _ hu
  · exact hu

theorem State.issue_keeps {z s : State} (op : Nat) (c : CmdIn) (h : Keeps z s) : Keeps z (s.issue op c) := by
  unfold State.issue
  extract_lets k r later
  have hr : Keeps z r.2 := State.admitCmd_keeps k h
  have hl : Keeps z later := State.enqueue_keeps _ hr
  clear_value later
  split
  · exact h
  · split
    · exact State.reject_keeps _ _ h
    · exact Keeps.ite (State.reject_keeps _ _ h) (Keeps.ite hl ((State.perform_keeps _ hr).getD hl))

theorem State.clockSwitch_keeps {z s : State} (h : Keeps z s) :
    Keeps z (s.clockSwitch) := by
  unfold State.clockSwitch
  repeat' (first
    | with_reducible assumption
    | extract_lets
    | with_reducible apply State.setFlag_keeps
    | with_reducible apply State.setReg_keeps
    | with_reducible apply State.setShadow_keeps
    | with_reducible refine KeepsOpt.getD ?_ ?_
    | with_reducible apply KeepsOpt.ite
    | with_reducible refine KeepsOpt.map ?_ (fun u hu => ?_)
    | with_reducible apply Keeps.ite
    | with_reducible refine Keeps.foldl (fun u a hu => ?_) _ ?_
    | with_reducible refine KeepsOpt.elim ?_ ?_ (fun u hu => ?_)
    | with_reducible refine Keeps.elim _ ?_ (fun a => ?_)
    | split
    | dsimp +zetaDelta only)

theorem State.shadowLatch_keeps {z s : State} (h : Keeps z s) :
    Keeps z (s.shadowLatch) := by
  unfold State.shadowLatch
  repeat' (first
    | with_reducible assumption
    | extract_lets
    | with_reducible apply State.setReg_keeps
    | with_reducible apply State.setShadow_keeps
    | with_reducible refine KeepsOpt.getD ?_ ?_
    | with_reducible apply KeepsOpt.ite
    | with_reducible refine KeepsOpt.map ?_ (fun u hu => ?_)
    | with_reducible apply Keeps.ite
    | with_reducible refine Keeps.foldl (fun u a hu => ?_) _ ?_
    | with_reducible refine KeepsOpt.elim ?_ ?_ (fun u hu => ?_)
    | with_reducible refine Keeps.elim _ ?_ (fun a => ?_)
    | split
    | dsimp +zetaDelta only)

theorem State.domSwitch_keeps {z s : State} (d : Nat × Bool) (h : Keeps z s) :
    Keeps z (s.domSwitch d) := by
  unfold State.domSwitch
  repeat' (first
    | with_reducible assumption
    | extract_lets
    | with_reducible apply State.offDomHeld_keeps
    | with_reducible apply State.onDom_keeps
    | with_reducible apply State.setReg_keeps
    | with_reducible apply Keeps.ite
    | split
    | dsimp +zetaDelta only)

theorem State.tenantTick_keeps {z s : State} (t : Nat) (h : Keeps z s) :
    Keeps z (s.tenantTick t) := by
  unfold State.tenantTick
  repeat' (first
    | with_reducible assumption
    | extract_lets
    | with_reducible apply State.setTenState_keeps
    | with_reducible apply Keeps.ite
    | split
    | dsimp +zetaDelta only)

theorem State.cutOff_keeps {z s : State} (c : Nat) (h : Keeps z s) :
    Keeps z (s.cutOff c) := by
  unfold State.cutOff
  repeat' (first
    | with_reducible assumption
    | extract_lets
    | with_reducible apply State.count_keeps
    | with_reducible apply State.run_keeps
    | with_reducible apply State.setCore_keeps
    | with_reducible apply State.setSlot_keeps
    | with_reducible apply Keeps.ite
    | split
    | dsimp +zetaDelta only
    | with_reducible apply Keeps.mk)

theorem State.tickEvents_keeps {z s : State} (h : Keeps z s) :
    Keeps z (s.tickEvents) := by
  unfold State.tickEvents
  repeat' (first
    | with_reducible assumption
    | extract_lets
    | with_reducible apply State.event_keeps
    | with_reducible refine Keeps.foldl (fun u a hu => ?_) _ ?_
    | dsimp +zetaDelta only)

theorem State.reissueWait_keeps {z s : State} (c n : Nat) (h : Keeps z s) :
    Keeps z (s.reissueWait c n) := by
  unfold State.reissueWait
  repeat' (first
    | with_reducible assumption
    | extract_lets
    | with_reducible apply State.dropWait_keeps
    | with_reducible apply State.run_keeps
    | with_reducible apply State.setCore_keeps
    | with_reducible apply Keeps.ite
    | with_reducible refine KeepsOpt.elim ?_ ?_ (fun u hu => ?_)
    | with_reducible refine Keeps.elim _ ?_ (fun a => ?_)
    | split
    | dsimp +zetaDelta only
    | with_reducible apply Keeps.mk)

theorem State.continueOn_keeps {z s : State} (c n : Nat) (h : Keeps z s) :
    Keeps z (s.continueOn c n) := by
  unfold State.continueOn
  repeat' (first
    | with_reducible assumption
    | extract_lets
    | with_reducible apply State.reissueWait_keeps
    | with_reducible apply State.setCore_keeps
    | with_reducible apply State.setSlot_keeps
    | dsimp +zetaDelta only
    | with_reducible apply Keeps.mk)

theorem State.schedule_keeps {z s : State} (doms : List (Nat × Bool)) (h : Keeps z s) :
    Keeps z (s.schedule doms) := by
  unfold State.schedule
  repeat' (first
    | with_reducible assumption
    | extract_lets
    | with_reducible apply State.continueOn_keeps
    | with_reducible apply State.cutOff_keeps
    | with_reducible apply State.dispatch_keeps
    | with_reducible apply State.domSwitch_keeps
    | with_reducible apply State.preempt_keeps
    | with_reducible apply State.run_keeps
    | with_reducible apply State.setCore_keeps
    | with_reducible apply State.setSlot_keeps
    | with_reducible apply State.tickEvents_keeps
    | with_reducible apply Keeps.ite
    | with_reducible refine Keeps.foldl (fun u a hu => ?_) _ ?_
    | split
    | dsimp +zetaDelta only
    | with_reducible apply Keeps.mk)

theorem State.initNow_keeps {z s : State} (d : Nat × Bool) (h : Keeps z s) :
    Keeps z (s.initNow d) := by
  unfold State.initNow
  repeat' (first
    | with_reducible assumption
    | extract_lets
    | with_reducible apply State.cutOff_keeps
    | with_reducible apply State.initSlot_keeps
    | with_reducible apply State.preempt_keeps
    | with_reducible apply State.run_keeps
    | with_reducible apply Keeps.ite
    | with_reducible refine KeepsOpt.elim ?_ ?_ (fun u hu => ?_)
    | with_reducible refine Keeps.elim _ ?_ (fun a => ?_)
    | split
    | dsimp +zetaDelta only)

theorem State.errLatch_keeps {z s : State} (h : Keeps z s) :
    Keeps z (s.errLatch) := by
  unfold State.errLatch
  repeat' (first
    | with_reducible assumption
    | extract_lets
    | with_reducible refine KeepsOpt.getD ?_ ?_
    | with_reducible apply KeepsOpt.some
    | with_reducible apply KeepsOpt.ite
    | with_reducible refine KeepsOpt.map ?_ (fun u hu => ?_)
    | with_reducible apply Keeps.ite
    | split
    | dsimp +zetaDelta only
    | with_reducible apply Keeps.mk)

theorem State.resetLatch_keeps {z s : State} (h : Keeps z s) :
    Keeps z (s.resetLatch) := by
  unfold State.resetLatch
  repeat' (first
    | with_reducible assumption
    | extract_lets
    | split
    | dsimp +zetaDelta only
    | with_reducible apply Keeps.mk)

theorem State.frameCounts_keeps {z s : State} (h : Keeps z s) :
    Keeps z (s.frameCounts) := by
  unfold State.frameCounts
  repeat' (first
    | with_reducible assumption
    | extract_lets
    | with_reducible apply Keeps.mk)

theorem State.latchEdge_keeps {z s0 : State} (h : Keeps z s0) :
    Keeps z (s0.latchEdge) := by
  unfold State.latchEdge
  repeat' (first
    | with_reducible assumption
    | extract_lets
    | with_reducible apply State.adcLatch_keeps
    | with_reducible apply State.bayLatch_keeps
    | with_reducible apply State.clockSwitch_keeps
    | with_reducible apply State.cynTick_keeps
    | with_reducible apply State.errLatch_keeps
    | with_reducible apply State.frameCounts_keeps
    | with_reducible apply State.initNow_keeps
    | with_reducible apply State.irq_keeps
    | with_reducible apply State.leaseTick_keeps
    | with_reducible apply State.reef1Leave_keeps
    | with_reducible apply State.resetLatch_keeps
    | with_reducible apply State.schedule_keeps
    | with_reducible apply State.setReg_keeps
    | with_reducible apply State.sfuLatch_keeps
    | with_reducible apply State.shadowLatch_keeps
    | with_reducible apply State.spineTick_keeps
    | with_reducible apply State.tenantTick_keeps
    | with_reducible apply State.waitTick_keeps
    | with_reducible apply State.withdraw_keeps
    | with_reducible apply Keeps.ite
    | with_reducible refine Keeps.foldl (fun u a hu => ?_) _ ?_
    | split
    | dsimp +zetaDelta only
    | with_reducible apply Keeps.mk)

theorem State.xt1Cycle_keeps {z s : State} (h : Keeps z s) :
    Keeps z (s.xt1Cycle) := by
  unfold State.xt1Cycle
  repeat' (first
    | with_reducible assumption
    | extract_lets
    | with_reducible apply State.rtcCycle_keeps
    | with_reducible apply State.setReg_keeps
    | with_reducible apply Keeps.ite
    | split
    | dsimp +zetaDelta only
    | with_reducible apply Keeps.mk)

end Sys2Proof.Machine
end

