-- ==== Sys2Proof/Laws/Ops.lean ====
section
/-! SUPPORT. What the shared operations can do, each said once: raising a record, a halyard event, report entries, and the form of a
register write that reaches its block. -/
namespace Sys2Proof.Machine

/-! ### Error records (R353–R364) -/

/-- A record is raised in ERR, and may make a warm reset due; nothing else changes. -/
theorem State.raise_eq (s : State) (r : ErrRec) : ∃ e d, s.raise r = { s with err := e, boot := { s.boot with warmDue := d } } := by
  unfold State.raise
  simp only [State.errFatal, State.errKick]
  repeat' split
  all_goals exact ⟨_, _, rfl⟩

@[simp] theorem State.raise_regs (s : State) (r : ErrRec) : (s.raise r).regs = s.regs := by
  obtain ⟨e, d, h⟩ := s.raise_eq r; rw [h]
@[simp] theorem State.raise_mem (s : State) (r : ErrRec) : (s.raise r).mem = s.mem := by
  obtain ⟨e, d, h⟩ := s.raise_eq r; rw [h]
@[simp] theorem State.raise_pending (s : State) (r : ErrRec) : (s.raise r).pending = s.pending := by
  obtain ⟨e, d, h⟩ := s.raise_eq r; rw [h]
@[simp] theorem State.raise_cores (s : State) (r : ErrRec) : (s.raise r).cores = s.cores := by
  obtain ⟨e, d, h⟩ := s.raise_eq r; rw [h]
@[simp] theorem State.raise_slots (s : State) (r : ErrRec) : (s.raise r).slots = s.slots := by
  obtain ⟨e, d, h⟩ := s.raise_eq r; rw [h]
@[simp] theorem State.raise_dom (s : State) (r : ErrRec) : (s.raise r).dom = s.dom := by
  obtain ⟨e, d, h⟩ := s.raise_eq r; rw [h]
@[simp] theorem State.raise_shadow (s : State) (r : ErrRec) : (s.raise r).shadow = s.shadow := by
  obtain ⟨e, d, h⟩ := s.raise_eq r; rw [h]
@[simp] theorem State.raise_bay (s : State) (r : ErrRec) : (s.raise r).bay = s.bay := by
  obtain ⟨e, d, h⟩ := s.raise_eq r; rw [h]
@[simp] theorem State.raise_cat (s : State) (r : ErrRec) : (s.raise r).cat = s.cat := by
  obtain ⟨e, d, h⟩ := s.raise_eq r; rw [h]
@[simp] theorem State.raise_spine (s : State) (r : ErrRec) : (s.raise r).spine = s.spine := by
  obtain ⟨e, d, h⟩ := s.raise_eq r; rw [h]
@[simp] theorem State.raise_cyn (s : State) (r : ErrRec) : (s.raise r).cyn = s.cyn := by
  obtain ⟨e, d, h⟩ := s.raise_eq r; rw [h]
@[simp] theorem State.raise_lock (s : State) (r : ErrRec) : (s.raise r).lock = s.lock := by
  obtain ⟨e, d, h⟩ := s.raise_eq r; rw [h]
@[simp] theorem State.reg_raise (s : State) (r : ErrRec) (k : Nat) : (s.raise r).reg k = s.reg k := by simp [State.reg]
@[simp] theorem State.flag_raise (s : State) (r : ErrRec) (k : Nat) : (s.raise r).flag k = s.flag k := by simp [State.flag]
@[simp] theorem State.bayCh_raise (s : State) (r : ErrRec) (k : Nat) : (s.raise r).bayCh k = s.bayCh k := by simp [State.bayCh]
@[simp] theorem State.core_raise (s : State) (r : ErrRec) (k : Nat) : (s.raise r).core k = s.core k := by simp [State.core]
@[simp] theorem State.slot_raise (s : State) (r : ErrRec) (k : Nat) : (s.raise r).slot k = s.slot k := by simp [State.slot]
@[simp] theorem State.isUp_raise (s : State) (r : ErrRec) (k : Nat) : (s.raise r).isUp k = s.isUp k := by
  simp [State.isUp, State.domSt]
@[simp] theorem State.rd_raise (s : State) (r : ErrRec) (a : Nat) : (s.raise r).rd a = s.rd a := by simp [State.rd]
@[simp] theorem State.cleat_raise (s : State) (r : ErrRec) (k : Nat) : (s.raise r).cleat k = s.cleat k := by simp [State.cleat]

/-! ### Halyard events (R67) -/

/-- An event changes registers of PMU and what is kept for a wake. -/
theorem State.halyard_eq (s : State) (i : Nat) : ∃ r p, s.halyard i = { s with regs := r, pmu := p } := by
  unfold State.halyard State.reef1Leave
  dsimp only
  repeat' split
  all_goals exact ⟨_, _, rfl⟩

@[simp] theorem State.halyard_mem (s : State) (i : Nat) : (s.halyard i).mem = s.mem := by
  obtain ⟨r, p, h⟩ := s.halyard_eq i; rw [h]
@[simp] theorem State.halyard_pending (s : State) (i : Nat) : (s.halyard i).pending = s.pending := by
  obtain ⟨r, p, h⟩ := s.halyard_eq i; rw [h]
@[simp] theorem State.halyard_spine (s : State) (i : Nat) : (s.halyard i).spine = s.spine := by
  obtain ⟨r, p, h⟩ := s.halyard_eq i; rw [h]
@[simp] theorem State.halyard_serv (s : State) (i : Nat) : (s.halyard i).serv = s.serv := by
  obtain ⟨r, p, h⟩ := s.halyard_eq i; rw [h]
@[simp] theorem State.halyard_dom (s : State) (i : Nat) : (s.halyard i).dom = s.dom := by
  obtain ⟨r, p, h⟩ := s.halyard_eq i; rw [h]
/-- The registers that an event can change: PMU_HAL_STAT, and the level where Reef 1 ends. -/
theorem State.reg_halyard (s : State) (i k : Nat) (h : k ≠ kHalStat) (hl : k ≠ kLevel) : (s.halyard i).reg k = s.reg k := by
  have h1 := State.reg_setReg_other s kHalStat k (setBit (s.reg kHalStat) i true) (Ne.symm h)
  have h2 := State.reg_reef1Leave (s.setReg kHalStat (setBit (s.reg kHalStat) i true)) k hl
  unfold State.halyard
  dsimp only
  repeat' split
  all_goals first | rfl | exact h2.trans h1 | exact h1
theorem State.flag_halyard (s : State) (i k : Nat) (h : k ≠ kHalStat) (hl : k ≠ kLevel) : (s.halyard i).flag k = s.flag k := by
  simp [State.flag, s.reg_halyard i k h hl]

/-! ### Register writes (R25, R34) -/

/-- An address outside the common area and the global ring is no common write. -/
theorem State.commonWrite_none (s : State) (b a v : Nat) (h1 : ¬(commonBase b ≤ a ∧ a < commonBase b + 0x30))
    (h2 : ¬(0x40000DF8 ≤ a ∧ a < 0x40000F00)) : s.commonWrite b a v = none := by
  unfold State.commonWrite; simp only
  rw [if_neg (by omega), if_neg (by omega), if_neg (by omega), if_neg (by omega)]

/-- A command's register write in an FCLK block that answers, to a register that is powered: the checks, the report, and the write
taking effect. -/
theorem State.regCommand_eq (s : State) (a v b : Nat) (hb : blockOf a = some b) (hon : s.addrOn a = true) (hr : s.regOn a = true)
    (h5 : s.isUp 5 = true) (hal : aliasAddr 0 a = a) (h1 : ¬(commonBase b ≤ a ∧ a < commonBase b + 0x30))
    (h2 : ¬(0x40000DF8 ≤ a ∧ a < 0x40000F00)) (hx : crossesXt1 b = false) :
    s.regCommand a v = (s.reportAll b (s.checkWord b (a - blockBase b) v 0xFFFFFFFF).entries).takeWrite 0 b a
      (s.checkWord b (a - blockBase b) v 0xFFFFFFFF).ws := by
  simp [State.regCommand, State.busWrite, State.busWriteMask, hal, hb, hon, hr, h5, s.commonWrite_none b a _ h1 h2, hx]

end Sys2Proof.Machine
end

