-- ==== Sys2Proof/Machine/Package.lean ====
section
/-! DEFINITION. The balls of the package (R417–R420, R422): which group each of the 4,096 positions belongs to, the signals of
the bay fields, and the individual balls with their type, ring and state at AON power-on reset. These are fixed facts; no
command changes them. -/
namespace Sys2Proof.Machine

/-- Table 19-13: the row letters, index 1 first. -/
def rowLetters : List String :=
  let one := ["A", "B", "C", "D", "E", "F", "G", "H", "J", "K", "L", "M", "N", "P", "T", "U", "V", "W", "Y"]
  one ++ one.map ("A" ++ ·) ++ one.map ("B" ++ ·) ++ (one.take 7).map ("C" ++ ·)

/-- The name of the ball at a row index and a column. -/
def ballAt (row col : Nat) : String := rowLetters.getD (row - 1) "" ++ toString col

/-- Table 19-14: the groups of balls. -/
inductive BallGroup where
  | bay | vbay12 | vbayio | spine | sgmii | harvest | analogue | wake | gpio | console | shelf | clocks | jtag | trace | reset
  | vana | vaon | vio33 | vret | vcore | vmram | vio18 | vss | rsvd
  deriving DecidableEq, Repr

/-- The eight signals of a bay channel, in the order of R419. -/
inductive BaySignal where
  | gate | src | isp | isn | prs | flt | txd | rxd
  deriving DecidableEq, Repr

def BaySignal.place : BaySignal → Nat
  | .gate => 0 | .src => 1 | .isp => 2 | .isn => 3 | .prs => 4 | .flt => 5 | .txd => 6 | .rxd => 7

/-- R419: the row index and column of a channel's signal. -/
def bayBall (n : Nat) (sig : BaySignal) : Nat × Nat :=
  let g := n / 16
  (16 * (g % 4) + 1 + n % 16, if g < 4 then 2 * sig.place + 1 else 64 - 2 * sig.place)

/-- R419: the group of a ball in a bay field, by its distance from the edge column (1 for columns 1 and 64). -/
def bayField (row dist : Nat) : BallGroup :=
  if dist % 2 = 1 then .bay
  else if dist = 16 then (if (row - 1) % 16 < 4 then .vbay12 else if (row - 1) % 16 < 8 then .vbayio else .vss)
  else .vss

/-- R420: the core supply slots, and the place of one in the order in which they are taken. -/
def isSupplySlot (row col : Nat) : Bool := decide (6 ≤ row ∧ row ≤ 59 ∧ 18 ≤ col ∧ col ≤ 47) && (row + col) % 2 == 1
def supplyPlace (row col : Nat) : Nat := 15 * (row - 6) + (col - 18) / 2

/-- R420: the supplies in the order of their slots. -/
def supplyOf (k : Nat) : BallGroup :=
  if k < 24 then .vana else if k < 32 then .vaon else if k < 92 then .vio33 else if k < 152 then .vret
  else if k < 572 then .vcore else if k < 668 then .vmram else if k < 732 then .vio18 else if k < 792 then .vio33 else .vss

/-- R418: the group of the ball at a row index and a column. -/
def ballGroup (row col : Nat) : BallGroup :=
  if col ≤ 16 then bayField row col
  else if 49 ≤ col then bayField row (65 - col)
  else if isSupplySlot row col then supplyOf (supplyPlace row col)
  else match row with
    | 1 => .analogue
    | 2 => if col ≤ 24 then .analogue else .harvest
    | 3 => if col ≤ 32 then .harvest else if col ≤ 44 then .spine else .clocks
    | 4 => if col ≤ 20 then .clocks else if col ≤ 30 then .sgmii else if col ≤ 38 then .reset else if col ≤ 46 then .jtag else .vss
    | 5 | 60 => .rsvd
    | 61 => if col ≤ 24 then .console else if col ≤ 42 then .trace else .vss
    | 62 => if col ≤ 32 then .wake else .shelf
    | 63 | 64 => .gpio
    | _ => if (col = 17 ∨ col = 48) ∧ row ≤ 13 then .rsvd else .vss

/-- R422: the type of a ball: input, output, open-drain output, bidirectional, open-drain bidirectional, analogue, power. -/
inductive BallType where
  | input | output | openDrain | bidir | bidirOpenDrain | analogue | power
  deriving DecidableEq, Repr

inductive BallRing where
  | spine | aon | xt2 | vio33 | vio18 | sgmii | none
  deriving DecidableEq, Repr

/-- R422: the state at AON power-on reset. -/
inductive BallReset where
  | receive | low | high | input | pullDown | pullUp | oscillating | off | unused | highZ | fuse | released | unstated
  deriving DecidableEq, Repr

/-- An individual ball of Tables 19-15 to 19-17. -/
structure Ball where
  row : Nat
  col : Nat
  name : String
  typ : BallType
  ring : BallRing
  reset : BallReset
  deriving DecidableEq, Repr

/-- Balls of one kind from a column on. -/
def ballRun (row col : Nat) (t : BallType) (r : BallRing) (z : BallReset) (names : List String) : List Ball :=
  names.zipIdx.map (fun p => { row := row, col := col + p.2, name := p.1, typ := t, ring := r, reset := z })

/-- A numbered name for each of `n` balls, from number `k` on. -/
def numbered (s : String) (k n : Nat) : List String := (List.range n).map (fun i => s ++ toString (k + i))

/-- Table 19-15. -/
def balls15 : List Ball :=
  ballRun 3 33 .analogue .spine .receive ["SPA_P", "SPA_N", "SPB_P", "SPB_N"] ++ ballRun 3 37 .output .aon .low ["SP_TXD"] ++
  ballRun 3 38 .input .aon .input ["SP_RXD"] ++ ballRun 3 39 .output .aon .low ["SP_DE"] ++ ballRun 3 40 .output .aon .high ["SP_RE_N"] ++
  ballRun 3 41 .output .aon .low ["SP_TERM_A", "SP_TERM_B"] ++ ballRun 3 43 .input .aon .pullDown ["SP_ED"] ++
  ballRun 3 44 .analogue .spine .unstated ["SP_VREF"] ++ ballRun 3 45 .analogue .aon .oscillating ["XT1_IN", "XT1_OUT"] ++
  ballRun 3 47 .analogue .xt2 .off ["XT2_IN", "XT2_OUT"] ++ ballRun 4 17 .output .vio33 .low ["CLKOUT"] ++
  ballRun 4 18 .input .vio33 .pullDown ["FMEAS_IN", "XT2_BYP"] ++ ballRun 4 20 .input .vio33 .input ["CLK_SPARE"] ++
  ballRun 4 21 .analogue .sgmii .off ["SGM0_TX_P", "SGM0_TX_N", "SGM0_RX_P", "SGM0_RX_N"] ++
  ballRun 4 25 .analogue .sgmii .off ["SGM1_TX_P", "SGM1_TX_N", "SGM1_RX_P", "SGM1_RX_N"] ++
  ballRun 4 29 .analogue .sgmii .unused ["REFCLK_P", "REFCLK_N"] ++ ballRun 4 31 .input .aon .pullUp ["RST_N"] ++
  ballRun 4 32 .output .aon .low ["RSTOUT_N"] ++ ballRun 4 33 .input .aon .pullDown ["BOOT0", "BOOT1"] ++
  ballRun 4 35 .output .aon .low ["POR_OUT"] ++ ballRun 4 36 .output .aon .high ["WDT_OUT_N"] ++
  ballRun 4 37 .input .aon .pullDown ["STRAP0", "STRAP1"] ++ ballRun 4 39 .input .aon .pullUp ["TCK", "TMS", "TDI"] ++
  ballRun 4 42 .output .aon .highZ ["TDO"] ++ ballRun 4 43 .input .aon .pullDown ["TRST_N", "TEST_EN", "SCAN_EN"] ++
  ballRun 4 46 .output .aon .fuse ["DBG_LOCK"]

/-- Table 19-16, which states no ring and no reset state. -/
def balls16 : List Ball :=
  let a := fun c n => ballRun 2 c .analogue .none .unstated n
  let p := fun r c n => ballRun r c .power .none .unstated n
  ballRun 1 17 .analogue .none .unstated (numbered "ANA" 0 32) ++ a 17 ["VREF_OUT"] ++ p 2 18 ["VREF_GND"] ++
  p 2 19 (List.replicate 6 "AGND") ++ p 2 25 ["HVA_SW", "HVA_SW"] ++ a 27 ["HVA_FB", "HVA_SNS"] ++ p 2 29 ["HVB_IN", "HVB_IN"] ++
  a 31 ["HVB_SNS"] ++ p 2 32 ["HVB_LX", "HVB_LX"] ++ p 2 34 (List.replicate 6 "VSTORE") ++ a 40 ["VSTORE_SNS"] ++
  p 2 41 (List.replicate 6 "VSTBY") ++ p 2 47 ["CHG_LX", "CHG_LX"] ++ p 3 17 ["LX_AON", "LX_AON"] ++
  p 3 19 (List.replicate 6 "LX_MAIN") ++ ballRun 3 25 .analogue .none .unstated ["VCORE_FB"] ++ p 3 26 ["VBAK"] ++
  p 3 27 (List.replicate 6 "PGND")

/-- Table 19-17. -/
def balls17 : List Ball :=
  let cons := fun c n => ballRun 61 c .output .vio33 .high [n ++ "_TXD"] ++ ballRun 61 (c + 1) .input .vio33 .input [n ++ "_RXD", n ++ "_SCK"] ++
    ballRun 61 (c + 3) .input .vio33 .pullDown [n ++ "_CTS_N"]
  ballRun 62 17 .input .aon .input (numbered "WAKE" 0 16) ++ ballRun 64 17 .bidir .vio33 .input (numbered "GPIO" 0 32) ++
  ballRun 63 17 .bidir .vio33 .input (numbered "GPIO" 32 32) ++ cons 17 "CONS0" ++ cons 21 "CONS1" ++
  ballRun 61 25 .output .vio18 .low (numbered "TRC_D" 0 16) ++ ballRun 61 41 .output .vio18 .low ["TRC_CLK", "TRC_CTL"] ++
  ballRun 62 33 .output .aon .low ["PSU_EN"] ++ ballRun 62 34 .input .aon .input ["PSU_PG", "PSU_ALERT_N"] ++
  ballRun 62 36 .output .vio33 .low (numbered "FAN_EN" 0 4) ++ ballRun 62 40 .input .vio33 .pullUp (numbered "FAN_TACH" 0 4) ++
  ballRun 62 44 .openDrain .vio33 .released ["SHELF_INT_N"] ++ ballRun 62 45 .output .vio33 .low ["LED_DAT", "LED_CLK"] ++
  ballRun 62 47 .bidirOpenDrain .vio33 .released ["SHELF_ID_SDA", "SHELF_ID_SCL"]

/-- Table 19-19 (R424): the GRADE that an ordering code reads back; the codes differ in their last letter. -/
def orderGrade (code : String) : Option Nat :=
  if code = "EBZ64-A1-BG4096-C" then some 0 else if code = "EBZ64-A1-BG4096-E" then some 1 else none

end Sys2Proof.Machine
end

