-- ==== Sys2Proof/Machine/Pads.lean ====
section
/-! DEFINITION. What the digital output balls show (R89, R240, R369, R396, R397, R401, R402, R406, R422), read from State; no command
changes more than State for them. `none` is high impedance. The levels are those outside EXTEST and CLAMP, whose boundary cells only
the BSDL file maps to balls (R400). -/
namespace Sys2Proof.Machine

/-- R400, R406: a level reaches its ball while the ring is supplied and HIGHZ is not in force. -/
def State.pad (s : State) (supplied : Bool) (level : Option Bool) : Option Bool :=
  if supplied && !s.serv.tap.hiz then level else none

/-! ### The AON ring -/

def State.ballPsuEn (s : State) : Option Bool := s.pad s.aon (some s.serv.psuBall)
def State.ballRstOutN (s : State) : Option Bool := s.pad s.aon (some !s.boot.rstOutLow)
def State.ballPorOut (s : State) : Option Bool := s.pad true (some s.aon)
def State.ballWdtOutN (s : State) : Option Bool := s.pad s.aon (some !s.boot.wdtLow)
def State.ballDbgLock (s : State) : Option Bool := s.pad s.aon (some s.debugLocked)
/-- R240: the outputs SP_TERM_A and SP_TERM_B follow TERM_A and TERM_B. -/
def State.ballSpTermA (s : State) : Option Bool := s.pad s.aon (some (s.flag (fk 0x4000A000 8)))
def State.ballSpTermB (s : State) : Option Bool := s.pad s.aon (some (s.flag (fk 0x4000A000 9)))
/-- R240: SP_RE_N is low while an external transceiver's receiver is enabled: with EXT = 1 on an enabled spine (log entry 157). -/
def State.ballSpReN (s : State) : Option Bool := s.pad s.aon (some !(s.flag (fk 0x4000A000 6) && s.flag kSpineEn))
/-- R240: SP_DE is high while the Ebzin drives an external transceiver, and SP_TXD carries the frame then. A frame is sent within one
step, so that both are low in every state (log entry 157). -/
def State.ballSpDe (s : State) : Option Bool := s.pad s.aon (some false)
def State.ballSpTxd (s : State) : Option Bool := s.pad s.aon (some false)

/-! ### The VIO33 and VIO18 rings -/

/-- R396: what the pads of domain 05 drive: their registers, or what they held when those were lost. -/
def State.padDrive (s : State) : PadHold := s.serv.held.getD s.padsNow

/-- R396: a GPIO pin drives its output value while its direction is output. -/
def State.ballGpio (s : State) (n : Fin 64) : Option Bool :=
  s.pad s.serv.io.vio33 (if bit s.padDrive.dir n then some (bit s.padDrive.out n) else none)

/-- R397: a fan enable. -/
def State.ballFanEn (s : State) (k : Fin 4) : Option Bool := s.pad s.serv.io.vio33 (some (bit s.padDrive.fan k))
/-- R397: SHELF_INT_N, open drain: low while SHELF_CTRL.INT is 1. -/
def State.ballShelfIntN (s : State) : Option Bool := s.pad s.serv.io.vio33 (if s.padDrive.int then some false else none)

/-- R89, R406: CLKOUT. -/
def State.ballClkout (s : State) : ClkOut := if s.serv.tap.hiz then .highZ else s.clkout

/-- R402: the trace port's next word, TRC_CTL as bit 16: the head of the FIFO, or 0xFFFF with TRC_CTL low while it is empty. -/
def State.ballTrace (s : State) : Option Nat :=
  if s.serv.io.vio18 && !s.serv.tap.hiz && s.isUp 71 && !s.debugLocked then some (s.serv.trace.headD 0xFFFF) else none

/-! ### The VBAYIO rings -/

/-- R310, R313: BAY_TXD of a channel is driven while EN is 1 and the group is released; between characters it idles at 1 (log entry
157). -/
def State.ballBayTxd (s : State) (n : Fin 128) : Option Bool :=
  s.pad (s.bayRing n) (if s.isUp (55 + n.val / 16) && s.flag (kBayu n 0 0) then some true else none)

/-- R313: with MODE = 1 on a released group BAY_FLT is the clock output, which idles low between characters (log entry 157). -/
def State.ballBayFlt (s : State) (n : Fin 128) : Option Bool :=
  s.pad (s.bayRing n) (if s.isUp (55 + n.val / 16) && s.flag (kBayu n 0 1) then some false else none)

/-! ### Analogue outputs -/

/-- Table 13-1: how a channel's gate is driven. -/
inductive GateDrive where
  | heldAtSource | charging | full
  deriving DecidableEq, Repr

/-- R295, R301: the gate of a channel by its state; a group that is not released holds each gate at its source. -/
def State.bayGate (s : State) (n : Fin 128) : GateDrive :=
  if !s.bayUp n then .heldAtSource else
  match (s.bayCh n).st with
  | 1 => .charging
  | 2 => .full
  | _ => .heldAtSource


/-- R326: the buffer drives VREF_OUT while REF_OUT is 1 and the reference is on. -/
def State.drivesVrefOut (s : State) : Bool := s.isUp 54 && s.flag (fk 0x40010000 4)

end Sys2Proof.Machine
end

