-- ==== Sys2Proof/WellFormed.lean ====
section
/-! DEFINITION. Which commands are well formed: the operands that their types leave too wide. Numbers of cores, slots, channels,
cleats and fields of fixed width are bounded by their types already. -/
namespace Sys2Proof

/-- R269: a command's parameters are at most 1,024 bytes; a mailbox's packet is at most 224 bytes, 16 of them around them. -/
def CmdIn.wf (c : CmdIn) : Bool :=
  match c.src with
  | .mailbox _ => decide (c.params.length ≤ 208)
  | _ => decide (c.params.length ≤ 1024)

/-- A well-formed command: bus data of a legal size within one doubleword, requesters that exist, blocks that exist, frames and
packets as long as their headers. -/
def Instr.wf (i : Instr) : Bool :=
  match i with
  | .discard block => decide (block.toNat < 0x1D)
  | .xsyncComplete block => decide (block.toNat < 0x1D)
  | .gaugeUpdate _ _ _ cycles => decide (0 < cycles)
  | .beacon _ _ per => decide (0 < per)
  | .writeThroughStore _ a d => decide (d.length = 1 ∨ d.length = 2 ∨ d.length = 4 ∨ d.length = 8) && decide (a.toNat % d.length = 0)
  | .nonCachingWrite a d => decide (0 < d.length ∧ a.toNat % 8 + d.length ≤ 8)
  | .catalogWrite a d => decide (0 < d.length ∧ a.toNat % 8 + d.length ≤ 8)
  | .arbRequest inst k beats _ _ => decide (k.val ≤ Machine.arbLastReq (if inst.val < 20 then inst.val else inst.val - 20) ∧ 0 < beats.val)
  | .udpDatagram _ frame => decide (14 ≤ frame.length)
  | .errRecord _ _ _ _ _ _ _ _ detail => decide (detail.length ≤ 7)
  | .ethernetFrame _ frame => decide (14 ≤ frame.length)
  | .arpRequest _ frame => decide (14 ≤ frame.length)
  | .icmpEcho _ frame => decide (14 ≤ frame.length)
  | .tracePacket _ kind payload => decide (payload.length = (match kind.toNat with | 1 => 2 | 2 => 4 | 3 => 1 | 4 => 2 | _ => 0) ∧ 0 < payload.length)
  | .spineFrameDiscarded _ _ nbits bytes => decide (bytes.length = (nbits + 7) / 8)
    | .nop c | .ident c | .cfgSet c | .cfgGet c | .regRead c | .rptRead c | .rptClear c | .warmReset c | .powerStat c |
    .reefReq c | .shelfWake c | .shelfSleep c | .powerSet c | .bayStat c | .baySet c | .gangStart c | .gangStop c | .bayRestart
    c | .serSend c | .serRecv c | .catLookup c | .catPut c | .catDelete c | .catRead c | .catWrite c | .catRegion c | .tenStat c
    | .tenSeg c | .tenActivate c | .tenReset c | .tenLoad c | .slotStat c | .cleatRead c | .cleatWrite c | .cleatAcquire c |
    .arbSet c | .gaugeRead c | .harvSet c | .timeGet c | .timeSet c | .alarmSet c | .adcSet c | .adcTable c | .adcRingRead c |
    .sfuTableLoad c | .sfuTableCrc c | .sfuRun c | .norRead c | .norErase c | .norProgram c | .imageActivate c | .keyLoad c |
    .keyClear c | .attest c | .attestKey c | .unlockChallenge c | .unlockResponse c | .errRead c | .errPop c | .errStat c =>
    c.wf
    | .registerWrite _ _ | .clr _ | .frameTick | .latchEdge | .mpptSampleEnd _ _ | .keepCellLoad | .keepCellLoss |
    .loadReconnect | .aonPorRelease _ _ | .stbyUp | .stbyLost | .loadCut | .loadSwitchOpen | .fullRise | .fullClear | .storeLow
    | .storeLowEnd | .storeLowForcedEntry | .pmuReefReq _ | .entrySequenceStart | .entrySwitchOff | .reef1Entry | .reef1Exit |
    .fullWakeStart | .wakeDomainRelease _ | .wakeComplete | .domainRelease _ | .wakePinEdge _ _ | .wakePinUnmask _ |
    .wakePinWrite _ _ | .xt1Judged | .xt1Fail | .xt2Ok | .pllLock _ | .xt2Fail | .xt2Stop | .pllLockLoss _ | .clkoutChange |
    .start _ | .fmeasDone _ | .unanchored | .bkpSupplyChangeover _ | .bkpPor | .secondRollover | .halted | .rtcResume | .capture
    | .load | .alu _ _ | .addi _ _ | .andi _ _ | .ori _ _ | .xori _ _ | .slti _ _ | .shi _ _ | .lui _ _ | .addpc _ _ | .ldw _ _
    | .ldh _ _ | .ldhu _ _ | .ldb _ _ | .ldbu _ _ | .stw _ _ | .sth _ _ | .stb _ _ | .ldd _ _ | .std _ _ | .aadd _ _ | .aswp _ _
    | .acas _ _ | .beq _ _ | .bne _ _ | .blt _ _ | .bge _ _ | .bltu _ _ | .bgeu _ _ | .jmp _ _ | .call _ _ | .jalr _ _ | .fence
    _ _ | .syscall _ _ | .brk _ _ | .wfe _ _ | .wft _ _ | .wftTimeout _ | .sev _ _ | .mfc _ _ | .mtc _ _ | .ldseg _ _ | .tret _
    _ | .sfuq _ _ | .cache _ _ | .prfm _ _ | .ccInterrupt | .irqAck _ | .storeDrain _ | .busErr _ | .cntClr _ | .evpend _ _ |
    .parked _ | .ovrBudget _ | .init _ | .frameOvrClr | .tenResetGo _ | .tenResetComplete | .doorbell _ _ | .tenEventPost _ |
    .readMiss _ _ | .own _ _ | .nonCachingRead _ | .evictionNotice _ _ | .catalogRead _ _ | .writeAttempt _ _ _ | .mapUpdate _ |
    .summaryRebuildStart | .summaryRebuildDone _ | .scrubRead _ | .go _ _ | .dmaTransferStart _ | .dmaBeat _ | .dmaEnd _ |
    .dmaCntClr | .unwrap _ | .clearKey _ | .sha256 _ | .verifyImage | .verifyUnlock | .signAttest | .random | .attestPub |
    .cryptOperationEnd | .kek _ _ | .cryptCntClr | .memctlCntClr | .catCntClr | .xramClr | .arbDecision _ | .arbCntClr |
    .cleatValueWrite _ _ _ | .cleatAcas _ _ _ _ | .cleatWaitRead _ _ _ | .cleatLeaseWrite _ _ | .waitTimeout _ | .leaseExpired _
    | .waitBroken | .lockCntClr | .energyDetect _ | .catalogBankReady _ | .excursionTimeout | .foreignFrame _ _ _ | .query _ _ _
    _ | .probe _ _ _ | .status | .wakeShelf | .sleepShelf | .ticketFetch _ _ | .gauge | .time | .cmdChunk _ _ | .replyStart |
    .slotEnd | .headBeacon _ | .probeRptPost _ | .reportFragment _ | .undelivered | .pairTx | .pair _ | .pairAck _ | .pairMiss |
    .jabber _ | .stuck _ | .edMaskTestEnd _ _ | .setWake | .setSleep | .probeChunkRel | .spineCntClr | .probeCntClr |
    .commandStart | .commandComplete | .cleatAcquireRetry | .channelStart _ | .channelStop _ | .restart _ | .gangCmdStart _ |
    .gangCmdStop _ | .rampEnd _ _ | .shortTrip _ | .backoffExpiry _ | .vb12OkRise _ | .bayUv _ | .prsChg _ _ | .flt _ _ |
    .inputUnmask _ _ | .bayuTx _ _ | .characterReceived _ _ _ _ | .bayuRx _ | .bayuRingMove _ | .receiverAdmission _ |
    .bayuCntClr | .converterStart _ | .conversionDone _ _ | .adcRingMove | .refOk | .seqEntryWrite _ _ _ | .adcCntClr |
    .sfuJobStart _ | .sfuJobEnd _ | .tableWrite _ _ | .stdReady | .sfuCntClr | .errDone | .errPopWrite _ | .fatalResetDue |
    .rstN _ | .warm _ | .warmResetStart | .warmResetEnd _ _ | .romBoot _ | .warmPath | .eraseSector | .eraseBlock | .program _ |
    .norCheckDone | .norOperationDone _ | .norVerifyDone | .norWindowRead _ | .eraseResume | .recLock | .linkUp _ _ | .linkDown
    _ | .consoleByte _ _ | .consoleFrame _ | .gpioEvent _ _ | .psuPg _ | .psuAlert _ | .pgTimeout | .ledShift _ | .extest _ _ |
    .samplePreload _ _ | .idcode | .clamp | .highz | .jtagDebug | .bypass _ | .trstN | .reservedMajorOpcode _ _ _ | .falseStart
    _ | .characterShiftedOut _ | .fanTachEdge _ | .wdtOutNRelease => true

end Sys2Proof
end

