-- ==== Sys2Proof/Tests/Slice0.lean ====
section
/-! SUPPORT. Tests: ill-formed terms that the checks refuse, the manual's worked examples, and for each statement a concrete state
that meets its hypotheses. -/
namespace Sys2Proof.Tests
open Sys2Proof Sys2Proof.Machine
set_option Elab.async false

/-! ### Helpers -/

/-- Reset with every domain released, the control core in the state of its reset, and the allowance at 7. -/
def lit : State :=
  (({ State.reset with dom := (List.range 72).map (fun d => (d, DomSt.up)) } : State).setReg kAllow 7).setCore 0 (resetCore 0)

/-- Reset with every domain released, and the harvester in a given state. -/
def harv (h : Harv) : State := { lit with harv := h }

/-- Cyntoux runs and accepts commands. -/
def cyn : State := { lit with boot := { lit.boot with accepting := true, starting := false } }

/-- The state a command answers. -/
def after (o : Out) : State := match o with | .next t => t | _ => State.reset

/-- A command from the spine with some parameters. -/
def cmd (params : List Byte) : CmdIn := { src := .spine, tenant := 0#8, prio := 7#8, seq := 1#16, params := params }

/-- Core 0 with some changes, all domains released. -/
def cc (f : Core → Core) : State := lit.setCore 0 (f (resetCore 0))

/-- Slot n of tenant t runs in T mode on a tenant core. -/
def tc (core n t : Nat) (f : Core → Core) (s : State) : State :=
  ((s.setReg (fk (0x40004100 + 0x10 * n) 0) t).setSlot n { s.slot n with state := 2 }).setCore core
    (f { resetCore core with run := .running, slot := some n })

/-- Some refuses: a predicate is false. -/
abbrev refused (i : Instr) : Prop := i.wf = false

/-! ### Ill-formed commands are refused -/

theorem wf_discard : refused (.discard 0x1D) ∧ (Instr.discard 0x1C).wf = true := by decide +kernel
theorem wf_xsync : refused (.xsyncComplete 0x3F) := by decide +kernel
theorem wf_gauge : refused (.gaugeUpdate 0 0 0 0) ∧ (Instr.gaugeUpdate 0 0 0 1).wf = true := by decide +kernel
theorem wf_beacon : refused (.beacon { ports := 0, a := 0, b := 0 } 0 0) := by decide +kernel
theorem wf_store : refused (.writeThroughStore 0 0#32 [0, 0, 0]) ∧ refused (.writeThroughStore 0 2#32 [0, 0, 0, 0]) := by decide +kernel
theorem wf_ncWrite : refused (.nonCachingWrite 5#32 [0, 0, 0, 0]) := by decide +kernel
theorem wf_catWrite : refused (.catalogWrite 0#32 []) := by decide +kernel
theorem wf_arb : refused (.arbRequest 16 4 1 0 0) ∧ refused (.arbRequest 16 3 0 0 0) ∧ (Instr.arbRequest 16 3 1 0 0).wf = true := by decide +kernel
theorem wf_udp : refused (.udpDatagram false []) := by decide +kernel
theorem wf_errRecord : refused (.errRecord 0 0 0 0 0 0 0 0 (List.replicate 8 0)) := by decide +kernel
theorem wf_eth : refused (.ethernetFrame false []) ∧ refused (.arpRequest false []) ∧ refused (.icmpEcho true []) := by decide +kernel
theorem wf_trace : refused (.tracePacket 0 1 [0]) ∧ refused (.tracePacket 0 5 []) := by decide +kernel
theorem wf_discarded : refused (.spineFrameDiscarded false 0x33 72 []) := by decide +kernel
theorem wf_params : refused (.ident { cmd [] with params := List.replicate 1025 0 }) ∧
    refused (.ident { cmd [] with src := .mailbox 0, params := List.replicate 209 0 }) := by decide +kernel

/-! ### The manual's worked examples -/

/-- Chapter 3: the energies at 3,300 mV, 3,288 mV and 3,000 mV with 1 F and STORE_CUT 2.20 V. -/
theorem test_gauge_energy : gaugeEnergy 3300 2200 1000 = 3025000 ∧ gaugeEnergy 3288 2200 1000 = 2985472 ∧
    gaugeEnergy 3000 2200 1000 = 2080000 := by decide +kernel

/-- Chapter 2, Table 2-5. -/
theorem test_report_entries : rptEntry 0x1002 0 16 = 0x10020010 ∧ rptEntry 0x5D2A 3 200 = 0x5D2A30C8 ∧
    rptEntry 0x0005 2 9 = 0x00052009 ∧ rptEntry 0x4000 4 30 = 0x4000401E := by decide +kernel

/-- Chapter 6: 2031-03-14 is a Friday; chapter 6 also: 2031-01-01 is a Wednesday. -/
theorem test_wday : wday 31 3 14 = 5 ∧ wday 31 1 1 = 3 := by decide +kernel

/-- Chapter 7: the fields of 0x31518010, an LDW. -/
theorem test_ldw_fields : 0x31518010 / 2 ^ 26 = 0x0C ∧ wD 0x01518010 = 5 ∧ wA 0x01518010 = 4 ∧ wSegM 0x01518010 = 3 ∧
    sImm15 0x01518010 = 16#32 := by decide +kernel

/-- Chapter 7: tenant 12's s3, an access inside it and one beyond its limit. -/
theorem test_segment_window :
    let sg := segOf (leBytes 0x20400000 4 ++ leBytes 0xC303FFFF 4 ++ leBytes 0x0000020C 4 ++ leBytes 0 4)
    sg = { base := 0x20400000, limit := 0x3FFFF, typ := 3, rights := 12, tag := 12, cache := 2 } ∧
    checkSeg sg true 12 8 0x3FFF8 4 true = none ∧ checkSeg sg true 12 8 0x40008 4 true = some 1 := by decide +kernel

/-- Chapter 9: the buckets of key 0x3A7C51E29B64, its summary bit and its map byte. -/
theorem test_buckets : bucketsOf 12 64 0x3A7C51E29B64 = (0x42D900, 0x431440) ∧ mapIdx 0x431450 = 0x218A ∧
    mapByte 0x431450 = 0x23F10C51 := by decide +kernel

/-- Chapter 9, Table 9-9: the word is poisoned after four attempts. -/
def poisoned : State :=
  let t := after (execCatalogWrite 0x20431450#32 [1, 2, 3, 4, 5, 6, 7, 8] lit)
  (List.range 4).foldl (fun s _ => after (execWriteAttempt true false 0 s)) t
theorem test_write_poisoned : poisoned.cat.mapDue.map (fun d => (d.offs, d.poison, d.report.map (fun r => (r.code, r.address)))) =
    [([0x431450], true, some (1, 0x20431450))] := by decide +kernel
/-- The map update that follows sets bit 2 of byte 0x23F10C51. -/
theorem test_map_update :
    let s : State := { lit with cat := { lit.cat with mapDue := [{ offs := [0x431450], poison := true, report := none, retires := false }] } }
    (after (execMapUpdate false s)).rd 0x23F10C51 = 4#8 := by decide +kernel

/-- Chapter 10, Table 10-2: the winners at CAT3. -/
def bank3 (s : State) (k beats : Nat) : State :=
  s.setArb 3 { s.arb 3 with standing := (s.arb 3).standing ++ [{ k := k, beats := beats, prio := 4, tenant := none }] }
def table102 : State :=
  let s := lit.setReg (kArb 3 12 16) 3
  bank3 (bank3 (bank3 (s.setArb 3 { s.arb 3 with last := 10 }) 5 1) 6 1) 10 1
theorem test_arbiter_turns :
    let winner := fun s : State => ((s.arb 3).burst.map (·.1))
    let a1 := table102.arbDecide 3
    let a2 := (bank3 a1 5 1).arbDecide 3
    let a3 := (bank3 a2 6 1).arbDecide 3
    let a4 := (bank3 a3 5 1).arbDecide 3
    [winner a1, winner a2, winner a3, winner a4] = [some 5, some 6, some 5, some 10] ∧ a4.reg (kArb 3 0x14 0) = 1 := by
  decide +kernel

/-- Chapter 10, Table 10-5: slots 4 and 5 of tenant 7, slot 10 of tenant 9. -/
def lockers : State :=
  let s := tc 3 10 9 (fun k => { k with tmode := true }) (tc 2 5 7 (fun k => { k with tmode := true })
    (tc 1 4 7 (fun k => { k with tmode := true }) ((lit.setReg (fk 0x40006120 0) 0x280).setReg (fk 0x40006000 0) 1)))
  [(4, 5), (5, 3), (10, 6)].foldl (fun s e => (s.setReg (fk (0x40004100 + 0x10 * e.1) 12) e.2).setReg
    (fk (0x40004100 + 0x10 * e.1) 15) 1) s
def waiting : State :=
  let l3 := after (execCleatWaitRead 3 32 3 (after (execCleatWaitRead 2 33 3 (after (execCleatWaitRead 1 32 3 lockers)))))
  after (execCleatWaitRead 2 32 3 (after (execCleatWaitRead 1 33 3 l3)))
theorem test_wait_cycle : (waiting.cleat 32).value = 0x01000704 ∧ (waiting.cleat 33).value = 0x01000705 ∧
    waiting.effPrio 4 = 6 ∧ waiting.effPrio 5 = 6 ∧ waiting.waitCycle = [4, 5, 10] ∧ waiting.victim [4, 5, 10] = some 5 := by
  decide +kernel
theorem test_wait_broken : ((after (execWaitBroken waiting)).core 2).g.getD 3 0#32 = 0x80000004#32 := by decide +kernel

/-- Chapter 11: the query's CRC-8 and the POISONED reply. -/
theorem test_spine_crcs : crc8 [0x54#8, 0x0C, 0x3A, 0x7C, 0x51, 0xE2, 0x9B, 0x64] = 0x37 ∧
    replyBytes 6 0 = [0x55#8, 0x60, 0, 0, 0, 0, 0, 0, 0, 0, 0xE0, 0x57] := by decide +kernel

/-- Chapter 12: the CRCs of "123456789". -/
theorem test_crcs : let l := (List.range 9).map (fun i => BitVec.ofNat 8 (0x31 + i))
    crc16 l = 0x29B1 ∧ crc32c l = 0xE3069283 := by decide +kernel

/-- Chapter 12: CFG_SET with three pairs; the first 12 bytes of its reply and its three entries. -/
def cfgPairs : List Byte := [0x02, 0x10, 0x10, 0, 0, 0, 0x03, 0x04, 0x0F, 0, 0, 0, 0x0C, 0x44, 3, 0, 0, 0]
def cfgSet : State :=
  after (execCfgSet { src := .spine, tenant := 0x40#8, prio := 5#8, seq := 0x0102#16, params := cfgPairs } (cyn.setReg kSpineEn 1))
theorem test_cfg_set_reply : (cfgSet.cyn.kept.map (fun k => k.reply.map (fun l => (l.take 12, (l.drop 14).take 12)))) =
    [some ([0xEC#8, 1, 2, 0, 0x40, 3, 1, 0, 2, 1, 0x0C, 0], [0x10#8, 0, 2, 0x10, 0x0F, 0x10, 3, 4, 3, 0x20, 0x0C, 0x44])] := by
  decide +kernel
theorem test_cfg_set_entries : cfgSet.gring.slots = [(0, 0x10020010), (1, 0x0403100F), (2, 0x440C2003)] ∧
    cfgSet.pendingVal (fk 0x40001004 0) = some 14 := by decide +kernel

/-- Chapter 15, Table 15-9: SOFTMAX over eight values. -/
theorem test_softmax : (lit.setFlag kStdReady true).rowOp 6 0 0 [2048, 1024, 0, -1024, 4096, 3072, -2048, 512] =
    { value := 86456, index := 4, out := some [4568, 2771, 1680, 1020, 12420, 7534, 618, 2158], sat := false } := by decide +kernel

/-- Chapter 16: the bytes of a record. -/
theorem test_error_record : ({ cls := 1, source := 8, tenant := 12, count := 1, code := 1, address := 0x20431450, frame := 0x12345, stamp := 0xA7, offset := 0x31450, segment := 3, detail := [4] } : ErrRec).bytes =
    [0x01#8, 0x08, 0x0C, 0x01, 0x01, 0, 0, 0, 0x50, 0x14, 0x43, 0x20, 0x45, 0x23, 0x01, 0, 0xA7, 0, 0, 0, 0x50, 0x14, 0x03, 0,
      0x03, 4, 0, 0, 0, 0, 0, 0] := by decide +kernel

/-- Chapter 14: bay 37 midway through its ramp: codes 99 and 1,500. -/
theorem test_adc_word :
    let s : State := { lit with adc := { lit.adc with conv := [(1, { running := true, w0 := 0x00103F45, w1 := 28, beganOk := true })] } }
    (after (execConversionDone 1 49500 s)).adc.fifo = [(1, 1, 0x00040063)] := by decide +kernel

/-- Chapter 17: programming 12 34 56 78 over FF FF 3C FF with AND_PROGRAM. -/
theorem test_nor_and :
    let s := ({ lit with boot := { lit.boot with nor := { state := 2, op := 3, addr := 0x330100, data := [0x12, 0x34, 0x56, 0x78], and := true } } }
      : State).wr 0x01330102 0x3C#8
    (after (execNorOperationDone none s)).rdBytes 0x01330100 4 = [0x12#8, 0x34, 0x14, 0x78] := by decide +kernel

/-! ### Witnesses: states and operands that meet the hypotheses of the statements, clause by clause -/

theorem witness_IdleStep : State.reset.pending = [] := by decide +kernel
theorem witness_CommandsLeaveQueue : ∃ t, exec .xt1Judged lit = .next t := ⟨_, rfl⟩
theorem witness_StepKeepsCanonical : lit.canonical = true ∧ (∃ t, step lit = .next t) := ⟨by decide +kernel, ⟨_, rfl⟩⟩

/-- A field of each type, class and range of the checks: RO, STOPPED in a running block, an enumeration, a range, a range or 0. -/
theorem witness_FieldChecks :
    (∃ f ∈ (regDef 0x04 0x010).getD [], f.ty = .ro) ∧
    (∃ f ∈ (regDef 0x17 0x000).getD [], f.ty = .rw ∧ f.cls = .stopped) ∧
    (({ lit with bay := { lit.bay with ch := [(0, { st := 2 })] } } : State).setReg (kBayCh 0 0 0) 1).running 0x17 0x000 = true ∧
    (∃ f ∈ (regDef 0x00 0x010).getD [], f.ty = .rw ∧ f.cls = .live ∧ f.rng = .enumOf [0, 1, 2, 3, 4]) ∧
    (∃ f ∈ (regDef 0x00 0x000).getD [], f.rng = .rg 0 1) ∧ (∃ f ∈ (regDef 0x00 0x004).getD [], f.rng = .any) := by decide +kernel

theorem witness_RegisterWrite :
    (blockOf 0x40004004 = some 4 ∧ lit.addrOn 0x40004004 = true ∧ lit.isUp 5 = true ∧ crossesXt1 4 = false ∧
      ¬(commonBase 4 ≤ 0x40004004 ∧ 0x40004004 < commonBase 4 + 0x30)) ∧
    (blockOf 0x40001004 = some 1 ∧ lit.addrOn 0x40001004 = true ∧ crossesXt1 1 = true ∧
      (lit.checkWord 1 4 0x808 0xFFFFFFFF).ws ≠ [] ∧ ¬(commonBase 1 ≤ 0x40001004 ∧ 0x40001004 < commonBase 1 + 0x30)) ∧
    State.reset.addrOn 0x40006100 = false := by decide +kernel

theorem witness_FieldsTakeEffect :
    (∃ f, fldOf (fk 0x40000000 0) = some f ∧ f.ty = .rw ∧ f.cls ≠ .frame) ∧ (∃ f, fldOf (fk 0x40004004 0) = some f ∧ f.ty = .rw ∧ f.cls = .frame) ∧
    (∃ f, fldOf (kHarvEvent 0) = some f ∧ f.ty = .w1c) ∧ (∃ f, fldOf kFrameNum = some f ∧ f.ty = .ro) := by
  refine ⟨⟨_, rfl, ?_⟩, ⟨_, rfl, ?_⟩, ⟨_, rfl, ?_⟩, ⟨_, rfl, ?_⟩⟩ <;> decide +kernel

theorem witness_Xsync : ({ lit with crossing := [{ block := 1, addr := 0x40001004, writes := [(fk 0x40001004 0, 9)] }] } : State).crossing.map
    (·.block) = [(1#6).toNat] := by decide

theorem witness_Discard : blockOf (commonBase 4 + 4) = some 4 ∧ lit.addrOn (commonBase 4 + 4) = true ∧ lit.isUp 5 = true ∧
    lit.xsync 4 = false ∧ inBlock 4 (fk 0x40004004 0) = true ∧ inBlock 4 (fk 0x40002000 0) = false := by decide +kernel

theorem witness_Clr : blockOf (commonBase 4 + 8) = some 4 ∧ lit.addrOn (commonBase 4 + 8) = true ∧ lit.isUp 5 = true ∧ lit.xsync 4 = false ∧
    lit.aon = true ∧ lit.xsync 0 = false := by decide +kernel

theorem witness_Gauge : lit.aon = true ∧ lit.domSt 4 ≠ .off ∧ lit.cat.hold15 = false ∧
    3 ≤ (lit.publish 3300 0 0 32).reg kAllow ∧ ((State.reset.setReg kAllow 1).publish 2200 0 0 32).reg kAllow = 1 ∧
    (let thr := fun k => lit.allowE k + (if lit.allow < k then lit.reg (fk 0x40001018 0) else 0)
     (∀ k ∈ [2, 3, 4, 5, 6], thr k ≤ 3025000 → k ≤ 6) ∧ thr 6 ≤ 3025000 ∧ (∀ k ∈ [2, 3, 4, 5, 6], ¬thr k ≤ 0)) := by decide +kernel

theorem witness_Samples : (harv { lit.harv with sampling := some false }).harv.sampling = some false ∧
    (harv { lit.harv with sampling := some true }).aon = true ∧ (lit.setFlag (kHarvStat 2) true).flag (kHarvStat 2) = true ∧
    State.reset.vstbyOk = false ∧ State.reset.storeLow = false ∧ (lit.setFlag (kHarvStat 3) true).storeLow = true ∧
    (((harv { lit.harv with lowTicks := some 4 }).setFlag (kHarvStat 3) true).harv.lowTicks = some 4) ∧ lit.harv.st = .harvest ∧
    (harv { lit.harv with cutDecided := true }).cat.wb.all (fun e => !e.started) = true ∧ lit.cat.mapDue = [] := by decide +kernel

theorem witness_KeepCell : (harv { lit.harv with kept := false }).harv.kept = false ∧ (harv { lit.harv with kept := true }).harv.kept = true ∧
    (harv { lit.harv with kept := true, st := .bare }).harv.st = .bare ∧ (harv { lit.harv with st := .empty }).harv.st = .empty ∧
    lit.harv.st = .harvest ∧ lit.harv.por = false ∧ (harv { lit.harv with st := .standby }).harv.st = .standby ∧
    (harv { lit.harv with por := true }).harv.por = true := by decide +kernel

theorem witness_Reef :
    (lit.setFlag kPsuEn true).flag kPsuEn = true ∧ (lit.baysActive = false ∧ lit.flag kPsuEn = false ∧ lit.reg kPhase = 0 ∧
      lit.flag kWakeSeq = false ∧ lit.flag kSleepSeq = false ∧ lit.pmu.req = none) ∧
    (lit.setReg kPhase 2).reg kPhase ≠ 0 ∧ lit.err.fatal = none ∧ lit.cat.wb = [] ∧ lit.cat.mapDue = [] ∧
    (let s : State := { lit with pmu := { lit.pmu with req := some 2, entry := some 3, req1 := true } }
     s.pmu.req = some 2 ∧ (s.setReg kPhase 1).reg kPhase = 1 ∧ s.pmu.entry = some 3) ∧
    (let s : State := { lit with pmu := { lit.pmu with req1 := true } }
     (s.setCore 0 { s.core 0 with run := .wfe }).reef1Ok = true) ∧
    (let s : State := (({ lit with pmu := { lit.pmu with wakeEv := 1 } } : State).setReg kLevel 3).setReg kHalStat 1
     2 ≤ s.reg kLevel ∧ s.reg kPhase = 0 ∧ 2 ≤ s.allow ∧ s.wakeCause ≠ 0) ∧
    (let s := ((lit.setReg kPhase 2).setFlag (kClkStat 1) true).setFlag (kClkStat 2) true
     (s.setFlag (kClkStat 3) true).wakeDone = true) := by decide +kernel

theorem witness_DomainRelease : (lit.setDom 6 .rising).domSt 6 = .rising ∧ (lit.setDom 69 .off).domSt 69 = .off ∧
    (lit.setDom 11 .resuming).domSt 11 = .resuming ∧ (lit.setDom 12 .retained).domSt 12 = .retained ∧ (lit.setReg kPhase 2).reg kPhase = 2 ∧
    lit.domSt 5 = .up ∧ bit (lit.reg kHalWake) 0 = true ∧ bit (canWake 2) 0 = true ∧ bit (lit.reg kHalWake) 4 = false := by decide +kernel

theorem witness_WakePin :
    (let s := (lit.setPin 3 { armed := true, qual := some false }).setReg (kPin 3 0) 1
     (s.pin 3).masked = none ∧ (s.pin 3).qual ≠ some (true != s.flag (kPin 3 1)) ∧ (s.pin 3).edges < 32 ∧ (s.pin 3).armed = true ∧
       s.flag (kPin 3 0) = true ∧ s.reg (kPin 3 2) = 0 ∧ (s.setReg (kPin 3 2) 2).reg (kPin 3 2) = 2) ∧
    (let s := lit.setPin 3 { qual := some false, edges := 32 }
     (s.pin 3).qual = some (!(true != s.flag (kPin 3 1))) ∧ (s.pin 3).edges = 32) ∧
    ((lit.setPin 15 { masked := some 0 }).pin 15).masked = some 0 ∧ lit.xsync 0x11 = false ∧ lit.pin 0 = {} := by decide +kernel

theorem witness_Clocks : (lit.setFlag (kClkStat 0) true).flag (kClkStat 0) = true ∧ lit.isUp 67 = true ∧ lit.flag (kClkStat 1) = false ∧
    (lit.setFlag (kClkStat 1) true).flag (kClkStat 1) = true ∧ lit.isUp 65 = true ∧ lit.isUp 66 = true ∧
    (let s := ((lit.setDom 5 .off).setFlag (kClkStat 2) true).setReg kSrcEff 2
     s.flag (kClkStat 2) = true ∧ s.isUp 5 = false ∧ s.reg kSrcEff = 2) ∧
    (let s := ((lit.setFlag (kFmStat 2) true).setReg (fk 0x40002020 0) 1).setReg (fk 0x40002020 4) 2
     s.flag (kFmStat 2) = true ∧ s.reg (fk 0x40002020 0) ≠ 0 ∧ s.reg (fk 0x40002020 4) ≠ 0) ∧
    (lit.setReg (fk 0x40002020 0) 0).reg (fk 0x40002020 0) = 0 := by
  decide +kernel

theorem witness_TickAndLatch : lit.tickLogic = true ∧ lit.isUp 4 = true ∧ lit.clk.tickDue = false ∧ (lit.setDom 4 .retained).isUp 4 = false ∧
    (lit.setDom 4 .retained).tickLogic = true ∧ (lit.setDom 4 .off).tickLogic = false ∧
    ({ lit with clk := { lit.clk with tickDue := true } } : State).clk.tickDue = true ∧
    (let s := lit.setShadow (fk 0x40004004 0) (some 20)
     Tab.wf (fun _ => (none : Option Nat)) s.shadow = true ∧ clkKeys.contains (fk 0x40004004 0) = false ∧
       s.pendingVal (fk 0x40004004 0) = some 20 ∧ (fldOf (fk 0x40004004 0)).map (·.ty) = some .rw) ∧
    (clkKeys.contains (fk 0x40002000 0) = true) := by decide +kernel

/-- A beacon with a matching CRC, and one without. -/
theorem witness_Beacons :
    let s := (((lit.setFlag kSpineEn true).setReg (kSpineStat 0) 1).setReg (fk 0x40004000 0) 1).setFlag kTickSirc false
    let body : List Byte := List.replicate 24 0
    (s.rxPorts ≠ 0 ∧ s.tickLogic = true ∧ s.flag kHead = false ∧ s.flag (kFrameStat 0) = false ∧ s.flag (fk 0x40004000 0) = true) ∧
    (crc16 ((body ++ beBytes (crc16 body) 2).take 24) = ofBe ((body ++ beBytes (crc16 body) 2).drop 24)) ∧ crc16 body ≠ 0 ∧
    (s.setFlag (kFrameStat 0) true).flag (kFrameStat 0) = true ∧ (192 : Int).natAbs ≤ 192 ∧ 192 < (193 : Int).natAbs ∧
    7 ≤ (lit.setReg kAge 7).reg kAge := by decide +kernel

theorem witness_Calendar :
    (let r : Rtc := { sec := 59, min := 59, hour := 23, day := 29, month := 2, year := 24 }
     r.day = monthLen r.year r.month ∧ r.day ≤ monthLen r.year r.month) ∧
    (let r : Rtc := { sec := 59, min := 59, hour := 23, day := 31, month := 12, year := 255 }
     r.nextSecond.year = 0 ∧ r.day = monthLen r.year r.month) ∧
    lit.rtc.halted = false ∧ (harv { lit.harv with st := .bare }).aon = false ∧ lit.rtc.sub ≤ 32767 ∧ lit.crossing = [] := by decide +kernel

/-! EKI: core 0 as its reset leaves it runs from ROM; its segment 1 is SPAR0 and SPAR1. -/

/-- A word of format M: rd, ra, segment, imm15. -/
def mWord (rd ra seg imm : Nat) : BitVec 26 := BitVec.ofNat 26 (rd * 2 ^ 22 + ra * 2 ^ 18 + seg * 2 ^ 15 + imm)

theorem witness_Eki : (lit.ready 0).isSome = true ∧ (lit.ready 0).elim false (fun t => (t.core 0).inTrap) = false ∧
    ((cc (fun k => { k with inTrap := true })).ready 0).isSome = true ∧
    (((tc 1 3 12 id lit).setCore 1 { (tc 1 3 12 id lit).core 1 with inTrap := true }).ready 1).isSome = true := by decide +kernel

theorem witness_EkiTMode : ((cc (fun k => { k with tmode := true, tset := k.mset })).ready 0).elim false (fun t => (t.core 0).tmode) = true := by
  decide +kernel

/-- Every func of ALU, 0 to 20 and 21, and the corners of division. -/
theorem witness_Alu : wFunc 20 = 20 ∧ wFunc 21 = 21 ∧ wFunc 16383 = 16383 ∧ wD (5 * 2 ^ 22) = 5 ∧
    (let s := cc (fun k => { k with g := k.g.set 1 0x80000000#32 })
     s.gr 0 1 = 0x80000000#32 ∧ (s.ready 0).isSome = true) ∧
    bits (2 * 32 + 31) 5 2 = 2 ∧ bits (2 * 32 + 31) 7 11 = 0 ∧ bits (3 * 32) 5 2 = 3 ∧ bits 128 7 11 ≠ 0 := by decide +kernel

/-- A check that passes, one that fails, and a load that answers data. -/
theorem witness_Loads :
    let c := fun n o => checkSeg ((lit.core 0).dataSet.getD 1 {}) false 0 8 o n true
    c 4 0xFFFFC = none ∧ c 8 0xFFFF8 = none ∧ c 1 0xFFFFF = none ∧ c 2 0xFFFFE = none ∧ c 4 0x100000 = some 1 ∧ c 4 2 = some 4 ∧
    wD (mWord 14 0 1 0).toNat % 2 = 0 ∧ wD (mWord 15 0 1 0).toNat % 2 = 1 ∧
    (∃ v t, lit.load 0 ((lit.core 0).dataSet.getD 1 {}) 0x10000000 4 = .data v t) :=
  ⟨by decide +kernel, by decide +kernel, by decide +kernel, by decide +kernel, by decide +kernel, by decide +kernel, by decide +kernel,
    by decide +kernel, ⟨_, _, rfl⟩⟩

/-- A store-buffer entry of 4 bytes that holds a load of 2, one that drains to PCACHE, and a line of the data cache. -/
def ent (a : Nat) : SbEnt := { addr := a, size := 4, data := 0x12345678, segNo := 1, off := 0, typ := 1, cache := 0, tmode := false, ctx := 64 }
theorem witness_LoadSources :
    sbOverlap [ent 0x10000000] 0x10000002 2 = [(0, ent 0x10000000)] ∧ sbOverlap [ent 0x10000000] 0x10000004 4 = [] ∧
    regionOf 0x12000000 = .pcache ∧ regionOf 0x10000000 = .spar 0 ∧ lit.busErrAt { typ := 1 } 0x12000000 true = false ∧
    (let s := cc (fun k => { k with dc := [{ addr := 0x10000000, data := List.replicate 32 7, dirty := false }] })
     let sg : Seg := { base := 0x10000000, limit := 0xFFFFF, typ := 1, rights := 0xD, cache := 0 }
     s.busErrAt sg 0x10000000 false = false ∧ s.cacheable sg 0x10000000 = true ∧
       ((s.core 0).line (lineOf 0x10000000)).isSome = true) := by decide +kernel

theorem witness_Stores : checkSeg ((lit.core 0).dataSet.getD 1 {}) false 0 4 0xFFFFC 4 true = none ∧
    checkSeg ((lit.core 0).dataSet.getD 1 {}) false 0 4 0xFFFF8 8 true = none ∧ ((lit.core 0).dataSet.getD 1 {}).typ ≠ 2 ∧
    (lit.core 0).sb.length < 4 ∧ ((cc (fun k => { k with sb := [ent 0x12000000] })).core 0).sb = [ent 0x12000000] ∧ lit.isUp 6 = true := by
  decide +kernel

theorem witness_Atomics : let sg : Seg := { base := 0x10000000, limit := 0xFFFFF, typ := 1, rights := 0xF }
    checkSeg sg false 0 13 0 4 true = none ∧ (lit.drained 0).isSome = true ∧ lit.busErrAt sg 0x10000000 true = false ∧
    regionOf 0x107FFFFC = .spar 15 ∧ wSegA (1 * 2 ^ 11) = 1 := by decide +kernel

/-- The operands that a trap's clauses name: unused fields 0 and not, reserved majors, codes in and out of range. -/
theorem witness_Traps : wD 0 = 0 ∧ wA 0 = 0 ∧ wD (2 ^ 22) ≠ 0 ∧ wA (2 ^ 18) ≠ 0 ∧ (0x06#6).toNat ∈ [0x06, 0x09, 0x0B, 0x19] ∧ 0x30 ≤ (0x3F#6).toNat ∧
    wImm18 5 ∉ [6, 7, 8, 9, 12] ∧ wImm18 13 ∉ [6, 7, 8, 9, 12] ∧ wImm18 10 ≠ 9 ∧ wD (2 * 2 ^ 22) = 2 := by decide +kernel

theorem witness_Waits :
    ((cc (fun k => { k with evpend := true, evsrc := 5 })).ready 0).elim false (fun t => (t.core 0).evpend) = true ∧
    (lit.ready 0).elim true (fun t => (t.core 0).evpend) = false ∧ (lit.gr 0 0).toNat % 65536 = 0 ∧
    ((cc (fun k => { k with g := k.g.set 2 64#32 })).gr 0 2).toNat % 65536 ≠ 0 ∧ 64 ≤ ((cc (fun k => { k with g := k.g.set 2 64#32 })).gr 0 2).toNat % 256 ∧
    ((cc (fun k => { k with run := .wft })).core 0).run = .wft := by decide +kernel

theorem witness_Segments : checkSeg ((lit.core 0).dataSet.getD 1 {}) false 0 8 0xFFFF0 16 true = none ∧
    checkSeg ((lit.core 0).dataSet.getD 1 {}) false 0 8 0xFFFE0 32 true = none ∧ checkSeg ((lit.core 0).dataSet.getD 1 {}) false 0 8 0x100000 1 false ≠ none ∧
    wD (mWord 7 0 1 0).toNat < 8 ∧ wD (mWord 3 0 1 0).toNat < 4 ∧ wD (mWord 0 0 1 0).toNat = 0 ∧ (2#26).toNat = 2 ∧ 3 ≤ (3#26).toNat ∧ (1#26).toNat < 2 ∧
    (∃ v t, lit.loadDwords 0 ((lit.core 0).dataSet.getD 1 {}) 0x10000000 2 = .data v t) :=
  ⟨by decide +kernel, by decide +kernel, by decide +kernel, by decide +kernel, by decide +kernel, by decide +kernel, by decide +kernel,
    by decide +kernel, by decide +kernel, ⟨_, _, rfl⟩⟩

theorem witness_Boundary :
    lit.runs 0 = true ∧ (lit.core 0).sb = [] ∧ checkSeg (lit.core 0).codeSeg (lit.core 0).tmode (lit.coreTenant 0) 2 0 4 false = none ∧
    (let s := cc (fun k => { k with ic := [{ addr := 0, data := List.replicate 32 0, dirty := false }] })
     ((s.core 0).ic.find? (fun x => x.addr == lineOf 0)).isSome = true) ∧
    (let s := cc (fun k => { k with pc := 0x20000#32 })
     checkSeg (s.core 0).codeSeg (s.core 0).tmode (s.coreTenant 0) 2 (s.core 0).pc.toNat 4 false = some 1 ∧ s.runs 0 = true) ∧
    ((cc (fun k => { k with imp := some (1, 8, false) })).core 0).impDue = true ∧ (lit.core 1).slot = none ∧ State.reset.isUp 7 = false := by
  decide +kernel

theorem witness_RegisterCommands : lit.aon = true ∧ lit.isUp 5 = true ∧ lit.isUp 6 = true ∧ lit.isUp 10 = true ∧ lit.xsync 0 = false ∧
    lit.boot.warmDue = none ∧ lit.ten.reset = none ∧
    ({ lit with ten := { lit.ten with reset := some { tenant := 5, cause := 0 } } } : State).ten.reset ≠ none ∧
    ({ lit with err := { lit.err with active := true } } : State).err.active = true ∧
    lit.spine.reports.any (fun r => r.buf == 7) = false ∧
    ({ lit with spine := { lit.spine with reports := [{ buf := 7 }] } } : State).spine.reports.any (fun r => r.buf == 7) = true := by
  decide +kernel

/-! Caches and the catalog. -/

theorem witness_Hub : lit.hubOk 1 0x10000020 = true ∧ lit.sparOk 0x107FFFF8 = true ∧ 0x1000001F % 32 + 1 ≤ 32 ∧
    ((cc (fun k => { k with eb := [{ addr := 0x10000020, data := List.replicate 32 1, dirty := true }] })).core 0).eb.map (·.addr) =
      [lineOf 0x10000024] ∧ lit.hubOk 0 0x10000024 = true ∧ (∀ d, d < 5 → (lit.core d).line 0x10000020 = none ∧ (lit.core d).eb = []) := by
  decide +kernel

theorem witness_CatalogWrites :
    regionOf 0x20000000 = .cat 0 ∧ regionOf 0x23FFFFFF = .cat 15 ∧ lit.wbRefusal .cc 0 = none ∧ lit.cat.wb.length < 32 ∧
    (State.setReg lit kAllow 3).wbRefusal .cc 0 = some (.refused, some 0x500) ∧ lit.wbRefusal .cc catTop = some (.busErr, none) ∧
    lit.isUp (catDom 0) = true ∧ (lit.setDom 28 .off).isUp (catDom 0) = false ∧ catTop ≤ catTop ∧ catTop < snapOff ∧
    ({ lit with cat := { lit.cat with wb := List.replicate 32 { off := 0, record := false, data := [], mask := 0, tenant := 0, seg := 0, toff := 0, src := 0, seq := 0, origin := 1 } } }
      : State).cat.wb.length = 32 := by decide +kernel

def wbe : WbEnt := { off := 0x100, record := false, data := [1, 2, 3, 4, 5, 6, 7, 8], mask := 255, tenant := 0, seg := 0, toff := 0, src := 0, seq := 0, origin := 1 }
theorem witness_CatalogAttempts :
    lit.isUp (catDom wbe.off) = true ∧ wbe.started = false ∧ wbe.left = 1 ∧ wbe.data.length = 8 ∧ lit.harv.cutDecided = false ∧
    lit.boot.inReset = false ∧ lit.cat.mapDue = [] ∧ lit.poisoned wbe.off = false ∧ lit.ten.reset = none ∧ lit.pmu.offHold = [] ∧
    ({ wbe with started := true, attempts := 3 } : WbEnt).attempts = 3 ∧ wbe.off < catTop := by decide +kernel

theorem witness_CatalogReads : regionOf 0x20000100 = .cat 0 ∧ lit.isUp (catDom 0x100) = true ∧ lit.cat.wb = [] ∧ lit.recOwner 0x100 = none ∧
    (lit.setFlag kSummaryValid true).flag kSummaryValid = true ∧ lit.summaryBit (mapIdx 0x100) = false ∧ lit.eccOf 0x100 = 0 ∧
    (lit.setEcc 0x100 1).eccOf 0x100 ≤ 1 ∧ (lit.setEcc 0x100 2).eccOf 0x100 ≤ 2 ∧ lit.cat.rebuildDue = true ∧
    (lit.setFlag kRebuilding true).flag kRebuilding = true ∧ lit.isUp 45 = true ∧
    (let s := (lit.setReg (fk 0x40017000 0) 1).setReg (fk 0x40017008 0) 4
     s.flag (fk 0x40017000 0) = true ∧ s.cat.scrubbed < s.reg (fk 0x40017008 0) ∧ s.reg kPhase ≠ 1) ∧
    0 + 8 < lit.reg (fk 0x40017004 16) * 65536 := by decide +kernel

/-! DMA, CRYPT, arbiters and locks. -/

def segX : Seg := { base := 0x11008000, limit := 0x7FFF, typ := 1, rights := 0xC }
/-- Place 1 with a FILL of 32 bytes of XRAM in hand. -/
def filling : State := lit.setPlace 1 { busy := true, started := true, desc := [1, 0, 2, 0, 0, 0, 0, 0, 0, 0, 0, 0, 32, 0, 0, 0, 0xAA], segs := [{}, {}, segX], ctx := 3 }
theorem witness_Dma :
    lit.isUp 47 = true ∧ (lit.place 0).busy = false ∧ lit.arbFrozen 19 = false ∧ lit.resetting (lit.ctxTenant (lit.ctxOf 0)) = false ∧
    (filling.place 1).busy = true ∧ (filling.place 1).status = none ∧
    (let x := filling.place 1
     let d := dmaDesc x.desc
     d.op = 1 ∧ regionOf (d.dstAddr x + x.moved) = .xram ∧ 0x11008000 ≤ d.dstAddr x + x.moved ∧ x.moved + 8 < d.len) ∧
    (let s := (lit.setPlace 4 { busy := true }).setArb 19 { burst := some (6, 1) }
     (s.place 4).started = false ∧ s.granted 19 (dmaReq 4) = true) ∧
    ((lit.setPlace 0 { busy := true, status := some 0 }).place 0).status = some 0 := by decide +kernel

theorem witness_Crypt : lit.crypt.op = none ∧ lit.arbFrozen 18 = false ∧ lit.isUp 49 = true ∧ lit.kekValid = false ∧ (lit.arb 18).standing = [] ∧
    ({ lit with crypt := { lit.crypt with op := some { tag := 1, status := 0, buf := none, slot := none } } } : State).crypt.op.isSome = true ∧
    ({ lit with crypt := { lit.crypt with op := some { tag := 1, status := 0, buf := none, slot := some (63, none) } } } : State).crypt.op.map
      (·.slot) = some (some (63, none)) := by decide +kernel

theorem witness_Arb : lit.arbOn 0 = true ∧ lit.arbOn 35 = true ∧ (arbReqDoms 0 10).any lit.isUp = true ∧
    (lit.arb 0).standing.any (fun r => r.k == 10) = false ∧ lit.eligible 0 = [] ∧
    (table102.arbWinner 3 (table102.eligible 3)).isSome = true ∧ arbIsPrb 3 0 = true ∧ arbIsPrb 16 1 = true ∧ arbIsPrb 3 5 = false ∧
    (let s := table102.setArb 3 { table102.arb 3 with waits := [(10, 3)] }
     s.arbLimit 3 10 ≤ (s.arb 3).wait 10 ∧ (s.arb 3).wait 5 < s.arbLimit 3 5) := by decide +kernel

theorem witness_Lock : lit.lockReach 0 = true ∧ (lit.core 0).tmode = false ∧ (lit.cleat 255).value = 0 ∧ freeValue 0xFFFFFFFD = false ∧
    freeValue 0 = true ∧ freeValue 0xFFFFFFFE = true ∧
    (let s := lit.setCleat 0 { value := 7, holder := some 3 }
     freeValue (s.cleat 0).value = false ∧ (s.cleat 0).holder ≠ some (s.ctxOf 0)) ∧
    ((lit.setCleat 0 { value := 7, holder := some 64, lease := 1 }).cleat 0).holder = some (lit.ctxOf 0) ∧
    ((lit.setCleat 0 { value := 7, lease := 1 }).cleat 0).lease = 1 ∧ lockers.lockReach 1 = true ∧ (lockers.core 1).tmode = true ∧
    lockers.rights (255 / 16) (lockers.ctxTenant 4) = false ∧
    (let s : State := { lit with lock := { lit.lock with waits := [{ ctx := 64, cleat := 0, order := 0, ticks := 3 }] } }
     (s.lock.waits.find? (fun w => w.ctx == 64 && w.result.isNone)).map (·.ticks) = some 3) := by decide +kernel

/-- A wait cycle whose victim is PARKED: slot 5 waits for an event that nothing can bring. -/
theorem witness_WaitBroken : let s := (lit.setReg (fk 0x40006000 0) 1).setSlot 5 { state := 3, wfeOrder := some 0 }
    s.flag (fk 0x40006000 0) = true ∧ s.victim s.waitCycle = some 5 ∧ s.waitsOn 5 = none ∧ s.coreOf 5 = none := by decide +kernel

theorem witness_FirstWaiter :
    (let s : State := { lit with lock := { lit.lock with waits := [{ ctx := 5, cleat := 0, order := 0 }] } }
     ((s.setCleat 0 { value := 0 }).firstWaiter 0).map (·.ctx) = some 5 ∧ (s.setCleat 0 { value := 0 }).stalledOn 5 = none) ∧
    (lit.setCleat 255 { value := 0 }).firstWaiter 255 = none := by decide +kernel

/-! Bays, conversion, SFU, NOR. -/

/-- Channel 127 in a state, its group released and its supply good. -/
def bay (c : BayCh) : State := (lit.setReg kVb12 0xFF).setBayCh 127 c
theorem witness_Bay : ((bay { retriesLeft := 1 }).bayCh 127).retriesLeft ≠ 0 ∧ ((bay {}).bayCh 127).retriesLeft = 0 ∧ ((bay { st := 4 }).bayCh 127).st = 4 ∧
    ((bay { st := 1 }).bayCh 127).st = 1 ∧ (bay {}).bayUp 127 = true ∧ (bay {}).bayUp 0 = true ∧ (lit.setReg (kBayCh 127 4 16) 0).reg (kBayCh 127 4 16) ≠ 1 ∧
    ((bay { st := 3, backoff := some 1 }).bayCh 127).backoff = some 1 ∧ (bay { st := 3 }).leftOut 127 = none ∧
    ((bay {}).setReg kVb12 0).leftOut 127 = some 6 ∧ ((bay {}).bayCh 127).prs.masked = none ∧ ((bay {}).bayCh 127).prs.level ≠ some true ∧
    ((bay { prs := { changes := 32 } }).bayCh 127).prs.changes = 32 ∧ (bay {}).flag (kBayu 127 0 1) = false ∧
    (bay {}).flag (kBayIn 7 1) = false ∧ ((bay { st := 2 }).bayCh 127).st = 2 ∧ ((bay {}).setReg (kBayCh 127 4 16) 2).reg (kBayCh 127 4 16) = 2 ∧
    ((bay { prs := { masked := some 0 } }).bayCh 127).prs.masked = some 0 ∧ (bay {}).vb12 7 = true ∧ lit.isUp 62 = true := by decide +kernel

/-- Port 127 in a state, enabled and admitted. -/
def port (p : BayuCh) : State := ((lit.setReg (kBayu 127 0 0) 1).setReg kAdmit 0x80).setPort 127 p
theorem witness_SerialPorts : (port {}).bayUp 127 = true ∧ (port {}).flag (kBayu 127 0 0) = true ∧ (port {}).rxAdmitted 127 = true ∧
    lit.rxAdmitted 127 = false ∧ ((port { tx := List.replicate 16 0 }).port 127).tx.length = 16 ∧ ((port { tx := List.replicate 15 0 }).port 127).tx.length < 16 ∧
    ((port { rx := [7] }).port 127).rx = [7] ∧ ((port {}).port 127).rx = [] ∧ (port {}).flag (kBayu 127 0 1) = false ∧
    ((port { shifting := some 1, tx := [2] }).port 127).tx = [2] ∧
    (let s := ((port { rx := [7] }).setReg (kBayu 127 4 0) 4).setReg (kBayu 127 4 6) (0x10000000 / 64)
     s.reg (kBayu 127 4 0) ≠ 0 ∧ ((s.port 127).head + 65536 - s.reg (kBayu 127 8 0)) % 65536 < 2 ^ s.reg (kBayu 127 4 0) ∧
       s.sparOk (s.reg (kBayu 127 4 6) * 64) = true) := by decide +kernel

/-- Converter 3 in a state. -/
def conv (x : Conv) : State := { lit with adc := { lit.adc with conv := [(3, x)] } }
theorem witness_Adc :
    ((lit.setReg (kConv 3 0) 1).groupReady 3 = true ∧ (lit.setReg (kConv 3 0) 1).convTrig 3 = false ∧ lit.lockGroup 3 = [3] ∧ (lit.conv 3).running = false) ∧
    (let x := (conv { running := true, w0 := 0x00103F45, beganOk := true }).conv 3
     x.running = true ∧ x.waiting = false ∧ x.stopping = false ∧ bits x.w0 16 3 = 0 ∧ x.taken = 0 ∧ x.sum = 0 ∧ x.results ≠ bits x.w0 8 8 ∧
       x.unsettled = false ∧ x.beganOk = true) ∧
    lit.isUp 53 = true ∧ lit.isUp 54 = true ∧ (lit.setDom 54 .off).isUp 54 = false ∧ (lit.adc.fifo.filter (fun f => f.1 == 3)).length < 8 ∧
    (let s : State := { lit with adc := { lit.adc with fifo := [(3, 0, 1)] } }
     let t := (s.setReg (fk 0x40010100 6) (0x10000000 / 64)).setReg (fk 0x40010104 0) 4
     (t.reg (fk 0x4001010C 0) + 65536 - t.reg (fk 0x40010108 0)) % 65536 < 2 ^ t.reg (fk 0x40010104 0) ∧ t.adc.fifo = [(3, 0, 1)] ∧
       t.sparOk 0x10000000 = true) ∧ (0x45 ∈ adcInputs) ∧ 0xFF ∉ adcInputs := by decide +kernel

/-- Place 5 with a SUM of 8 elements of SPAR0, its record at 0x220. -/
def summing (started : Bool) : State :=
  let d : List Byte := [0, 0, 8, 0, 1, 1, 0, 0, 0, 2, 0, 0, 0, 0, 0, 0, 0x20, 2, 0, 0] ++ List.replicate 12 0
  (lit.setFlag kStdReady true).setJob 5 { busy := true, started := started, desc := d, segs := resetMset 0 }
theorem witness_Sfu : ((summing false).setArb 17 { burst := some (5, 1) }).granted 17 5 = true ∧ (summing false).flag kStdReady = true ∧
    (summing false).jobCheck ((summing false).job 5) = none ∧ ((summing true).arb 17).standing = [] ∧ ((summing true).job 5).ctx = 64 ∧
    (jobDesc ((summing true).job 5).desc).op = 0 ∧ regionOf (((summing true).job 5).addr 1 0x220) = .spar 0 ∧
    (lit.setFlag kStdReady true).jobCheck { busy := true } ≠ none ∧ lit.flag kStdReady = false ∧
    tableWritable 0x60008000 = true ∧ tableWritable 0x6000FC0C = true ∧ tableWritable 0x60007000 = false ∧ lit.slotUsed 8 = false ∧
    ((lit.setJob 0 { busy := true, desc := [8, 8] }).slotUsed 8 = true) := by decide +kernel

/-- The NOR store with an operation in hand. -/
def nor (o : NorOp) : State := { lit with boot := { lit.boot with nor := o } }
theorem witness_Nor : lit.isUp 44 = true ∧ lit.norOp.state = 0 ∧ lit.norLocked 0x7F0000 4096 = true ∧ lit.norLocked 0x7EFF00 256 = false ∧
    256 < 255 + 2 ∧ (∀ i, i < 4 → (nor { state := 1, op := 3, addr := 0x10000, data := [1, 2, 3, 4] }).rd (norBase + 0x10000 + i) = 0xFF#8) ∧
    ((nor {}).wr (norBase + 0x10002) 0x3C#8).rd (norBase + 0x10002) ≠ 0xFF#8 ∧ (nor { state := 3, op := 1 }).norOp.state = 3 ∧
    (nor { state := 4, op := 1 }).norOp.state = 4 ∧ regionOf 0x01000000 = .nor ∧ regionOf 0x017FFFFF = .nor ∧ (0 : Nat) < 0x800000 ∧
    (∀ i, i < 2 → ((nor { state := 5, op := 3, addr := 0, data := [0xFF, 0xFF] }).rd (norBase + 0 + i)) = [0xFF#8, 0xFF].getD i 0#8) := by
  decide +kernel

/-! Errors, start-up, service ports. -/

theorem witness_Errors : lit.err.count < 32 ∧ Tab.get (fun _ => 0) lit.err.perSource 8 < 8 ∧ 2 ≤ (2 : Fin 4).val ∧
    ({ lit with err := { lit.err with count := 32 } } : State).err.count = 32 ∧ lit.err.fatal = none ∧ lit.boot.warmDue = none ∧
    (lit.setReg (fk 0x40014000 0) 1).flag (fk 0x40014000 0) = true ∧ lit.err.handled ≤ lit.err.count ∧
    ({ lit with err := { lit.err with fatal := some (3, 2) } } : State).err.fatal = some (3, 2) ∧
    (let s : State := { lit with boot := { lit.boot with warmDue := some (2, 0x55), inReset := true } }
     s.boot.warmDue = some (2, 0x55) ∧ s.boot.inReset = true ∧ s.boot.rstLow = false ∧ s.cat.wb = [] ∧ s.cat.mapDue = []) := by
  decide +kernel

theorem witness_Boot : lit.boot.starting = true ∧ lit.reg kBootCause ≠ 2 ∧ (lit.setDom 44 .off).isUp 44 = false ∧ (lit.setReg kBootCause 2).reg kBootCause = 2 ∧
    lit.boot.full = false ∧ lit.snapValid = false ∧ ({ lit with boot := { lit.boot with bootBalls := 2 } } : State).boot.bootBalls = 2 ∧
    lit.boot.bootBalls = 0 ∧ lit.imageOk 0 = false ∧ lit.imageOk 1 = false ∧ lit.imageOk 2 = false := by decide +kernel

/-- A snapshot that is valid: MAGIC, no pairs, and its CRC. -/
theorem witness_Snapshot : let h : List Byte := leBytes 0x5EA7EB64 4 ++ List.replicate 56 0
    leAt h 0 4 = 0x5EA7EB64 ∧ leAt h 8 2 ≤ 504 ∧ h.length = 0x3C ∧ lit.isUp 43 = true ∧ lit.cat.ecc = [] := by decide +kernel

theorem witness_Ports :
    (let s := ((lit.setReg (kSgmIp 0) 0x0A000001).setFlag (kSgmLink 0) true).setFlag (kClkStat 3) true
     s.reg (kSgmIp 0) ≠ 0 ∧ s.sgmUp 0 = true ∧ lit.reg (kSgmIp 0) = 0 ∧ frameKept 0 [] = false) ∧
    lit.isUp 64 = true ∧ (lit.setFlag (kClkStat 3) true).flag (kClkStat 3) = true ∧ (lit.setFlag (fk (sgmBase 1) 0) true).flag (fk (sgmBase 1) 0) = true ∧
    lit.isUp 69 = true ∧ bit ({ lit with serv := { lit.serv with consRx := 3 } } : State).serv.consRx 1 = true ∧ ((lit.consBuf 1).filter (· < 256)).length < 2048 ∧
    2048 ≤ (((lit.setCons 1 (List.replicate 2048 0)).consBuf 1).filter (· < 256)).length ∧ bit lit.serv.gpioIn 63 ≠ true ∧
    bit ((lit.setReg (fk 0x4001201C 0) 0x80000000).reg (fk (0x40012018 + 4 * (63 / 32)) 0)) (63 % 32) = true ∧ lit.serv.alert = false := by
  decide +kernel

/-- An ARP request and an ICMP echo request to 10.0.0.1 that the port keeps. -/
def ip0 : State := ((lit.setReg (kSgmIp 0) 0x0A000001).setFlag (kSgmLink 0) true).setFlag (kClkStat 3) true
def withFcs (l : List Byte) : List Byte := l ++ leBytes (crc32 l) 4
def arpFrame : List Byte := withFcs (broadcast ++ beBytes 0x020000000001 6 ++ beBytes 0x0806 2 ++ beBytes 0x0001080006040001 8 ++
  beBytes 0x020000000001 6 ++ beBytes 0x0A000002 4 ++ List.replicate 6 0 ++ beBytes 0x0A000001 4 ++ List.replicate 18 0)
theorem witness_Arp : frameKept 0 arpFrame = true ∧ ip0.isArp 0 arpFrame = true ∧ ip0.sgmUp 0 = true := by decide +kernel

theorem witness_Trace : lit.isUp 71 = true ∧ (lit.isUp 70 = true) ∧ (lit.setDom 70 .off).isUp 70 = false ∧ (0x05#5).toNat ∉ [0, 1, 2, 3, 4, 0x10] ∧
    traceWords 1 = some 2 ∧ lit.serv.traceDropped = 0 ∧ lit.serv.trace.length + 3 ≤ 64 ∧
    64 < ({ lit with serv := { lit.serv with trace := List.replicate 62 0 } } : State).serv.trace.length + 3 := by decide +kernel

/-! The spine and its probes. -/

/-- An admitted node whose probe engine works, at an allowance. -/
def node (allow : Nat) : State :=
  ((((lit.setReg kAllow allow).setFlag kSpineEn true).setFlag (kSpineStat 0) true).setFlag kDirValid true).setFlag kChunkEn true
/-- Tenant 12's directory entry of the manual's example: VALID, BKT_LOG2 12, BKT_BASE 64. -/
def dir (s : State) : State := s.wrLe (0x12004100 + 8 * 12) 8 (1 + 12 * 2 + 64 * 64)
theorem witness_Operations : (node 7).prbOn = true ∧ (node 7).admitted = true ∧ lit.admitted = false ∧ (node 1).allow < 2 ∧ 2 ≤ (node 2).allow ∧
    (node 6).flag kSleepSeq = false ∧ ((node 6).setFlag kSleepSeq true).flag kSleepSeq = true ∧ ((node 3).setFlag kDirValid false).flag kDirValid = false ∧
    (node 3).dirKnown 63 = false ∧ (dir (node 3)).dirKnown 12 = true ∧ (node 3).ticketFree 0 = true ∧
    (dir (node 3)).prbWaits (entryOffs (bucketsOf 12 64 0x3A7C51E29B64)) = false ∧ (node 2).flag kChunkEn = true ∧
    (node 2).spine.chunkDone = none ∧ (node 2).spine.chunkN = 0 := by decide +kernel

/-- Tickets of tenant 12: entry 255 pending, entry 0 resolved. -/
def tickets : State :=
  let s := dir ((node 3).setReg (fk 0x4000B008 0) 100)
  ((s.wrLe (ticketAddr 255 + 6) 2 (12 + 9 * 256)).wrLe (ticketAddr 255 + 0x18) 1 1).wrLe (ticketAddr 0 + 6) 1 12 |>.wrLe (ticketAddr 0 + 0x18) 1 2
theorem witness_Tickets : tickets.ticketFree 255 = false ∧ tickets.ticketGen 255 = 9 ∧ tickets.ticketTenant 255 = 12 ∧ tickets.ticketState 255 ≠ 2 ∧
    tickets.ticketFree 0 = false ∧ tickets.ticketState 0 = 2 ∧ tickets.dirKnown 12 = true := by decide +kernel

/-- A look-up in empty buckets is a miss. -/
theorem witness_Look : (((dir (node 3)).prbLook 0x3A7C51E29B64 (entryOffs (bucketsOf 12 64 0x3A7C51E29B64))).1 = .miss) := by decide +kernel

theorem witness_QueryFrames :
    let body := beBytes 0x540C3A7C51E29B64 8
    (crc8 ((body ++ [0x37#8]).take 8) = 0x37) ∧ crc8 body ≠ 0 ∧
    (let f : BitVec 72 := 0x540C3A7C51E29B6437
     crc8 (beBytes (f.toNat / 256) 8) = f.toNat % 256 ∧ bits f.toNat 66 6 = 21 ∧ ((node 3).setReg (fk 0x4000A004 0) 21).shelf = 21 ∧
       (node 3).rxPorts = 3 ∧ ((node 3).pickFrame { ports := 1#2, a := f, b := f } crc8Ok).1 = some f) ∧
    (let s : State := { node 3 with spine := { (node 3).spine with reply := some { status := 1, payload := 0 } } }
     s.spine.reply.isSome = true ∧ s.txPorts ≠ 0 ∧ s.prbOn = true) := by decide +kernel

/-- A head with its frames, a node in its report slot, and nodes with pair slots. -/
def slotNode (s : State) : State :=
  (((s.setFlag (kFrameStat 0) true).setFlag (kSpineStat 1) true).setReg (fk 0x4000A058 0) 0xFFFFFFFE).setReg (fk 0x4000A05C 0) 0
def pairNode (s : State) : State :=
  ((slotNode s).setReg (fk 0x4000A058 0) 0).setReg (fk 0x4000A05C 0) 0xFFFFFFFE |>.setFlag kPairEn true |>.setReg (fk 0x4000B00C 16) 31
theorem witness_Slots :
    (let s := (lit.setReg kLevel 3).setFlag kSpineEn true
     s.dark = true ∧ bit s.rxPorts 1 = true ∧ s.spine.exc = false) ∧
    (({ lit with spine := { lit.spine with banks := [43] } } : State).spine.banks.contains (28 + (15 : Fin 16).val) = true) ∧
    (lit.setDom 43 .rising).domSt (28 + 15) = .rising ∧ lit.foreign 0x55#8 0 0 = true ∧ lit.foreign 0x33#8 0xFC#8 0 = false ∧
    frameLen 0x33 0 = some 72 ∧ frameLen 0x55 0 = some 88 ∧ frameLen 0x66 0xC0 = none ∧ frameLen 0x66 0x80 = some 88 ∧ frameLen 0x77 0 = none ∧
    (let s := ((node 3).setFlag kHead true).setFlag kTickSirc false
     s.headActive = true ∧ s.spine.reply = none ∧ s.txPorts ≠ 0) ∧
    (let s := slotNode ((node 3).setReg (fk 0x4000A004 0) 0)
     s.slotOk = true ∧ s.reportSlot 1 = true ∧ s.slotOwner 1 = s.shelf ∧ s.reportSlot 31 = true ∧ s.reportSlot 0 = false) ∧
    ({ lit with spine := { lit.spine with reports := [{ buf := 7, ticks := 8 }] } } : State).spine.reports.find? (fun r => decide (8 ≤ r.ticks)) =
      some { buf := 7, ticks := 8 } := by decide +kernel
theorem witness_Pairs :
    (let s := (pairNode (node 3)).setReg (fk 0x4000B018 0) 1
     s.pairFrame = true ∧ s.slotOk = true ∧ s.pairSender = true ∧ s.spine.pairSent = false ∧ s.reg kTxTail ≠ s.reg (fk 0x4000B018 0)) ∧
    (let s := ((pairNode (node 3)).setReg (fk 0x4000B00C 0) 1).setReg (fk 0x4000B00C 8) 5
     s.pairSender = false ∧ s.pairFrame = true ∧ s.pairPeer = 5 ∧ (s.reg kRxHead + 1) % 64 = s.reg (fk 0x4000B01C 0) + 1 ∧ s.spine.pairSeq = none) ∧
    bit (node 3).txPorts 0 = true ∧ (node 3).isUp 0 = true := by decide +kernel

/-! Contexts, tenants, interrupts; Cyntoux. -/

theorem witness_Contexts :
    (let s := (cc (fun k => { k with ie := true })).setReg (fk 0x40019024 0) 0xFFFFFFFF
     (State.takeInterrupt (({ s with irqEdge := 0x10 } : State))).isSome = true) ∧ lit.takeInterrupt = none ∧
    ((cc (fun k => { k with imp := some (7, 8, false) })).core 0).imp = some (7, 8, false) ∧ (lit.core 0).run = .running ∧
    bit ((cc (fun k => { k with evmask := 32 })).core 0).evmask 5 = true ∧ bit (lit.core 0).evmask 0 = false ∧
    ((tc 4 63 5 (fun k => { k with run := .wfe }) lit).core 4).slot = some 63 ∧ ((tc 4 63 5 (fun k => { k with run := .wfe }) lit).core 4).run = .wfe ∧
    ((tc 4 63 5 id lit).core 4).run ≠ .halted ∧ lit.last (fk 0x400044F0 0) ≤ 63 ∧ lit.last (fk 0x400044F0 8) ≤ 15 ∧ lit.last (fk 0x400044F0 12) ≤ 7 ∧
    lit.last (fk 0x400044F0 15) ≤ 1 ∧ lit.isUp 27 = true ∧
    (({ lit with ten := { lit.ten with reset := some { tenant := 63, cause := 1, edge := true } } } : State).ten.reset.map (·.edge) = some true) := by
  decide +kernel

/-- The packet of a command is accepted by rows 1 to 5; others fail at each. -/
theorem witness_Packets :
    (let q := packetOf (cmd []) 0x0001
     16 ≤ q.length ∧ byteAt q 0 = 0xEB ∧ crc16 (q.take 10) = leAt q 10 2 ∧ byteAt q 1 = 1 ∧ leAt q 8 2 ≤ 1024 ∧ q.length = 16 + leAt q 8 2 ∧
       (cmdOf .spine q).onMailbox = false ∧ crc32c (q.take (12 + leAt q 8 2)) = (cmdOf .spine q).pcrc) ∧
    (let q : List Byte := [0xEB, 2, 0, 0, 0, 0, 0, 0, 0, 0]
     byteAt (q ++ beBytes 0 2) 1 ≠ 1) ∧ ¬(16 ≤ ([] : List Byte).length) ∧
    cyn.cynRuns = true ∧ cyn.cyn.kept.find? (fun x => x.seq == 1) = none ∧ cyn.refusal (cmdOfIn (cmd []) 0x0001) = none ∧
    cyn.cyn.queue.length < 16 ∧ lit.refusal (cmdOfIn (cmd []) 0x0001) = some 0x0104 ∧ slipDecode [0xDB] = none ∧ slipDecode [1, 2] = some [1, 2] := by
  decide +kernel

def queued : Cmd := { src := .spine, op := 1, tenant := 0, prio := 7, seq := 1, pcrc := 0, params := [] }
theorem witness_Queue :
    (let s : State := { cyn with cyn := { cyn.cyn with queue := [{ queued with prio := 3 }, { queued with order := 1 }] } }
     s.nextCmd = some { queued with order := 1 } ∧ s.cynOccupied = false ∧ s.resourceHeld queued = false) ∧ opScoped 0x0001 = false ∧
    opScoped 0x4001 = true ∧ cyn.cyn.queue = [] ∧
    (let s : State := { cyn with cyn := { cyn.cyn with longs := [({ queued with op := 0x5002 }, .cleat 255 4 0 1)] } }
     s.isUp 48 = true ∧ (s.cleat 255).value = 0 ∧ s.cyn.longs.length = 1) ∧
    (let s : State := { cyn with serv := { cyn.serv with pgWait := some 512 } }
     s.serv.pgWait = some 512 ∧ s.reg (fk 0x40012104 0) ≤ 512) := by decide +kernel

theorem witness_OpRows :
    cyn.boot.accepting = true ∧ lit.boot.accepting = false ∧ 0xF123 / 4096 = 0xF ∧ opInfo 0x0ABC = none ∧ (opInfo 0x0001).isSome = true ∧
    (cmdOfIn { cmd [] with src := .mailbox 5 } 0x0002).op = 2 ∧ opLenOk 0x0001 [0] = false ∧ opLenOk 0x0001 [] = true ∧
    cyn.reg (fk 0x40008100 0) = 0 ∧ (cyn.setReg (fk 0x40008100 0) 6).reg (fk 0x40008100 0) ≠ 0 := by decide +kernel

/-- Each of the commands stated in the classes is ready in the helper state, or in it with tenant 0's directory set. -/
theorem witness_Ready :
    (∀ op ∈ [0x0000, 0x0001, 0x0006, 0x1000, 0x4000, 0x4003, 0x6000, 0x7000, 0xB001, 0xB003, 0xB004, 0xE002], cyn.refusal (cmdOfIn (cmd []) op) = none) ∧
    (∀ e ∈ ([(0x0002, [0x02, 0x10, 0x20, 0, 0, 0]), (0x0003, [2, 0x10]), (0x0004, [0, 0, 0, 0x40, 1, 0]), (0x1001, [2]), (0x2000, [127, 1]),
        (0x2002, [0x80]), (0x2003, [0x80]), (0x2004, [127]), (0x2005, [127, 0x41]), (0x2006, [127, 0, 4, 0]), (0x5000, [255]), (0x8002, [3, 0, 4, 0]),
        (0xA001, [0, 0, 1, 0, 0]), (0xE000, [16]), (0xE001, [32])] : List (Nat × List Byte)), cyn.refusal (cmdOfIn (cmd e.2) e.1) = none) ∧
    cyn.cynOccupied = false ∧ cyn.kekValid = false ∧ cyn.serv.challenge = none ∧ cyn.serv.unlockFails < 3 ∧ cyn.ten.reset = none ∧
    cyn.bayAnswers 127 = true ∧ cyn.addrOn 0x40028040 = true ∧ cyn.bayLocked 127 = false ∧ cyn.imageOk 0 = false := by decide +kernel

/-! ### Witnesses of the completion statements, clause by clause -/

/-- A state with PHASE, and with a register set. -/
abbrev reg (k v : Nat) : State := lit.setReg k v

theorem witness_CompletePower :
    (lit.aon = true ∧ lit.cat.hold15 = false ∧ lit.domSt 4 ≠ .off ∧ 3 ≤ (lit.publish 3300 0 0 32).reg kAllow) ∧
    ((harv { lit.harv with sampling := some true }).aon = true ∧ (harv { lit.harv with sampling := some true }).harv.sampling = some true) ∧
    lit.harv.st = .harvest ∧
    (let s := harv { lit.harv with cutDecided := true }
     s.harv.cutDecided = true ∧ s.harv.st = .harvest ∧ s.cat.wb = [] ∧ s.cat.mapDue = []) ∧
    ((lit.setFlag (kHarvStat 2) true).aon = true ∧ (lit.setFlag (kHarvStat 2) true).flag (kHarvStat 2) = true) ∧
    (lit.vstbyOk = false ∧ lit.storeLow = false) ∧
    (let s := (harv { lit.harv with lowTicks := some 4 }).setFlag (kHarvStat 3) true
     s.aon = true ∧ s.storeLow = true ∧ s.harv.lowTicks = some 4 ∧ s.pmu.entry = none ∧ s.pmu.req = none ∧ s.reg kPhase = 0 ∧ s.reg kLevel = 0) ∧
    (harv { lit.harv with kept := false }).harv.kept = false ∧
    (let s := harv { lit.harv with st := .bare, kept := true }
     s.harv.st = .bare ∧ s.harv.kept = true) ∧
    (harv { lit.harv with por := true }).harv.por = true ∧
    ((harv { lit.harv with st := .standby }).harv.st = .standby ∧ (harv { lit.harv with st := .standby }).harv.por = false) := by decide +kernel

theorem witness_CompleteLevels :
    (let s : State := { lit with pmu := { lit.pmu with req := some 2 } }
     s.aon = true ∧ s.pmu.req = some 2 ∧ s.reg kPhase = 0) ∧
    (let s : State := { reg kPhase 1 with pmu := { lit.pmu with entry := some 3 } }
     s.pmu.entry = some 3 ∧ s.reg kPhase = 1 ∧ s.err.fatal = none ∧ s.drainedAll = true) ∧
    (let s : State := { cc (fun k => { k with run := .wfe }) with pmu := { lit.pmu with req1 := true } }
     s.aon = true ∧ s.reg kLevel = 0 ∧ s.reg kPhase = 0 ∧ s.pmu.req1 = true ∧ s.reef1Ok = true) ∧
    (let s := ((reg kLevel 1).setReg kHalStat 1).setReg kHalEn 1
     s.aon = true ∧ s.reg kLevel = 1 ∧ s.reg kHalStat &&& s.reg kHalEn ≠ 0) ∧
    (let s : State := { (reg kLevel 3).setReg kHalStat 1 with pmu := { lit.pmu with wakeEv := 1 } }
     s.aon = true ∧ 2 ≤ s.reg kLevel ∧ s.reg kPhase = 0 ∧ 2 ≤ s.allow ∧ s.wakeCause ≠ 0) ∧
    (let s := (((reg kPhase 2).setFlag (kClkStat 1) true).setFlag (kClkStat 2) true).setFlag (kClkStat 3) true
     s.aon = true ∧ s.reg kPhase = 2 ∧ s.wakeDone = true) ∧
    ((lit.setDom 71 .rising).aon = true ∧ (lit.setDom 71 .rising).domSt 71 = .rising) ∧
    (((reg kPhase 2).setDom 5 .rising).reg kPhase = 2 ∧ ((reg kPhase 2).setDom 5 .rising).domSt 5 = .rising) := by decide +kernel

/-- A node that receives a beacon whose CRC matches: 24 bytes of 0, then theirs. -/
def bcnFrame : BitVec 208 := BitVec.ofNat 208 (crc16 (List.replicate 24 0#8))
theorem witness_CompleteClocks :
    ((lit.setFlag (kClkStat 0) true).aon = true ∧ (lit.setFlag (kClkStat 0) true).flag (kClkStat 0) = true) ∧
    (lit.isUp 67 = true ∧ lit.flag (kClkStat 1) = false ∧ lit.reg kPhase = 0) ∧
    ((lit.setFlag (kClkStat 1) true).isUp 67 = true ∧ (lit.setFlag (kClkStat 1) true).isUp 66 = true ∧ (lit.setFlag (kClkStat 1) true).flag (kClkStat 1) = true) ∧
    (lit.setFlag (kClkStat 3) true).flag (kClkStat (2 + ofBool true)) = true ∧ lit.isUp 5 = true ∧
    (let s := ((lit.setFlag (kClkStat 0) true).setFlag (kFmStat 2) true).setReg (fk 0x40002020 0) 1
     s.aon = true ∧ s.flag (kFmStat 2) = true ∧ s.clkRuns (s.reg (fk 0x40002020 0)) = true) ∧
    (lit.tickLogic = true ∧ lit.isUp 4 = true) ∧
    (let s : State := { lit with clk := { lit.clk with tickDue := true } }
     s.aon = true ∧ s.isUp 4 = true ∧ s.clk.tickDue = true) ∧
    (let s := (lit.setFlag kSpineEn true).setFlag (kSpineStat 0) true
     s.tickLogic = true ∧ (s.pickFrame { ports := 3#2, a := bcnFrame, b := bcnFrame } (crc16Ok 26)).1 = some bcnFrame) ∧
    7 ≤ (reg kAge 7).reg kAge := by decide +kernel

theorem witness_CompleteMemories :
    (lit.hubOk 1 0x10000020 = true ∧ 0x10000020 % 32 + 32 ≤ 32 ∧ lit.sparOk 0x107FFFF8 = true ∧ 0x107FFFF8 % 32 + 8 ≤ 32) ∧
    (lit.isUp 5 = true ∧ regionOf 0x23EFFFF8 = .cat 15 ∧ lit.wbRefusal .cc 0x3EFFFF8 = none ∧ lit.cat.wb.length < 32) ∧
    (let e : WbEnt := { wbe with started := true }
     let s : State := { lit with cat := { lit.cat with wb := [e] } }
     s.cat.wb = [e] ∧ e.started = true ∧ e.left = 1 ∧ s.cat.mapDue = [] ∧ s.isUp (catDom e.off) = true ∧
       (s.useArb (catInst e.off) (plainReq 2 1)).isSome = true) ∧
    (let d : MapDue := { offs := [0x431450], poison := true, report := none, retires := false }
     let s : State := { lit with cat := { lit.cat with mapDue := [d] } }
     s.cat.mapDue = [d] ∧ ((({ s with cat := { s.cat with mapDue := [] } } : State).power15).useArb 15 (plainReq 1 2)).isSome = true) ∧
    (let s := cc (fun k => { k with imp := some (1, 8, false) })
     s.isUp 6 = true ∧ (s.core 0).impDue = true ∧ (s.core 0).run = .running) ∧
    (regionOf 0x20000100 = .cat 0 ∧ lit.eccOf 0x100 = 0) ∧
    (lit.cat.rebuildDue = true ∧ lit.isUp 43 = true ∧ lit.isUp 2 = true) ∧ (lit.setFlag kRebuilding true).flag kRebuilding = true ∧
    (let s := (reg (fk 0x40017000 0) 1).setReg (fk 0x40017008 0) 4
     s.isUp 45 = true ∧ s.isUp 5 = true ∧ s.flag (fk 0x40017000 0) = true ∧ s.cat.scrubbed < s.reg (fk 0x40017008 0) ∧ s.reg kPhase ≠ 1) := by
  decide +kernel

theorem witness_CompleteEngines :
    (lit.aon = true ∧ lit.isUp 47 = true ∧ (lit.place 4).busy = false ∧ lit.placeFree 19 (dmaReq 4) = true ∧ lit.arbFrozen 19 = false ∧
      lit.fenced (lit.ctxOf 4) = false) ∧
    (let s := (lit.setPlace 4 { busy := true, req := 6 }).setArb 19 { burst := some (6, 1) }
     (s.place 4).busy = true ∧ s.granted 19 (s.place 4).req = true ∧ (s.place 4).started = false) ∧
    (let s := (lit.setPlace 4 { busy := true, started := true, req := 6 }).setArb 19 { burst := some (6, 1) }
     (s.place 4).busy = true ∧ s.granted 19 (s.place 4).req = true ∧ (s.place 4).started = true ∧ (s.place 4).status = none) ∧
    (let s := lit.setPlace 0 { busy := true, status := some 0 }
     s.isUp 47 = true ∧ (s.place 0).busy = true ∧ (s.place 0).status = some 0) ∧
    (lit.isUp 49 = true ∧ lit.isUp 5 = true ∧ lit.placeFree 18 1 = true ∧ lit.arbFrozen 18 = false) ∧
    (let o : CryptOp := { tag := 1, status := 0, buf := none, slot := none }
     let s : State := { lit with crypt := { lit.crypt with op := some o } }
     s.crypt.op = some o ∧ s.isUp 49 = true ∧ s.stands 18 1 = false) ∧
    (lit.arbOn 19 = true ∧ (arbReqDoms 19 0).any lit.isUp = true ∧ arbTry 19 0 = false ∧ lit.stands 19 0 = false ∧
      (lit.arbMake 19 0 1 0).isSome = true ∧ (lit.arbMake 19 0 1 0).elim true (fun r => r.tenant.isSome) = false) ∧
    (lit.arbOn 35 = true ∧ lit.burstHeld 35 = false) ∧
    (lit.lockReach 0 = true ∧ (lit.core 0).tmode = false ∧ lit.fenced (lit.ctxOf 0) = false ∧ (lit.cleat 255).value = 0 ∧
      freeValue 0xFFFFFFFD = false ∧ lit.lock.waits = []) ∧
    ((lit.setCleat 255 { value := 7, holder := some 64, lease := 1 }).cleat 255).holder = some (lit.ctxOf 0) ∧
    (let w : WaitRec := { ctx := 64, cleat := 0, order := 0, ticks := 3 }
     let s : State := { lit with lock := { lit.lock with waits := [w] }, clk := { lit.clk with tickDue := true } }
     s.lock.waits.find? (fun w => w.ctx == 64 && w.result.isNone) = some w ∧ s.isUp 48 = true ∧ s.clk.tickDue = true) ∧
    (let s : State := { lit.setCleat 255 { value := 7, lease := 1 } with clk := { lit.clk with tickDue := true } }
     s.isUp 48 = true ∧ s.clk.tickDue = true ∧ (s.cleat 255).lease = 1) := by decide +kernel

/-- An interrupt of the SFU that shows, in a CC that takes interrupts. -/
theorem witness_CompleteContexts :
    (let s : State := { (cc (fun k => { k with ie := true })).setReg (fk 0x40019024 0) 0x10 with irqEdge := 0x10 }
     s.takeInterrupt.map (·.1) = some 4 ∧ s.takeInterrupt.elim false (fun x => x.2.cynRuns) = true) ∧
    (let s := tc 4 63 5 (fun k => { k with run := .wfe }) lit
     (s.core 4).slot = some 63 ∧ (s.core 4).run = .wfe) ∧
    (((tc 4 63 5 id lit).core 4).slot = some 63 ∧ ((tc 4 63 5 id lit).core 4).run ≠ .halted) ∧
    (lit.last (fk 0x400044F0 0) ≤ 63 ∧ lit.last (fk 0x400044F0 8) ≤ 15 ∧ lit.last (fk 0x400044F0 12) ≤ 7 ∧ lit.last (fk 0x400044F0 15) ≤ 1) ∧
    (let r : TenReset := { tenant := 63, cause := 1, edge := true }
     ({ lit with ten := { lit.ten with reset := some r } } : State).ten.reset = some r ∧ r.edge = true) ∧ lit.isUp 27 = true := by
  decide +kernel

theorem witness_CompleteBays :
    ((bay { st := 4 }).aon = true ∧ (bay { st := 4 }).isUp 5 = true ∧ (bay { st := 4 }).bayUp 127 = true ∧ ((bay { st := 4 }).bayCh 127).st = 4) ∧
    lit.isUp 55 = true ∧ ((bay { st := 1 }).bayUp 127 = true ∧ ((bay { st := 1 }).bayCh 127).st = 1) ∧
    (let s := bay { st := 3, backoff := some 1 }
     s.bayUp 127 = true ∧ (s.bayCh 127).st = 3 ∧ (s.bayCh 127).backoff = some 1) ∧
    (lit.isUp 62 = true ∧ (bay {}).vb12 7 = true) ∧
    (let c := (bay {}).bayCh 127
     (bay {}).bayRing 127 = true ∧ c.prs.masked = none ∧ c.prs.level ≠ some true ∧ c.prs.changes < 32 ∧ (bay {}).flag (kBayu 127 0 1) = false ∧
       c.flt.masked = none ∧ c.flt.level ≠ some true ∧ c.flt.changes < 32) ∧
    ((bay { prs := { masked := some 0 } }).bayUp 127 = true ∧ ((bay { prs := { masked := some 0 } }).bayCh 127).prs.masked = some 0) ∧
    (let s := port { shifting := some 1, tx := List.replicate 15 0 }
     s.aon = true ∧ s.isUp 5 = true ∧ s.bayUp 127 = true ∧ (s.port 127).tx.length < 16 ∧ (s.port 127).shifting.isSome = true) ∧
    ((port { rx := [7] }).bayUp 127 = true ∧ ((port { rx := [7] }).port 127).rx = [7]) ∧
    ((port {}).bayUp 127 = true ∧ (port {}).flag (kBayu 127 0 0) = true ∧ (port {}).bayRing 127 = true ∧ (port {}).rxAdmitted 127 = true ∧
      ((port {}).port 127).rx.length < 16 ∧ (port {}).flag (kBayu 127 0 1) = false) ∧
    (((port { shifting := some 1 }).port 127).shifting = some 1 ∧ ((port { shifting := some 1 }).port 127).tx = []) ∧
    (let s := ((port { rx := [7] }).setReg (kBayu 127 4 0) 4).setReg (kBayu 127 4 6) (0x10000000 / 64)
     (s.port 127).rx = [7] ∧ s.bayUp 127 = true ∧ s.reg (kBayu 127 4 0) ≠ 0 ∧
       ((s.port 127).head + 65536 - s.reg (kBayu 127 8 0)) % 65536 < 2 ^ s.reg (kBayu 127 4 0) ∧
       s.sparOk (s.reg (kBayu 127 4 6) * 64 + 2 * ((s.port 127).head % 2 ^ s.reg (kBayu 127 4 0))) = true ∧
       (s.reef1Leave.useArb 19 (plainReq 1 1)).isSome = true) := by decide +kernel

theorem witness_CompleteConversion :
    ((reg (kConv 3 0) 1).groupReady 3 = true ∧ (reg (kConv 3 0) 1).convTrig 3 = false ∧ (reg (kConv 3 0) 1).groupIdle 3 = true) ∧
    (let s := conv { running := true }
     s.isUp (50 + 3) = true ∧ (s.conv 3).running = true ∧ (s.conv 3).waiting = false) ∧
    (let s := ((({ lit with adc := { lit.adc with fifo := [(3, 0, 1)] } } : State).setReg (fk 0x40010100 6) (0x10000000 / 64)).setReg (fk 0x40010104 0) 4)
     s.adc.fifo = [(3, 0, 1)] ∧ (s.reef1Leave.useArb 19 (plainReq 0 1)).isSome = true ∧
       (s.reg (fk 0x4001010C 0) + 65536 - s.reg (fk 0x40010108 0)) % 65536 < 2 ^ s.reg (fk 0x40010104 0) ∧
       s.sparOk (s.reg (fk 0x40010100 6) * 64 + 4 * (s.reg (fk 0x4001010C 0) % 2 ^ s.reg (fk 0x40010104 0))) = true) ∧
    (lit.isUp 54 = true ∧ lit.isUp (50 + 3) = true) ∧
    (let s := (summing false).setArb 17 { burst := some (5, 1) }
     s.isUp 46 = true ∧ (s.job 5).busy = true ∧ (s.job 5).started = false ∧ s.granted 17 5 = true ∧ s.flag kStdReady = true ∧
       s.jobCheck (s.job 5) = none) ∧
    (((summing true).job 5).busy = true ∧ ((summing true).job 5).started = true ∧ ((summing true).arb 17).standing = []) ∧
    (tableWritable 0x60008000 = true ∧ lit.slotUsed (tableSlot 0x60008000) = false) := by decide +kernel

theorem witness_CompleteStart :
    (lit.isUp 44 = true ∧ lit.norOp.state = 0 ∧ (nor { state := 1 }).norOp.state = 1 ∧ (nor { state := 2 }).norOp.state = 2 ∧
      (nor { state := 3 }).norOp.state = 3 ∧ (nor { state := 4 }).norOp.state = 4 ∧ (nor { state := 5 }).norOp.state = 5 ∧
      (nor { state := 5 }).isUp 44 = true ∧ regionOf 0x017FFFFF = .nor) ∧
    (lit.isUp 5 = true ∧ 2 ≤ (3 : Fin 4).val ∧ lit.err.count < 32) ∧
    (let s : State := { lit with err := { lit.err with fatal := some (3, 2) } }
     s.err.fatal = some (3, 2) ∧ s.boot.warmDue = none) ∧
    (let s : State := { lit with boot := { lit.boot with warmDue := some (2, 0x55) } }
     s.boot.warmDue = some (2, 0x55) ∧ s.aon = true ∧ s.boot.inReset = false) ∧
    (let s : State := { lit with boot := { lit.boot with warmDue := some (2, 0x55), inReset := true } }
     s.boot.warmDue = some (2, 0x55) ∧ s.aon = true ∧ s.boot.inReset = true ∧ s.boot.rstLow = false ∧ s.cat.wb = [] ∧ s.cat.mapDue = []) ∧
    (lit.isUp 6 = true ∧ lit.boot.starting = true ∧ lit.reg kBootCause ≠ 2) := by decide +kernel

/-- A snapshot without pairs in the snapshot area, its CRC in place, after a wake. -/
def snapHead : List Byte := leBytes 0x5EA7EB64 4 ++ List.replicate 56 0
def unsealed : State := (reg kBootCause 2).wrBytes snapBase snapHead
def woken : State := unsealed.wrBytes (snapBase + 0x3C) (leBytes (crc32c (snapHead ++ unsealed.rdBytes (snapBase + 0x40) 0x3FC0)) 4)
theorem woken_head : woken.rdBytes snapBase 0x3C = snapHead :=
  (State.rdBytes_wrBytes_outside _ _ _ _ _ (Or.inl (by decide))).trans (State.rdBytes_wrBytes (reg kBootCause 2) snapBase snapHead)
theorem woken_rest : woken.rdBytes (snapBase + 0x40) 0x3FC0 = unsealed.rdBytes (snapBase + 0x40) 0x3FC0 :=
  State.rdBytes_wrBytes_outside _ _ _ _ _ (Or.inr (by simp [leBytes]))
theorem woken_crc : woken.rdLe (snapBase + 0x3C) 4 = crc32c (snapHead ++ unsealed.rdBytes (snapBase + 0x40) 0x3FC0) :=
  (congrArg ofLe (State.rdBytes_wrBytes unsealed (snapBase + 0x3C) (leBytes _ 4))).trans
    ((ofLe_leBytes 4 _).trans (Nat.mod_eq_of_lt (crc32c_lt _)))
theorem witness_CompleteWarmPath : woken.snapValid = true ∧ woken.aon = true ∧ woken.isUp 6 = true ∧ woken.isUp 5 = true ∧
    woken.boot.starting = true ∧ woken.reg kBootCause = 2 ∧ woken.boot.full = false := by
  refine ⟨?_, by decide +kernel, by decide +kernel, by decide +kernel, by decide +kernel, by decide +kernel, by decide +kernel⟩
  have h1 : woken.isUp 43 = true := by decide +kernel
  have h2 : woken.cat.ecc = [] := by decide +kernel
  have h3 : leAt snapHead 0 4 = 0x5EA7EB64 := by decide +kernel
  have h4 : leAt snapHead 8 2 ≤ 504 := by decide +kernel
  simp [State.snapValid, woken_head, woken_rest, woken_crc, h1, h2, h3, h4]

/-- An echo request and a command datagram to 10.0.0.1, with their checksums. -/
def ipPkt (proto : Byte) (body : List Byte) : List Byte := ipPacket proto.toNat 0x0A000002 0x0A000001 body
def echoFrame : List Byte := withFcs (macOf 0 ++ beBytes 0x020000000001 6 ++ beBytes 0x0800 2 ++
  ipPkt 1 (beBytes 0x0800 2 ++ beBytes (ipCheck (beBytes 0x08000000 4 ++ List.replicate 28 0)) 2 ++ List.replicate 28 0))
def udpFrame : List Byte := withFcs (macOf 0 ++ beBytes 0x020000000001 6 ++ beBytes 0x0800 2 ++
  ipPkt 17 (beBytes 5000 2 ++ beBytes 47120 2 ++ beBytes 26 2 ++ [0, 0] ++ List.replicate 18 0))
theorem frameKept_withFcs (p : Nat) (b : List Byte) (h : 60 ≤ b.length ∧ b.length ≤ 1514) (ht : beAt (withFcs b) 12 2 = 0x0800)
    (hm : (withFcs b).take 6 = macOf p) : frameKept p (withFcs b) = true := by
  have hl : (withFcs b).length = b.length + 4 := by simp [withFcs, leBytes]
  have hc : leAt (withFcs b) b.length 4 = crc32 b := by
    simp only [leAt, withFcs, List.drop_left, leBytes, List.take]
    exact (ofLe_leBytes 4 _).trans (Nat.mod_eq_of_lt (crc32_lt _))
  have hb : (withFcs b).take b.length = b := by simp [withFcs]
  simp [frameKept, hl, hc, hb, ht, hm]; omega
theorem witness_CompleteFrames : frameKept 0 echoFrame = true ∧ frameKept 0 udpFrame = true :=
  ⟨frameKept_withFcs 0 _ (by decide +kernel) (by decide +kernel) rfl, frameKept_withFcs 0 _ (by decide +kernel) (by decide +kernel) rfl⟩
theorem witness_CompletePorts :
    (ip0.sgmUp 0 = true ∧ frameKept 0 [] = false ∧ ip0.isEcho 0 echoFrame = true ∧
      ip0.isCommand 0 udpFrame = true) ∧
    (let s : State := { ip0 with boot := { ip0.boot with inReset := true } }
     s.cynRuns = false ∧ s.sgmUp 0 = true ∧ s.isCommand 0 udpFrame = true) ∧
    (lit.isUp (63 + ofBool true) = true ∧ (lit.setFlag (kClkStat 3) true).flag (kClkStat 3) = true) ∧
    (let s : State := { lit with serv := { lit.serv with consRx := 3 } }
     s.isUp 69 = true ∧ bit s.serv.consRx (ofBool true) = true ∧ s.serv.io.vio33 = true ∧ ((s.consBuf 1).filter (· < 256)).length < 2048) ∧
    (cyn.cynRuns = true ∧ (cyn.setCons 1 [0xC0]).consBuf 1 = [0xC0] ∧ (cyn.setCons 1 [0xC0]).isUp 69 = true) ∧ lit.serv.alert = false ∧
    (lit.isUp 70 = true ∧ lit.isUp 71 = true ∧
      (5#5).toNat ∉ [0, 1, 2, 3, 4, 0x10] ∧ traceWords 1 = some 2 ∧ lit.serv.traceDropped = 0 ∧ lit.serv.trace.length + 2 + 1 ≤ 64) := by
  decide +kernel

theorem witness_CompleteDebug : ({ lit with serv := { lit.serv with unlocked := true } } : State).debugLocked = false := by
  simp [State.debugLocked]

/-- A query of shelf 21 whose CRC matches, an acknowledgement, and a PAIR frame. -/
def ackFrame : BitVec 88 := BitVec.ofNat 88 (crc16 (List.replicate 9 0#8))
theorem witness_CompleteSpine :
    ((node 7).prbOn = true ∧ (node 7).admitted = true ∧ 2 ≤ (node 7).allow ∧ (node 7).flag kChunkEn = true ∧ (node 7).spine.chunkDone = none ∧
      (node 7).spine.chunkN = 0) ∧
    ((node 3).pickFrame { ports := 3#2, a := 0x540C3A7C51E29B6437#72, b := 0x540C3A7C51E29B6437#72 } crc8Ok).1 = some 0x540C3A7C51E29B6437#72 ∧
    (let s : State := { node 3 with spine := { (node 3).spine with reply := some { status := 1, payload := 0 } } }
     s.spine.reply.isSome = true ∧ s.prbOn = true ∧
       (({ s with spine := { s.spine with reply := none } } : State).useArb 16 (sptxReq 1)).isSome = true) ∧
    (let s := (reg kLevel 3).setFlag kSpineEn true
     s.reg kLevel = 3 ∧ bit s.rxPorts (ofBool true) = true ∧ s.spine.exc = false) ∧
    (let s : State := { lit.setDom 43 .rising with spine := { lit.spine with banks := [43] } }
     s.spine.banks.contains (28 + (15 : Fin 16).val) = true ∧ s.domSt (28 + (15 : Fin 16).val) = .rising) ∧
    (let s : State := { lit with spine := { lit.spine with exc := true } }
     s.spine.exc = true ∧ s.spine.sdSeen = false ∧ s.foreign 0x55#8 0 0 = true) ∧
    (let s := ((node 3).setFlag kHead true).setFlag kTickSirc false
     s.headActive = true ∧ s.spine.reply = none ∧ (s.useArb 16 (sptxReq 0)).isSome = true) ∧
    (let s : State := { slotNode ((node 3).setReg (fk 0x4000A004 0) 0) with spine := { lit.spine with reports := [{ buf := 7 }] } }
     s.spine.reports = [{ buf := 7 }] ∧ s.slotOk = true ∧ s.reportSlot 1 = true ∧ s.slotOwner 1 = s.shelf ∧ s.spine.reply = none ∧
       (s.useArb 16 (sptxReq 2)).isSome = true) ∧
    ({ lit with spine := { lit.spine with reports := [{ buf := 7, ticks := 8 }] } } : State).spine.reports.find? (fun r => decide (8 ≤ r.ticks)) =
      some { buf := 7, ticks := 8 } ∧
    (bit (node 3).txPorts (ofBool true) = true ∧ (node 3).isUp 0 = true ∧ (node 3).flag kSpineEn = true ∧ bit (node 3).rxPorts (ofBool true) = true ∧
      frameLen (0x77#8).toNat 0 = none) := by decide +kernel

theorem witness_CompletePairs :
    (let s := (pairNode (node 3)).setReg (fk 0x4000B018 0) 1
     s.pairFrame = true ∧ s.slotOk = true ∧ s.pairSender = true ∧ s.spine.pairSent = false ∧ s.reg kTxTail ≠ s.reg (fk 0x4000B018 0) ∧
       (s.useArb 16 (sptxReq 3)).isSome = true ∧ s.spine.pairDone = false) ∧
    (let s := ((pairNode (node 3)).setReg (fk 0x4000B00C 0) 1).setReg (fk 0x4000B00C 8) 5
     let f : BitVec 72 := BitVec.ofNat 72 (crc16 (List.replicate 7 0#8))
     s.pairFrame = true ∧ s.slotOk = true ∧ s.pairSender = false ∧ (s.pickFrame { ports := 1#2, a := f, b := 0 } (crc16Ok 9)).1 = some f) ∧
    (let s0 := pairNode (node 3)
     let s : State := { s0 with spine := { s0.spine with pairSent := true } }
     s.flag kPairEn = true ∧ s.pairSender = true ∧ s.spine.pairSent = true ∧
       (s.pickFrame { ports := 2#2, a := 0, b := ackFrame } (crc16Ok 11)).1 = some ackFrame) := by decide +kernel

/-- A command that starts and is done, one that ends, a try for a free cleat, and a late PSU_PG. -/
theorem witness_CompleteQueue :
    (let s : State := { cyn with cyn := { cyn.cyn with queue := [{ queued with op := 0 }] } }
     s.cynRuns = true ∧ s.boot.accepting = true ∧ s.cynOccupied = false ∧ s.nextCmd = some { queued with op := 0 } ∧ s.resetting 0 = false ∧
       s.resourceHeld { queued with op := 0 } = false ∧ ∃ st bs es t,
       (({ s with cyn := { s.cyn with queue := s.cyn.queue.erase { queued with op := 0 } } } : State).run { queued with op := 0 }) = (.done st bs es, t)) ∧
    (let s : State := { cyn with cyn := { cyn.cyn with longs := [(queued, .ended 0x0104)] } }
     s.cynRuns = true ∧ s.cyn.longs = [(queued, .ended 0x0104)] ∧ ∃ st bs es t, s.poll queued (.ended 0x0104) = (.done st bs es, t)) ∧
    (let s : State := { cyn with cyn := { cyn.cyn with longs := [({ queued with op := 0x5002 }, .cleat 255 4 0 1)] } }
     s.cynRuns = true ∧ s.cyn.longs = [({ queued with op := 0x5002 }, .cleat 255 4 0 1)] ∧ 0 < 1 ∧ s.isUp 48 = true ∧ (s.cleat 255).value = 0) ∧
    (let s : State := { cyn with serv := { cyn.serv with pgWait := some 512 } }
     s.cynRuns = true ∧ s.serv.pgWait = some 512 ∧ s.reg (fk 0x40012104 0) ≤ 512) :=
  ⟨⟨by decide +kernel, by decide +kernel, by decide +kernel, by decide +kernel, by decide +kernel, by decide +kernel, _, _, _, _, rfl⟩,
    ⟨by decide +kernel, by decide +kernel, _, _, _, _, rfl⟩, by decide +kernel, by decide +kernel⟩

/-- An imprecise error that a CC in WFE takes before the interrupt that ended the wait; a class 0x4 command of a tenant whose reset has
begun; PSU_EN below allowance 6; a tenant's mailbox and a catalog bank that answers. -/
theorem witness_Barred :
    (let s : State := { (cc (fun k => { k with ie := true, run := .wfe, imp := some (1, 8, false) })).setReg (fk 0x40019024 0) 0x10 with irqEdge := 0x10 }
     s.takeInterrupt.map (·.1) = some 17) ∧
    (cyn.setTenState 5 3).stopped { queued with op := 0x4001, tenant := 5 } = true ∧ cyn.stopped queued = false ∧
    (cyn.setReg kAllow 5).psuBarred [(psuField, 1)] = true ∧ cyn.psuBarred [(psuField, 1)] = false ∧ cyn.serv.dgrams = [] ∧
    cyn.cyn.queue.length < 16 ∧
    (let u := (dir (node 3)).reef1Leave.prbBanks (entryOffs (bucketsOf 12 64 0x3A7C51E29B64))
     u.prbWaits (entryOffs (bucketsOf 12 64 0x3A7C51E29B64)) = false ∧
       (u.prbAsk [(bucketsOf 12 64 0x3A7C51E29B64).1, (bucketsOf 12 64 0x3A7C51E29B64).2]).isSome = true) ∧
    (((lit.setFlag kSummaryValid true).useArb (catInst 0x100) (lit.coreReq 0)).isSome = true) ∧
    (let s := (reg (fk 0x40017000 0) 1).setReg (fk 0x40017008 0) 4
     s.scrubSkips s.scrubPos = false ∧ (s.useArb (catInst s.scrubPos) (plainReq 10 1)).isSome = true) := by decide +kernel

/-! ### The package's worked example (chapter 19) -/

/-- Channel 75's balls, group 4's supplies, the first core supply slots, and the totals of slots. -/
theorem test_package :
    ([BaySignal.gate, .src, .isp, .isn, .prs, .flt, .txd, .rxd].map (fun x => ballAt (bayBall 75 x).1 (bayBall 75 x).2)) =
      ["M64", "M62", "M60", "M58", "M56", "M54", "M52", "M50"] ∧
    [1, 2, 3, 4].all (fun r => ballGroup r 49 == .vbay12) = true ∧ [5, 6, 7, 8].all (fun r => ballGroup r 49 == .vbayio) = true ∧
    ballAt 6 19 = "F19" ∧ ballGroup 6 18 = .vss ∧ ballGroup 6 19 = .vana ∧ ballGroup 6 47 = .vana ∧ ballGroup 5 17 = .rsvd := by
  decide +kernel
end Sys2Proof.Tests
end

section
/-! SUPPORT. Configuration discipline (chapter 2): the check of one field in the order of Table 2-1 (R25), the layout of a report
entry (Table 2-2), and what DISCARD drops (R22), by way of a write of BLOCK_CFG_CTRL reaching its block (R34). -/
namespace Sys2Proof.Machine

/-! ### A value against a range (Table 2-1, orders 2 to 5) -/

section
variable {v lo hi : Nat} {l : List Nat}

theorem Rng.check_enumOf_of_mem (h : v ∈ l) : (Rng.enumOf l).check v = (some v, none) := by
  simp [Rng.check, h]

theorem Rng.check_enumOf_of_not_mem (h : v ∉ l) : (Rng.enumOf l).check v = (none, some 2) := by
  simp [Rng.check, h]

theorem Rng.check_rg_of_lt (h : v < lo) : (Rng.rg lo hi).check v = (some lo, some 0) := if_pos h

theorem Rng.check_rg_of_gt (hl : lo ≤ v) (hh : hi < v) : (Rng.rg lo hi).check v = (some hi, some 1) :=
  (if_neg (Nat.not_lt.mpr hl)).trans (if_pos hh)

theorem Rng.check_rg_of_mem (hl : lo ≤ v) (hh : v ≤ hi) : (Rng.rg lo hi).check v = (some v, none) :=
  (if_neg (Nat.not_lt.mpr hl)).trans (if_neg (Nat.not_lt.mpr hh))

/-- 0 is legal beside the range, so only another value is compared with the bounds. -/
theorem Rng.check_zeroOr : (Rng.zeroOr lo hi).check v = if v = 0 ∨ (lo ≤ v ∧ v ≤ hi) then (some v, none) else
    if v < lo then (some lo, some 0) else (some hi, some 1) := by
  dsimp only [Rng.check]
  by_cases h0 : v = 0
  · rw [if_pos h0, if_pos (.inl h0), h0]
  rw [if_neg h0]
  rcases Nat.lt_or_ge v lo with hl | hl
  · rw [if_pos hl, if_neg (by omega), if_pos hl]
  have hl' : ¬v < lo := Nat.not_lt.mpr hl
  rw [if_neg hl', if_neg hl']
  rcases Nat.lt_or_ge hi v with hh | hh
  · rw [if_pos hh, if_neg (by omega)]
  · rw [if_neg (Nat.not_lt.mpr hh), if_pos (.inr ⟨hl, hh⟩)]

end

/-! ### The check of one field (R25) -/

section
variable {s : State} {ws : List (Key × Nat)} {b o v : Nat} {f : Fld}

theorem State.checkField_ro (h : f.ty = .ro) : s.checkField ws b o f v = (none, none) := by
  simp [State.checkField, h]

theorem State.checkField_refused (hty : f.ty = .rw ∨ f.ty = .wo) (hc : f.cls = .stopped) (hr : s.running b o = true) :
    s.checkField ws b o f v = (none, some 3) := by
  rcases hty with h | h <;> simp [State.checkField, h, hc, hr]

/-- Past the STOPPED check, a field with bounds of its own is checked against them. -/
theorem State.checkField_range {r : Rng} (hty : f.ty = .rw ∨ f.ty = .wo) (hn : ¬(f.cls = .stopped ∧ s.running b o = true))
    (hf : f.rng = r) (hd : r ≠ .dep) : s.checkField ws b o f v = r.check v := by
  have hstop : (f.cls == .stopped && s.running b o) = false := by simpa using hn
  cases r with
  | dep => exact absurd rfl hd
  | _ => rcases hty with h | h <;> simp [State.checkField, h, hstop, hf]

/-- Past the STOPPED check, a field with coupled bounds is checked against those the other fields give (R28). -/
theorem State.checkField_dep (hty : f.ty = .rw ∨ f.ty = .wo) (hn : ¬(f.cls = .stopped ∧ s.running b o = true))
    (hf : f.rng = .dep) : s.checkField ws b o f v = (s.depRange ws b o f.lo v).check v := by
  have hstop : (f.cls == .stopped && s.running b o) = false := by simpa using hn
  rcases hty with h | h <;> simp [State.checkField, h, hstop, hf]

theorem State.checkInto_ws (c : Checked) : (s.checkInto b o c f v).ws =
    c.ws ++ (s.checkField c.ws b o f v).1.elim [] (fun x => [(fk (blockBase b + o) f.lo, x)]) := rfl

theorem State.checkInto_entries (c : Checked) : (s.checkInto b o c f v).entries =
    c.entries ++ (s.checkField c.ws b o f v).2.elim [] (fun a => [rptEntry (entryField b f) a v]) := rfl

end

/-! ### The report entry (Table 2-2) -/

section
variable {fld a : Nat} (v : Nat)

theorem bits_rptEntry_field (hf : fld < 65536) (ha : a < 16) : bits (rptEntry fld a v) 16 16 = fld := by
  simp only [bits, rptEntry]; omega

theorem bits_rptEntry_action (ha : a < 16) : bits (rptEntry fld a v) 12 4 = a := by
  simp only [bits, rptEntry]; omega

theorem bits_rptEntry_value : bits (rptEntry fld a v) 0 12 = v % 4096 := by
  simp only [bits, rptEntry]; omega

end

/-! ### DISCARD drops the shadows of a block (R22) -/

section
variable (s : State) (b : Nat)

@[simp] theorem State.discard_crossing : (s.discard b).crossing = s.crossing := by
  unfold State.discard; dsimp only; split <;> rfl

@[simp] theorem State.discard_mem : (s.discard b).mem = s.mem := by
  unfold State.discard; dsimp only; split <;> rfl

@[simp] theorem State.discard_rings : (s.discard b).rings = s.rings := by
  unfold State.discard; dsimp only; split <;> rfl

@[simp] theorem State.discard_gring : (s.discard b).gring = s.gring := by
  unfold State.discard; dsimp only; split <;> rfl

theorem State.discard_shadow : (s.discard b).shadow = Tab.keep (fun k => !inBlock b k) s.shadow := by
  unfold State.discard; dsimp only; split <;> rfl

theorem State.pendingVal_discard (k : Key) :
    (s.discard b).pendingVal k = if inBlock b k then none else s.pendingVal k := by
  cases h : inBlock b k <;> simp [State.pendingVal, State.discard_shadow, Tab.get_keep, h]

/-- Every field keeps its value in effect, but for CLK's switch-pending flag. -/
theorem State.reg_discard_other {b : Nat} {k : Key} (h : b ≠ 2 ∨ k ≠ kClkStat 7) : (s.discard b).reg k = s.reg k := by
  unfold State.discard
  dsimp only
  split
  · next hb => exact State.reg_setFlag_other _ _ _ _ (h.resolve_left (not_not_intro hb)).symm
  · rfl

/-- R84: a discard of CLK's shadows leaves no switch pending. -/
theorem State.flag_discard_clk : (s.discard 2).flag (kClkStat 7) = false := State.flag_setFlag _ _ _

/-- A write of CFG_CTRL whose DISCARD bit is set loads VIEW and discards. -/
theorem State.ctrlWrite_discard (x : Nat) : s.ctrlWrite b (x % 2 + 2) = (s.setReg (kView b) (x % 2)).discard b := by
  have hdiscard : bit (x % 2 + 2) 1 = true := by simp only [bit, decide_eq_true_eq]; omega
  simp [State.ctrlWrite, hdiscard]

@[simp] theorem State.ctrlWrite_crossing (v : Nat) : (s.ctrlWrite b v).crossing = s.crossing := by
  unfold State.ctrlWrite; dsimp only; split <;> simp

end

/-! ### A write of CFG_CTRL reaches its block (R33–R35) -/

/-- A write of CFG_CTRL on its way into XT1. -/
def ctrlCrossing (b v : Nat) : Crossing := { block := b, addr := commonBase b + 4, writes := [(kView b, v)] }

section
variable {s : State} {b : Nat}

theorem State.find?_crossing_of_not_xsync (h : s.xsync b = false) : s.crossing.find? (fun c => c.block == b) = none := by
  simpa [State.xsync] using h

/-- Nothing of the block is crossing, so nothing takes effect. -/
theorem State.crossOne_of_not_xsync (h : s.xsync b = false) : s.crossOne b = s := by
  simp [State.crossOne, State.find?_crossing_of_not_xsync h]

/-- A write of CFG_CTRL that is its block's only one crossing takes effect next, and the others go on crossing. -/
theorem State.crossOne_ctrlCrossing (v : Nat) (h : s.xsync b = false) :
    ({ s with crossing := s.crossing ++ [ctrlCrossing b v] } : State).crossOne b = s.ctrlWrite b v := by
  have hfind : (s.crossing ++ [ctrlCrossing b v]).find? (fun c => c.block == b) = some (ctrlCrossing b v) := by
    simp [List.find?_append, State.find?_crossing_of_not_xsync h, ctrlCrossing]
  have hnew : ctrlCrossing b v ∉ s.crossing := fun hm => by
    simpa [ctrlCrossing] using List.find?_eq_none.mp (State.find?_crossing_of_not_xsync h) _ hm
  have herase : (s.crossing ++ [ctrlCrossing b v]).erase (ctrlCrossing b v) = s.crossing := by
    simp [List.erase_append_right _ hnew]
  simp only [State.crossOne, hfind, herase]
  simp [ctrlCrossing]

/-- With nothing of the block crossing, any number of further attempts does nothing. -/
theorem State.foldl_crossOne_of_not_xsync {α : Type} (l : List α) (h : s.xsync b = false) :
    l.foldl (fun u _ => u.crossOne b) s = s := by
  induction l with
  | nil => rfl
  | cons _ l ih => rw [List.foldl_cons, State.crossOne_of_not_xsync h, ih]

/-- R34: with no other write of the block crossing, a flush brings the write of CFG_CTRL into effect and does nothing more. -/
theorem State.flushXt1_ctrlCrossing (v : Nat) (h : s.xsync b = false) :
    ({ s with crossing := s.crossing ++ [ctrlCrossing b v] } : State).flushXt1 b = s.ctrlWrite b v := by
  have hdone : (s.ctrlWrite b v).xsync b = false := by rw [State.xsync, State.ctrlWrite_crossing]; exact h
  have hflush {α : Type} (l : List α) (hl : l ≠ []) :
      l.foldl (fun u _ => u.crossOne b) { s with crossing := s.crossing ++ [ctrlCrossing b v] } = s.ctrlWrite b v := by
    cases l with
    | nil => exact absurd rfl hl
    | cons _ l => rw [List.foldl_cons, State.crossOne_ctrlCrossing v h, State.foldl_crossOne_of_not_xsync l hdone]
  exact hflush (s.crossing ++ [ctrlCrossing b v]) (by simp)

/-- CFG_CTRL's address is decoded before any other of the common area: the write crosses in an XT1 block, and takes effect in
another. -/
theorem State.commonWrite_ctrl (s : State) (b v : Nat) : s.commonWrite b (commonBase b + 4) v =
    some (if crossesXt1 b then { s with crossing := s.crossing ++ [ctrlCrossing b v] } else s.ctrlWrite b v) := by
  simp [State.commonWrite, ctrlCrossing]

/-- No block's CFG_CTRL lies in DMA_SELF, whose addresses steer to the issuing core's place (R202). -/
theorem aliasAddr_ctrl (block : BitVec 6) : aliasAddr 0 (commonBase block.toNat + 4) = commonBase block.toNat + 4 := by
  revert block; decide

/-- A command's write of CFG_CTRL in a block that answers takes effect within the command, in either clock domain. -/
theorem State.regCommand_ctrl {v : Nat} (hv : v < 2 ^ 32) (hal : aliasAddr 0 (commonBase b + 4) = commonBase b + 4)
    (hb : blockOf (commonBase b + 4) = some b) (hon : s.addrOn (commonBase b + 4) = true) (h5 : s.isUp 5 = true)
    (hx : s.xsync b = false) : s.regCommand (commonBase b + 4) v = s.ctrlWrite b v := by
  have hmask : v &&& 0xFFFFFFFF = v := by
    rw [show (0xFFFFFFFF : Nat) = 2 ^ 32 - 1 from rfl, Nat.and_two_pow_sub_one_eq_mod, Nat.mod_eq_of_lt hv]
  have hbus : s.busWrite 0 (commonBase b + 4) v =
      if crossesXt1 b then { s with crossing := s.crossing ++ [ctrlCrossing b v] } else s.ctrlWrite b v := by
    simp [State.busWrite, State.busWriteMask, hal, hb, hon, h5, hmask, State.commonWrite_ctrl]
  cases hc : crossesXt1 b
  · simp [State.regCommand, hbus, hb, hc]
  · simp [State.regCommand, hbus, hb, hc, State.flushXt1_ctrlCrossing v hx]

end

/-- R22 by command: VIEW keeps its value and the block's shadows are dropped, whether or not the write must cross into XT1. -/
theorem exec_discard {block : BitVec 6} {s : State} (hb : blockOf (commonBase block.toNat + 4) = some block.toNat)
    (hon : s.addrOn (commonBase block.toNat + 4) = true) (h5 : s.isUp 5 = true) (hx : s.xsync block.toNat = false) :
    exec (.discard block) s =
      .next ((s.setReg (kView block.toNat) (s.reg (kView block.toNat) % 2)).discard block.toNat) := by
  have hexec : exec (.discard block) s = .next (s.regCommand (commonBase block.toNat + 4) (s.reg (kView block.toNat) % 2 + 2)) :=
    rfl
  rw [hexec, State.regCommand_ctrl (by omega) (aliasAddr_ctrl block) hb hon h5 hx, State.ctrlWrite_discard]

theorem kView_ne_clkSwitchPending (b : Nat) : b ≠ 2 ∨ kView b ≠ kClkStat 7 := by
  by_cases hb : b = 2
  · subst hb; exact .inr (by decide)
  · exact .inl hb

/-! ### The obligations -/

/-- Settles O7: the check past the STOPPED test is `Rng.check` of the field's own or its coupled range, and the outcome is
appended to those of the fields before. -/
theorem fieldChecksInTableOrder : Obligations.FieldChecksInTableOrder := by
  unfold Obligations.FieldChecksInTableOrder
  intro s ws b o v f
  refine ⟨State.checkField_ro, State.checkField_refused, fun hty hn => ?_, fun c => ?_, fun fld a hf ha => ?_⟩
  · have hrange {r : Rng} (hf : f.rng = r) (hd : r ≠ .dep) : s.checkField ws b o f v = r.check v :=
      State.checkField_range hty hn hf hd
    refine ⟨fun l hf hv => ?enumReserved, fun l hf hv => ?enumDefined, fun lo hi hf hl => ?below, fun lo hi hf hl hh => ?above,
      fun lo hi hf hl hh => ?within, fun lo hi hf => ?zeroOr, fun hf => ?clear, State.checkField_dep hty hn, fun hf => ?any⟩
    case enumReserved => exact (hrange hf nofun).trans (Rng.check_enumOf_of_not_mem hv)
    case enumDefined => exact (hrange hf nofun).trans (Rng.check_enumOf_of_mem hv)
    case below => exact (hrange hf nofun).trans (Rng.check_rg_of_lt hl)
    case above => exact (hrange hf nofun).trans (Rng.check_rg_of_gt hl hh)
    case within => exact (hrange hf nofun).trans (Rng.check_rg_of_mem hl hh)
    case zeroOr => exact (hrange hf nofun).trans Rng.check_zeroOr
    case clear => exact hrange hf nofun
    case any => exact hrange hf nofun
  · refine ⟨fun x hx => ?_, fun hx => ?_, fun a ha => ?_, fun ha => ?_⟩
    · simp [State.checkInto_ws, hx]
    · simp [State.checkInto_ws, hx]
    · simp [State.checkInto_entries, ha]
    · simp [State.checkInto_entries, ha]
  · exact ⟨bits_rptEntry_field v hf ha, bits_rptEntry_action v ha, bits_rptEntry_value v⟩

/-- Settles O10: the command is `State.discard` behind a write of VIEW with its own value. -/
theorem discardDropsPendingValues : Obligations.DiscardDropsPendingValues := by
  unfold Obligations.DiscardDropsPendingValues
  intro block s b hb hon h5 hx
  refine ⟨_, exec_discard hb hon h5 hx, fun k hk => ?dropped, fun k hk => ?kept, fun k hv hc => ?inEffect, fun h2 => ?clk, ?view,
    by simp, by simp, by simp⟩
  case dropped => simp [State.pendingVal_discard, b, hk]
  case kept => simp [State.pendingVal_discard, b, hk]
  case inEffect => rw [State.reg_discard_other _ hc, State.reg_setReg_other _ _ _ _ hv.symm]
  case clk => simp only [b] at h2; rw [h2]; exact State.flag_discard_clk _
  case view => rw [State.reg_discard_other _ (kView_ne_clkSwitchPending b), State.reg_setReg]

end Sys2Proof.Machine
end

section
/-! SUPPORT. WAKE pins (R73–R76): what the detector does with a qualified change, case by case: the change is ignored, followed, or the
edge that masks the pin. -/
namespace Sys2Proof.Machine

/-! ### One bit of a number, a halyard event -/

theorem bit_setBit_true (n i : Nat) : bit (setBit n i true) i = true := by
  have hsplit : n = n % 2 ^ i + n / 2 ^ i * 2 ^ i := by rw [Nat.mul_comm]; exact (Nat.mod_add_div n (2 ^ i)).symm
  have hset : setBit n i true = n % 2 ^ i + (n / 2 ^ i - n / 2 ^ i % 2 + 1) * 2 ^ i := by
    have hle : n / 2 ^ i % 2 * 2 ^ i ≤ n / 2 ^ i * 2 ^ i := Nat.mul_le_mul_right _ (Nat.mod_le _ _)
    simp only [setBit, setBits, bits, ofBool, if_pos, Nat.pow_one, Nat.one_mod, Nat.one_mul, Nat.add_mul, Nat.sub_mul]
    omega
  have hquot : setBit n i true / 2 ^ i = n / 2 ^ i - n / 2 ^ i % 2 + 1 := by
    rw [hset, Nat.add_mul_div_right _ _ (Nat.two_pow_pos i), Nat.div_eq_of_lt (Nat.mod_lt _ (Nat.two_pow_pos i)), Nat.zero_add]
  simp only [bit, hquot, decide_eq_true_eq]
  omega

@[simp] theorem State.pin_halyard (s : State) (i n : Nat) : (s.halyard i).pin n = s.pin n := by
  obtain ⟨r, p, h⟩ := s.halyard_eq i; rw [h]; rfl

/-- R67: the event's bit of PMU_HAL_STAT stands. -/
theorem State.bit_halStat_halyard {s : State} (hon : s.aon = true) (i : Nat) : bit ((s.halyard i).reg kHalStat) i = true := by
  have hset : (s.setReg kHalStat (setBit (s.reg kHalStat) i true)).reg kHalStat = setBit (s.reg kHalStat) i true := s.reg_setReg _ _
  have hleave := State.reg_reef1Leave (s.setReg kHalStat (setBit (s.reg kHalStat) i true)) kHalStat (by decide)
  have hreg : (s.halyard i).reg kHalStat = setBit (s.reg kHalStat) i true := by
    simp only [State.halyard, hon]
    repeat' split
    · contradiction
    · exact hleave.trans hset
    · exact hset
    · exact hleave.trans hset
    · exact hset
  rw [hreg]; exact bit_setBit_true _ _

/-! ### A detector set back (R75, R76) -/

section
variable (s : State) (n : Nat)

@[simp] theorem State.pin_pinReset : (s.pinReset n).pin n = {} := by simp [State.pinReset]

theorem State.reg_pinReset_masked : (s.pinReset n).reg kPinMasked = setBit (s.reg kPinMasked) n false := by simp [State.pinReset]

theorem State.reg_pinReset_other {k : Key} (h : k ≠ kPinMasked) : (s.pinReset n).reg k = s.reg k := by
  simp [State.pinReset, State.reg_setReg_other _ _ _ _ h.symm]

end

/-! ### A qualified change (R74, R75) -/

/-- R74: the detector after a change that it follows. -/
def State.pinFollow (s : State) (n : Nat) (act : Bool) : Pin :=
  { s.pin n with
    armed := if s.reg (kPin n 2) == 1 && act then false else (s.pin n).armed || !act
    qual := some act
    edges := if (s.pin n).qual.isSome then (s.pin n).edges + 1 else (s.pin n).edges }

/-- R74: the change raises PIN. -/
def State.pinFires (s : State) (n : Nat) (act : Bool) : Bool :=
  (s.pin n).armed && s.flag (kPin n 0) && (act || s.reg (kPin n 2) == 2)

/-- The pin's input bit and its detector after a change that it follows, before any event. -/
def State.pinTrack (s : State) (n : Nat) (act : Bool) : State :=
  (s.setReg kPinIn (setBit (s.reg kPinIn) n act)).setPin n (s.pinFollow n act)

/-- R75: the pin's input bit and its detector at the edge that masks it, before the event. -/
def State.pinMask (s : State) (n : Nat) (act : Bool) : State :=
  (((s.setReg kPinIn (setBit (s.reg kPinIn) n act)).setReg kPinChat (setBit (s.reg kPinChat) n true)).setReg kPinMasked
    (setBit (s.reg kPinMasked) n true)).setPin n { masked := some 64 }

section
variable {s : State} {n : Nat} {level act : Bool}

theorem State.pinEdge_of_masked (h : (s.pin n).masked.isSome = true) : s.pinEdge n level = s := by
  simp [State.pinEdge, h]

/-- A change within the frame's 32 edges is followed, with the pin's event where the detector fires. -/
theorem State.pinEdge_follows (hact : (level != s.flag (kPin n 1)) = act) (hm : (s.pin n).masked = none)
    (hq : (s.pin n).qual ≠ some act) (he : (s.pin n).edges < 32) :
    s.pinEdge n level = if s.pinFires n act then (s.pinTrack n act).pinEvent n else s.pinTrack n act := by
  have hfew : decide (32 < (s.pin n).edges + 1) = false := decide_eq_false (by omega)
  simp only [State.pinEdge, hact, hm, hfew]
  simp [hq, State.pinFires, State.pinTrack, State.pinFollow, hm]

/-- R75: the 33rd edge of a frame masks the pin. -/
theorem State.pinEdge_chatters (hact : (level != s.flag (kPin n 1)) = act) (hm : (s.pin n).masked = none)
    (hq : (s.pin n).qual = some (!act)) (he : (s.pin n).edges = 32) :
    s.pinEdge n level = (s.pinMask n act).halyard 12 := by
  simp only [State.pinEdge, hact, hm, hq, he]
  simp [State.pinMask, State.reg_setReg_iff, kPinIn, kPinChat, kPinMasked, fk]

/-- An enabled detector that is armed fires at a change to the active level, and at any change in mode 2. -/
theorem State.pinFires_of_armed (ha : (s.pin n).armed = true) (hen : s.flag (kPin n 0) = true) :
    s.pinFires n act = (act || s.reg (kPin n 2) == 2) := by simp [State.pinFires, ha, hen]

theorem State.pinFires_of_not_armed (h : (s.pin n).armed = false ∨ s.flag (kPin n 0) = false) : s.pinFires n act = false := by
  rcases h with h | h <;> simp [State.pinFires, h]

/-- A detector that is not armed arms with a change to the inactive level. -/
theorem State.armed_pinFollow (ha : (s.pin n).armed = false) : (s.pinFollow n act).armed = !act := by
  cases act <;> simp [State.pinFollow, ha]

/-- R74: in mode 1 the active level disarms. -/
theorem State.armed_pinFollow_level (hmode : s.reg (kPin n 2) = 1) : (s.pinFollow n true).armed = false := by
  simp [State.pinFollow, hmode]

@[simp] theorem State.pin_pinTrack : (s.pinTrack n act).pin n = s.pinFollow n act := by simp [State.pinTrack]

theorem State.reg_pinTrack_in : (s.pinTrack n act).reg kPinIn = setBit (s.reg kPinIn) n act := by simp [State.pinTrack]

theorem State.reg_pinTrack_other {k : Key} (h : k ≠ kPinIn) : (s.pinTrack n act).reg k = s.reg k := by
  simp [State.pinTrack, State.reg_setReg_other _ _ _ _ h.symm]

@[simp] theorem State.pin_pinMask : (s.pinMask n act).pin n = { masked := some 64 } := by simp [State.pinMask]

theorem State.reg_pinMask_chat : (s.pinMask n act).reg kPinChat = setBit (s.reg kPinChat) n true := by
  rw [State.pinMask, State.reg_of_setPin, State.reg_setReg_other _ _ _ _ (by decide), State.reg_setReg]

theorem State.reg_pinMask_masked : (s.pinMask n act).reg kPinMasked = setBit (s.reg kPinMasked) n true := by simp [State.pinMask]

theorem State.reg_pinMask_stat : (s.pinMask n act).reg kPinStat = s.reg kPinStat := by
  rw [State.pinMask, State.reg_of_setPin, State.reg_setReg_other _ _ _ _ (by decide), State.reg_setReg_other _ _ _ _ (by decide),
    State.reg_setReg_other _ _ _ _ (by decide)]

@[simp] theorem State.pin_pinEvent : (s.pinEvent n).pin n = s.pin n := by simp [State.pinEvent]

theorem State.reg_pinEvent_stat : (s.pinEvent n).reg kPinStat = setBit (s.reg kPinStat) n true := by
  simp [State.pinEvent, State.reg_halyard _ 0 kPinStat (by decide) (by decide)]

theorem State.reg_pinEvent_in : (s.pinEvent n).reg kPinIn = s.reg kPinIn := by
  rw [State.pinEvent, State.reg_halyard _ 0 kPinIn (by decide) (by decide), State.reg_setReg_other _ _ _ _ (by decide)]

theorem State.bit_halStat_pinEvent (hon : s.aon = true) : bit ((s.pinEvent n).reg kHalStat) 0 = true :=
  State.bit_halStat_halyard (s := s.setReg kPinStat (setBit (s.reg kPinStat) n true)) hon 0

end

/-! A change that the detector follows: what it leaves in the registers and in the detector. -/

section
variable {s : State} {n : Nat} {level act : Bool} (hact : (level != s.flag (kPin n 1)) = act) (hm : (s.pin n).masked = none)
  (hq : (s.pin n).qual ≠ some act) (he : (s.pin n).edges < 32)
include hact hm hq he

theorem State.pin_pinEdge : (s.pinEdge n level).pin n = s.pinFollow n act := by
  rw [State.pinEdge_follows hact hm hq he]
  split <;> simp

theorem State.reg_pinEdge_in : (s.pinEdge n level).reg kPinIn = setBit (s.reg kPinIn) n act := by
  rw [State.pinEdge_follows hact hm hq he]
  split
  · rw [State.reg_pinEvent_in, State.reg_pinTrack_in]
  · exact State.reg_pinTrack_in

theorem State.pinEdge_raises (hon : s.aon = true) (hf : s.pinFires n act = true) :
    (s.pinEdge n level).reg kPinStat = setBit (s.reg kPinStat) n true ∧ bit ((s.pinEdge n level).reg kHalStat) 0 = true := by
  rw [State.pinEdge_follows hact hm hq he, if_pos hf]
  exact ⟨by rw [State.reg_pinEvent_stat, State.reg_pinTrack_other (by decide)], State.bit_halStat_pinEvent hon⟩

theorem State.pinEdge_quiet (hf : s.pinFires n act = false) :
    (s.pinEdge n level).reg kPinStat = s.reg kPinStat ∧ (s.pinEdge n level).reg kHalStat = s.reg kHalStat := by
  rw [State.pinEdge_follows hact hm hq he, hf]
  exact ⟨State.reg_pinTrack_other (by decide), State.reg_pinTrack_other (by decide)⟩

end

/-! ### The commands of a pin -/

theorem exec_wakePinEdge {pin : Fin 16} {level : Bool} {s : State} (hon : s.aon = true) :
    exec (.wakePinEdge pin level) s = .next (s.pinEdge pin level) := congrArg Host.Outcome.next (if_pos hon)

theorem exec_wakePinUnmask {pin : Fin 16} {s : State} (hon : s.aon = true) (hm : (s.pin pin).masked = some 0) :
    exec (.wakePinUnmask pin) s = .next (s.pinReset pin) := congrArg Host.Outcome.next (if_pos (by simp [hon, hm]))

end Sys2Proof.Machine
end

section
/-! SUPPORT. A write of WAKE_PINn (R76): which fields a word write brings (R25), and a write that crosses into XT1 and takes effect with
its command (R34). -/
namespace Sys2Proof.Machine

/-! ### What a word write brings (R25) -/

/-- Table 2-1: bounds alone never refuse a value, they clamp it. -/
theorem Rng.exists_check_rg (lo hi v : Nat) : ∃ x, ((Rng.rg lo hi).check v).1 = some x := by
  dsimp only [Rng.check]
  repeat' split
  all_goals exact ⟨_, rfl⟩

section
variable {s : State} {b o v mask : Nat}

/-- Every value that a word write brings goes to a field of its register. -/
theorem State.key_of_mem_checkWord : ∀ w ∈ (s.checkWord b o v mask).ws,
    ∃ f ∈ (regDef b o).getD [], w.1 = fk (blockBase b + o) f.lo := by
  refine List.foldlRecOn ((regDef b o).getD []) _
    (motive := fun c : Checked => ∀ w ∈ c.ws, ∃ f ∈ (regDef b o).getD [], w.1 = fk (blockBase b + o) f.lo) (by simp)
    fun c hc f hf => ?_
  split
  · exact hc
  · intro w hw
    rcases List.mem_append.mp (State.checkInto_ws c ▸ hw) with hw | hw
    · exact hc w hw
    · refine ⟨f, hf, ?_⟩
      revert hw
      generalize (s.checkField c.ws b o f _).1 = r
      cases r with
      | none => simp
      | some x => simp only [Option.elim_some, List.mem_singleton]; rintro rfl; rfl

/-- A LIVE field with bounds of its own takes some value of every write, so a write of its register brings one. -/
theorem State.checkWord_ws_ne_nil {f : Fld} {l : List Fld} {lo hi : Nat} (hreg : regDef b o = some (f :: l)) (hty : f.ty = .rw)
    (hcls : f.cls = .live) (hrng : f.rng = .rg lo hi) (hmask : f.mask &&& mask ≠ 0) : (s.checkWord b o v mask).ws ≠ [] := by
  simp only [State.checkWord, hreg, Option.getD_some, List.foldl_cons]
  refine List.foldlRecOn l _ (motive := fun c : Checked => c.ws ≠ []) ?first fun c hc g _ => ?later
  case first =>
    rw [if_neg (by simp [hmask]), State.checkInto_ws, State.checkField_range (.inl hty) (by simp [hcls]) hrng nofun]
    obtain ⟨y, hy⟩ := Rng.exists_check_rg lo hi _
    rw [hy]; simp
  case later =>
    split
    · exact hc
    · rw [State.checkInto_ws]; exact fun h => hc (List.append_eq_nil_iff.mp h).1

end

/-! ### A write takes effect -/

theorem State.applyField_eq (s : State) (w : Key × Nat) : ∃ r h, s.applyField w = { s with regs := r, shadow := h } := by
  unfold State.applyField
  repeat' split
  all_goals exact ⟨_, _, rfl⟩

theorem State.reg_applyField_other {s : State} {w : Key × Nat} {k : Key} (h : w.1 ≠ k) : (s.applyField w).reg k = s.reg k := by
  have hset (v : Nat) : (s.setReg w.1 v).reg k = s.reg k := State.reg_setReg_other _ _ _ _ h
  unfold State.applyField
  split
  · rfl
  · split
    · rfl
    · exact hset _
    · split <;> rfl
    · split
      · rfl
      · exact hset _

/-- The fields of a write reach no other register, and nothing crosses. -/
theorem State.foldl_applyField (s : State) (ws : List (Key × Nat)) : (ws.foldl State.applyField s).crossing = s.crossing ∧
    ∀ k, (∀ w ∈ ws, w.1 ≠ k) → (ws.foldl State.applyField s).reg k = s.reg k := by
  induction ws generalizing s with
  | nil => exact ⟨rfl, fun _ _ => rfl⟩
  | cons w ws ih =>
    obtain ⟨hc, hr⟩ := ih (s.applyField w)
    refine ⟨hc.trans ?_, fun k hk => ?_⟩
    · obtain ⟨r, h, e⟩ := s.applyField_eq w; rw [e]
    · rw [List.foldl_cons, hr k fun x hx => hk x (.tail _ hx), State.reg_applyField_other (hk w (.head _))]

/-- Reports go into the rings alone. -/
theorem State.reportAll_eq (s : State) (b : Nat) (es : List Nat) :
    ∃ r g, s.reportAll b es = { s with rings := r, gring := g } := by
  induction es generalizing s with
  | nil => exact ⟨_, _, rfl⟩
  | cons e es ih => obtain ⟨r, g, h⟩ := ih (s.report b e); exact ⟨r, g, h⟩

@[simp] theorem State.reg_reportAll (s : State) (b : Nat) (es : List Nat) (k : Key) : (s.reportAll b es).reg k = s.reg k := by
  obtain ⟨r, g, h⟩ := s.reportAll_eq b es; rw [h]; rfl

@[simp] theorem State.xsync_reportAll (s : State) (b : Nat) (es : List Nat) (x : Nat) : (s.reportAll b es).xsync x = s.xsync x := by
  obtain ⟨r, g, h⟩ := s.reportAll_eq b es; rw [h]; rfl

/-! ### A write crosses into XT1 (R34) -/

section
variable {s : State} {c : Crossing}

/-- A register write that is its block's only one crossing takes effect next, and the others go on crossing. -/
theorem State.crossOne_append (hx : s.xsync c.block = false) (ha : c.addr ≠ commonBase c.block + 4) :
    ({ s with crossing := s.crossing ++ [c] } : State).crossOne c.block = s.takeWrite 0 c.block c.addr c.writes := by
  have hnone := State.find?_crossing_of_not_xsync hx
  have hfind : (s.crossing ++ [c]).find? (fun x => x.block == c.block) = some c := by simp [List.find?_append, hnone]
  have hnew : c ∉ s.crossing := fun hm => by simpa using List.find?_eq_none.mp hnone _ hm
  have herase : (s.crossing ++ [c]).erase c = s.crossing := by simp [List.erase_append_right _ hnew]
  simp only [State.crossOne, hfind, herase]
  exact if_neg ha

/-- With no other write of the block crossing, a flush brings the register write into effect and does nothing more. -/
theorem State.flushXt1_append (hx : s.xsync c.block = false) (ha : c.addr ≠ commonBase c.block + 4)
    (hdone : (s.takeWrite 0 c.block c.addr c.writes).xsync c.block = false) :
    ({ s with crossing := s.crossing ++ [c] } : State).flushXt1 c.block = s.takeWrite 0 c.block c.addr c.writes := by
  obtain ⟨d, l, hl⟩ : ∃ d l, s.crossing ++ [c] = d :: l := List.exists_cons_of_ne_nil (by simp)
  rw [State.flushXt1]
  simp only [hl, List.foldl_cons]
  rw [← hl, State.crossOne_append hx ha, State.foldl_crossOne_of_not_xsync l hdone]

end

/-- A command's register write in an XT1 block that answers, where it brings a value: the checks, the report, and the write taking
effect within the command. -/
theorem State.regCommand_crossing {s : State} {a v b : Nat} {c : Checked} (hb : blockOf a = some b) (hon : s.addrOn a = true)
    (h5 : s.isUp 5 = true) (hal : aliasAddr 0 a = a) (h1 : ¬(commonBase b ≤ a ∧ a < commonBase b + 0x30))
    (h2 : ¬(0x40000DF8 ≤ a ∧ a < 0x40000F00)) (hxt1 : crossesXt1 b = true) (hx : s.xsync b = false)
    (hc : s.checkWord b (a - blockBase b) v 0xFFFFFFFF = c) (hne : c.ws ≠ [])
    (hdone : ((s.reportAll b c.entries).takeWrite 0 b a c.ws).xsync b = false) :
    s.regCommand a v = (s.reportAll b c.entries).takeWrite 0 b a c.ws := by
  have hbus : s.busWrite 0 a v = { s.reportAll b c.entries with
      crossing := (s.reportAll b c.entries).crossing ++ [{ block := b, addr := a, writes := c.ws }] } := by
    simp [State.busWrite, State.busWriteMask, hal, hb, hon, h5, s.commonWrite_none b a _ h1 h2, hxt1, hc, hne]
  have hflush := State.flushXt1_append (s := s.reportAll b c.entries) (c := { block := b, addr := a, writes := c.ws }) (by simpa using hx)
    (by dsimp only; omega) hdone
  simp only [State.regCommand, hbus, hb, hxt1]
  exact hflush

/-! ### A write of WAKE_PINn (R76) -/

section
variable (pin : Fin 16)

theorem blockOf_wakePin : blockOf (0x40011000 + 4 * pin) = some 0x11 := by revert pin; decide

theorem aliasAddr_wakePin : aliasAddr 0 (0x40011000 + 4 * pin) = 0x40011000 + 4 * pin := by revert pin; decide

/-- EN is the first field of WAKE_PINn. -/
theorem regDef_wakePin : ∃ l, regDef 0x11 (4 * pin) = some (fL 0 1 (5 * pin) 0 r01 :: l) := by
  have ho : 4 * pin.val < 0x40 ∧ 4 * pin.val % 4 = 0 := by omega
  exact ⟨_, by simp only [regDef, wakeRegs, if_pos ho, Nat.mul_div_cancel_left _ (Nat.succ_pos 3)]; rfl⟩

theorem wakePin_key_ne_masked : ∀ f ∈ (regDef 0x11 (4 * pin)).getD [], fk (blockBase 0x11 + 4 * pin) f.lo ≠ kPinMasked := by
  revert pin; decide

theorem wakePin_offset : 0x40011000 + 4 * pin.val - blockBase 0x11 = 4 * pin := by
  simp [show blockBase 0x11 = 0x40011000 from rfl]

end

section
variable {s : State} {pin : Fin 16}

/-- A write that brings WAKE_PINn a value sets its detector back once its fields are in effect. -/
theorem State.takeWrite_wakePin {ws : List (Key × Nat)} (hne : ws ≠ []) :
    s.takeWrite 0 0x11 (0x40011000 + 4 * pin) ws = (ws.foldl State.applyField s).pinReset pin := by
  have hlt : 4 * pin.val < 0x40 := by omega
  simp [State.takeWrite, State.blockAct, State.wakeAct, wakePin_offset, hlt, hne]

theorem State.xsync_takeWrite_wakePin {ws : List (Key × Nat)} (hne : ws ≠ []) :
    (s.takeWrite 0 0x11 (0x40011000 + 4 * pin) ws).xsync 0x11 = s.xsync 0x11 := by
  rw [State.takeWrite_wakePin hne]
  exact congrArg (·.any (fun c => c.block == 0x11)) (State.foldl_applyField s ws).1

/-- R76: whatever the word written, the command ends with the detector set back, and no field of WAKE_PINn is WAKE_MASKED. -/
theorem exec_wakePinWrite (value : Word) (hon : s.aon = true) (h5 : s.isUp 5 = true) (hx : s.xsync 0x11 = false) :
    ∃ u : State, exec (.wakePinWrite pin value) s = .next (u.pinReset pin) ∧ u.reg kPinMasked = s.reg kPinMasked := by
  obtain ⟨l, hreg⟩ := regDef_wakePin pin
  have hcommon : commonBase 0x11 = 0x40011F80 := rfl
  have haddr : s.addrOn (0x40011000 + 4 * pin) = true := by simp [State.addrOn, blockOf_wakePin, State.blockOn, blockDoms, hon]
  have hck := congrArg (fun o => s.checkWord 0x11 o value.toNat 0xFFFFFFFF) (wakePin_offset pin)
  have hne : (s.checkWord 0x11 (4 * pin) value.toNat 0xFFFFFFFF).ws ≠ [] :=
    State.checkWord_ws_ne_nil hreg rfl rfl rfl (by simp [fL, Fld.mask])
  have hcmd := State.regCommand_crossing (blockOf_wakePin pin) haddr h5 (aliasAddr_wakePin pin) (by omega) (by omega) rfl hx hck hne
    (by rw [State.xsync_takeWrite_wakePin hne, State.xsync_reportAll, hx])
  refine ⟨_, congrArg Host.Outcome.next (hcmd.trans (State.takeWrite_wakePin hne)), ?_⟩
  rw [(State.foldl_applyField _ _).2 kPinMasked, State.reg_reportAll]
  intro w hw
  obtain ⟨f, hf, hkey⟩ := State.key_of_mem_checkWord w hw
  exact hkey ▸ wakePin_key_ne_masked pin f hf

end

/-! ### The obligations -/

/-- Settles O17: the edge command is `State.pinEdge`, which ignores a change of a masked pin, follows one within the frame's 32 edges,
and masks the pin at the 33rd, enabled or not (log entry 139). -/
theorem wakePinDetector : Obligations.WakePinDetector := by
  unfold Obligations.WakePinDetector
  intro pin s hon
  refine ⟨fun level => exec_wakePinEdge hon, fun level hm => ?ignored, fun level hm hq he => ?followed, fun level hm hq he => ?chatter,
    fun hm => ?unmask⟩
  case ignored => rw [exec_wakePinEdge hon, State.pinEdge_of_masked hm]
  case followed =>
    intro act t mode raises quiet
    have hraises : s.pinFires pin act = true → raises := State.pinEdge_raises rfl hm hq he hon
    have hquiet : s.pinFires pin act = false → quiet := State.pinEdge_quiet rfl hm hq he
    have hpin : t.pin pin = s.pinFollow pin act := State.pin_pinEdge rfl hm hq he
    refine ⟨State.reg_pinEdge_in rfl hm hq he, fun ha hen => ?_, fun hoff => hquiet (State.pinFires_of_not_armed hoff), fun ha => ?arms⟩
    · have hfires : s.pinFires pin act = (act || mode == 2) := State.pinFires_of_armed ha hen
      refine ⟨fun hmode => ?edge, fun hmode => ?level, fun hmode => hraises (hfires.trans (by simp [hmode]))⟩
      case edge =>
        split
        · next hb => exact hraises (hfires.trans (by simp [hb]))
        · next hb => exact hquiet (hfires.trans (by simp [hb, hmode]))
      case level =>
        split
        · next hb => exact ⟨hraises (hfires.trans (by simp [hb])), by rw [hpin, hb]; exact State.armed_pinFollow_level hmode⟩
        · next hb => exact hquiet (hfires.trans (by simp [hb, hmode]))
    case arms => rw [hpin]; exact State.armed_pinFollow ha
  case chatter =>
    intro t
    have ht : t = (s.pinMask pin (level != s.flag (kPin pin 1))).halyard 12 := State.pinEdge_chatters rfl hm hq he
    have hreg {k : Key} (h : k ≠ kHalStat) (hl : k ≠ kLevel) : t.reg k = (s.pinMask pin (level != s.flag (kPin pin 1))).reg k := by
      rw [ht]; exact State.reg_halyard _ 12 k h hl
    refine ⟨by rw [ht, State.pin_halyard, State.pin_pinMask], ?chat, ?masked, ?event, ?stat⟩
    case chat => rw [hreg (by decide) (by decide), State.reg_pinMask_chat]; exact bit_setBit_true _ _
    case masked => rw [hreg (by decide) (by decide), State.reg_pinMask_masked]; exact bit_setBit_true _ _
    case event => rw [ht]; exact State.bit_halStat_halyard (s := s.pinMask pin (level != s.flag (kPin pin 1))) hon 12
    case stat => rw [hreg (by decide) (by decide), State.reg_pinMask_stat]
  case unmask =>
    exact ⟨_, exec_wakePinUnmask hon hm, State.pin_pinReset _ _, State.reg_pinReset_masked _ _,
      fun _ hk => State.reg_pinReset_other _ _ hk⟩

/-- Settles O18: the write ends in `State.pinReset`, and a detector set back follows the next change without firing. -/
theorem wakePinWriteUnarmsDetector : Obligations.WakePinWriteUnarmsDetector := by
  unfold Obligations.WakePinWriteUnarmsDetector
  intro pin value s hon h5 hx
  constructor
  · obtain ⟨u, hexec, hmasked⟩ := exec_wakePinWrite (pin := pin) value hon h5 hx
    exact ⟨_, hexec, State.pin_pinReset _ _, by rw [State.reg_pinReset_masked, hmasked]⟩
  · intro u huon hpin level
    have hf : (u.pinEdge pin level).pin pin = u.pinFollow pin (level != u.flag (kPin pin 1)) :=
      State.pin_pinEdge rfl (by rw [hpin]) (by rw [hpin]; nofun) (by rw [hpin]; decide)
    refine ⟨_, exec_wakePinEdge huon, ?_⟩
    rw [hf, State.armed_pinFollow (by rw [hpin])]
    simp

end Sys2Proof.Machine
end

section
/-! SUPPORT. The calendar (R102): Gregorian month lengths, the days counted since 2000-01-01, and the roll-over of a second, carry by
carry. -/
namespace Sys2Proof.Machine

/-! ### Dates -/

theorem leapYear_iff (y : Nat) :
    leapYear y = true ↔ (2000 + y) % 4 = 0 ∧ ((2000 + y) % 100 ≠ 0 ∨ (2000 + y) % 400 = 0) := by
  have hmod : (2000 + y) % 4 = y % 4 := by omega
  simp [leapYear, hmod]

theorem monthLen_eq (y m : Nat) : monthLen y m =
    if m = 2 then (if (2000 + y) % 4 = 0 ∧ ((2000 + y) % 100 ≠ 0 ∨ (2000 + y) % 400 = 0) then 29 else 28)
    else if m ∈ [4, 6, 9, 11] then 30 else 31 := by
  simp [monthLen, leapYear_iff]

theorem monthLen_pos (y m : Nat) : 1 ≤ monthLen y m := by
  unfold monthLen
  repeat' split
  all_goals decide

theorem monthLen_december (y : Nat) : monthLen y 12 = 31 := rfl

/-! ### Days since 2000-01-01 -/

theorem monthStart_succ (y : Nat) {m : Nat} (hm : 1 ≤ m) : monthStart y (m + 1) = monthStart y m + monthLen y m := by
  obtain ⟨i, rfl⟩ := Nat.exists_eq_add_of_le' hm
  simp [monthStart, List.range_succ]

/-- The twelve months fill the year. -/
theorem yearStart_succ (y : Nat) : yearStart (y + 1) = yearStart y + (monthStart y 12 + monthLen y 12) := by
  cases h : leapYear y <;> simp [yearStart, monthStart, monthLen, List.range_succ, h]

section
variable (y : Nat)

theorem daysSince_nextDay (m : Nat) {d : Nat} (hd : 1 ≤ d) : daysSince y m (d + 1) = daysSince y m d + 1 := by
  simp only [daysSince]; omega

theorem daysSince_nextMonth {m : Nat} (hm : 1 ≤ m) : daysSince y (m + 1) 1 = daysSince y m (monthLen y m) + 1 := by
  have hlen := monthLen_pos y m
  simp only [daysSince, monthStart_succ y hm]; omega

theorem daysSince_nextYear : daysSince (y + 1) 1 1 = daysSince y 12 (monthLen y 12) + 1 := by
  have hjanuary : monthStart (y + 1) 1 = 0 := rfl
  have hlen := monthLen_pos y 12
  simp only [daysSince, yearStart_succ, hjanuary]; omega

end

/-- R102: weekdays follow one another as the days do. -/
theorem wday_of_daysSince_succ {y m d y' m' d' : Nat} (h : daysSince y' m' d' = daysSince y m d + 1) :
    wday y' m' d' = (wday y m d + 1) % 7 := by
  simp only [wday, h]; omega

/-! ### The roll-over of a second -/

/-- Table 6-1: every calendar field is within its range. -/
structure Rtc.Legal (r : Rtc) : Prop where
  sec : r.sec ≤ 59
  min : r.min ≤ 59
  hour : r.hour ≤ 23
  month_pos : 1 ≤ r.month
  month_le : r.month ≤ 12
  day_pos : 1 ≤ r.day
  day_le : r.day ≤ monthLen r.year r.month
  year : r.year ≤ 255

/-- The last second of a day. -/
structure Rtc.DayEnds (r : Rtc) : Prop where
  sec : r.sec = 59
  min : r.min = 59
  hour : r.hour = 23

section
variable {r : Rtc}

@[simp] theorem Rtc.nextSecond_sub (r : Rtc) : r.nextSecond.sub = 0 := by
  unfold Rtc.nextSecond
  repeat' split
  all_goals rfl

theorem Rtc.nextSecond_of_sec_lt (hs : r.sec < 59) : r.nextSecond = { r with sub := 0, sec := r.sec + 1 } := if_pos hs

theorem Rtc.nextSecond_of_min_lt (hs : r.sec = 59) (hm : r.min < 59) :
    r.nextSecond = { r with sub := 0, sec := 0, min := r.min + 1 } := by
  simp [Rtc.nextSecond, hs, hm]

theorem Rtc.nextSecond_of_hour_lt (hs : r.sec = 59) (hm : r.min = 59) (hh : r.hour < 23) :
    r.nextSecond = { r with sub := 0, sec := 0, min := 0, hour := r.hour + 1 } := by
  simp [Rtc.nextSecond, hs, hm, hh]

theorem Rtc.nextSecond_of_day_lt (h : r.DayEnds) (hd : r.day < monthLen r.year r.month) :
    r.nextSecond = { r with sub := 0, sec := 0, min := 0, hour := 0, day := r.day + 1 } := by
  simp [Rtc.nextSecond, h.sec, h.min, h.hour, hd]

theorem Rtc.nextSecond_of_month_lt (h : r.DayEnds) (hd : r.day = monthLen r.year r.month) (hM : r.month < 12) :
    r.nextSecond = { r with sub := 0, sec := 0, min := 0, hour := 0, day := 1, month := r.month + 1 } := by
  simp [Rtc.nextSecond, h.sec, h.min, h.hour, hd, hM]

theorem Rtc.nextSecond_of_december (h : r.DayEnds) (hd : r.day = monthLen r.year r.month) (hM : r.month = 12) :
    r.nextSecond = { r with sub := 0, sec := 0, min := 0, hour := 0, day := 1, month := 1, year := (r.year + 1) % 256 } := by
  simp [Rtc.nextSecond, h.sec, h.min, h.hour, hd, hM]

/-- Both carries of a month's last day in one expression. -/
theorem Rtc.nextSecond_of_monthEnd (hl : r.Legal) (h : r.DayEnds) (hd : r.day = monthLen r.year r.month) :
    r.nextSecond = { r with
      sub := 0, sec := 0, min := 0, hour := 0, day := 1, month := r.month % 12 + 1, year := (r.year + r.month / 12) % 256 } := by
  rcases Nat.lt_or_eq_of_le hl.month_le with hM | hM
  · have hyear := hl.year
    have hcarry : r.month % 12 + 1 = r.month + 1 ∧ (r.year + r.month / 12) % 256 = r.year := by omega
    obtain ⟨hmonth, hsame⟩ := hcarry
    rw [Rtc.nextSecond_of_month_lt h hd hM, hmonth, hsame]
  · rw [Rtc.nextSecond_of_december h hd hM, hM]

/-- How far the carry of a legal calendar goes. -/
theorem Rtc.Legal.carry (hl : r.Legal) : r.sec < 59 ∨ (r.sec = 59 ∧ r.min < 59) ∨ (r.sec = 59 ∧ r.min = 59 ∧ r.hour < 23) ∨
    (r.DayEnds ∧ r.day < monthLen r.year r.month) ∨ (r.DayEnds ∧ r.day = monthLen r.year r.month) := by
  rcases Nat.lt_or_eq_of_le hl.sec with hs | hs
  · exact .inl hs
  rcases Nat.lt_or_eq_of_le hl.min with hm | hm
  · exact .inr (.inl ⟨hs, hm⟩)
  rcases Nat.lt_or_eq_of_le hl.hour with hh | hh
  · exact .inr (.inr (.inl ⟨hs, hm, hh⟩))
  exact .inr (.inr (.inr ((Nat.lt_or_eq_of_le hl.day_le).imp (⟨⟨hs, hm, hh⟩, ·⟩) (⟨⟨hs, hm, hh⟩, ·⟩))))

theorem Rtc.Legal.nextSecond (hl : r.Legal) : r.nextSecond.Legal := by
  rcases hl.carry with hs | ⟨hs, hm⟩ | ⟨hs, hm, hh⟩ | ⟨h, hd⟩ | ⟨h, hd⟩
  · rw [Rtc.nextSecond_of_sec_lt hs]; exact { hl with sec := hs }
  · rw [Rtc.nextSecond_of_min_lt hs hm]; exact { hl with sec := Nat.zero_le _, min := hm }
  · rw [Rtc.nextSecond_of_hour_lt hs hm hh]
    exact { hl with sec := Nat.zero_le _, min := Nat.zero_le _, hour := hh }
  · rw [Rtc.nextSecond_of_day_lt h hd]
    exact { hl with sec := Nat.zero_le _, min := Nat.zero_le _, hour := Nat.zero_le _, day_pos := Nat.succ_pos _, day_le := hd }
  · rw [Rtc.nextSecond_of_monthEnd hl h hd]
    exact {
      sec := Nat.zero_le _, min := Nat.zero_le _, hour := Nat.zero_le _, month_pos := Nat.succ_pos _
      month_le := Nat.mod_lt _ (by decide), day_pos := Nat.le_refl _, day_le := monthLen_pos _ _
      year := Nat.le_of_lt_succ (Nat.mod_lt _ (by decide)) }

/-- Midnight brings the next day of the count, up to the end of 2255. -/
theorem Rtc.daysSince_nextSecond (hl : r.Legal) (h : r.DayEnds) (hlast : ¬(r.year = 255 ∧ r.month = 12 ∧ r.day = 31)) :
    daysSince r.nextSecond.year r.nextSecond.month r.nextSecond.day = daysSince r.year r.month r.day + 1 := by
  rcases Nat.lt_or_eq_of_le hl.day_le with hd | hd
  · rw [Rtc.nextSecond_of_day_lt h hd]; exact daysSince_nextDay _ _ hl.day_pos
  rcases Nat.lt_or_eq_of_le hl.month_le with hM | hM
  · rw [Rtc.nextSecond_of_month_lt h hd hM, hd]; exact daysSince_nextMonth _ hl.month_pos
  · have hday : r.day = 31 := by rw [hd, hM, monthLen_december]
    have hyear : (r.year + 1) % 256 = r.year + 1 := by have := hl.year; omega
    rw [Rtc.nextSecond_of_december h hd hM, hd, hM]
    simp only [hyear]
    exact daysSince_nextYear _

end

end Sys2Proof.Machine
end

section
/-! SUPPORT. RTC's commands (R100–R108): what a comparison of the alarms leaves unchanged, the write of RTC_CTRL that CAPTURE and LOAD
are, and the backup power-on reset. -/
namespace Sys2Proof.Machine

/-! ### The comparison of the alarms (R107, R108) -/

/-- A match changes registers and what is kept for a wake. -/
theorem State.alarm_eq (s : State) (n : Nat) : ∃ r p, s.alarm n = { s with regs := r, pmu := p } := by
  unfold State.alarm
  split
  · exact State.halyard_eq _ _
  · exact ⟨_, _, rfl⟩

theorem State.alarms_eq (s : State) : ∃ r p, s.alarms = { s with regs := r, pmu := p } := by
  obtain ⟨r, p, h0⟩ := s.alarm_eq 0
  obtain ⟨r', p', h1⟩ := (s.alarm 0).alarm_eq 1
  exact ⟨r', p', by rw [State.alarms, h1, h0]⟩

@[simp] theorem State.alarms_rtc (s : State) : s.alarms.rtc = s.rtc := by
  obtain ⟨r, p, h⟩ := s.alarms_eq; rw [h]

@[simp] theorem State.alarms_crossing (s : State) : s.alarms.crossing = s.crossing := by
  obtain ⟨r, p, h⟩ := s.alarms_eq; rw [h]

theorem State.reg_alarm {s : State} {n : Nat} {k : Key} (he : k ≠ kRtcEvent n) (h : k ≠ kHalStat) (hl : k ≠ kLevel) :
    (s.alarm n).reg k = s.reg k := by
  unfold State.alarm
  split
  · rw [State.reg_halyard _ _ _ h hl, State.reg_setFlag_other _ _ _ _ he.symm]
  · rfl

/-- VALID is none of the registers that a match can change. -/
theorem State.flag_alarms_valid (s : State) : s.alarms.flag (kRtcStat 0) = s.flag (kRtcStat 0) := by
  simp only [State.flag, State.alarms]
  rw [State.reg_alarm (by decide) (by decide) (by decide), State.reg_alarm (by decide) (by decide) (by decide)]

/-! ### CAPTURE and LOAD (R104, R105) -/

@[simp] theorem State.rtcCapture_rtc (s : State) : s.rtcCapture.rtc = s.rtc := rfl
@[simp] theorem State.rtcCapture_crossing (s : State) : s.rtcCapture.crossing = s.crossing := rfl

@[simp] theorem State.rtcLoad_crossing (s : State) : s.rtcLoad.crossing = s.crossing := by
  simp [State.rtcLoad]

@[simp] theorem State.rtcLoad_rtc (s : State) : s.rtcLoad.rtc = { s.rtc with
    sub := 0, sec := s.reg (fk 0x40003004 0), min := s.reg (fk 0x40003004 8), hour := s.reg (fk 0x40003004 16)
    year := s.reg (fk 0x40003008 0), month := s.reg (fk 0x40003008 8), day := s.reg (fk 0x40003008 16) } := by
  simp [State.rtcLoad]

theorem State.rtcLoad_valid (s : State) : s.rtcLoad.flag (kRtcStat 0) = true := by
  simp [State.rtcLoad, State.flag_alarms_valid]

@[simp] theorem State.rtcAct_crossing (s : State) (o : Nat) (ws : List (Key × Nat)) : (s.rtcAct o ws).crossing = s.crossing := by
  unfold State.rtcAct
  dsimp only
  repeat' split
  all_goals simp

theorem blockBase_rtc : blockBase 3 = 0x40003000 := by decide

theorem regDef_rtcCtrl : regDef 3 0 = some [fW 0 1 0, fW 1 1 1] := rfl

theorem fldOf_rtcCtrl_load : fldOf (fk 0x40003000 0) = some (fW 0 1 0) := by decide

theorem fldOf_rtcCtrl_capture : fldOf (fk 0x40003000 1) = some (fW 1 1 1) := by decide

/-- A write-only field takes whatever is written. -/
theorem State.checkInto_fW (s : State) (b o lo w no v : Nat) (c : Checked) :
    s.checkInto b o c (fW lo w no) v = { c with ws := c.ws ++ [(fk (blockBase b + o) lo, v)] } := by
  simp [State.checkInto, Checked.add, State.checkField, Rng.check, fW]

/-- A write-only field holds nothing. -/
theorem State.applyField_fW {k : Key} {lo w no : Nat} (hf : fldOf k = some (fW lo w no)) (s : State) (v : Nat) :
    s.applyField (k, v) = s := by
  simp [State.applyField, hf, fW]

/-- What a write of RTC_CTRL brings: LOAD is bit 0, CAPTURE bit 1. -/
def rtcCtrlWrite (load capture : Nat) : List (Key × Nat) := [(fk 0x40003000 0, load), (fk 0x40003000 1, capture)]

theorem State.checkWord_rtcCtrl (s : State) {v : Nat} (hv : v < 4) :
    s.checkWord 3 (0x40003000 - blockBase 3) v 0xFFFFFFFF = { ws := rtcCtrlWrite (v % 2) (v / 2) } := by
  have hbits : ∀ x < 4, reservedEntry 3 [fW 0 1 0, fW 1 1 1] (x &&& 0xFFFFFFFF) = none ∧
      bits (x &&& 0xFFFFFFFF) 0 1 = x % 2 ∧ bits (x &&& 0xFFFFFFFF) 1 1 = x / 2 := by decide
  obtain ⟨hreserved, hload, hcapture⟩ := hbits v hv
  simp only [State.checkWord, blockBase_rtc, Nat.sub_self, regDef_rtcCtrl, Option.getD_some, List.foldl_cons, List.foldl_nil,
    State.checkInto_fW, hreserved]
  simp [fW, Fld.mask, rtcCtrlWrite, hload, hcapture]

/-- Both fields of RTC_CTRL are write-only, so that the write is its action alone. -/
theorem State.takeWrite_rtcCtrl (s : State) (load capture : Nat) :
    s.takeWrite 0 3 0x40003000 (rtcCtrlWrite load capture) = s.rtcAct 0 (rtcCtrlWrite load capture) := by
  have hfields : (rtcCtrlWrite load capture).foldl State.applyField s = s := by
    rw [rtcCtrlWrite, List.foldl_cons, List.foldl_cons, List.foldl_nil, State.applyField_fW fldOf_rtcCtrl_load,
      State.applyField_fW fldOf_rtcCtrl_capture]
  rw [State.takeWrite, hfields, blockBase_rtc, Nat.sub_self]
  rfl

section
variable {s : State} (hon : s.aon = true) (h5 : s.isUp 5 = true) (hc : s.crossing = [])
include hon h5 hc

/-- The write crosses into XT1 and takes effect within the command (R34). -/
theorem State.regCommand_rtcCtrl {v : Nat} (hv : v < 4) : s.regCommand 0x40003000 v = s.rtcAct 0 (rtcCtrlWrite (v % 2) (v / 2)) := by
  have hblock : blockOf 0x40003000 = some 3 := by decide
  have haddr : s.addrOn 0x40003000 = true := by simp [State.addrOn, hblock, State.blockOn, blockDoms, hon]
  have hdone : (s.takeWrite 0 3 0x40003000 (rtcCtrlWrite (v % 2) (v / 2))).xsync 3 = false := by
    simp [State.takeWrite_rtcCtrl, State.xsync, hc]
  have hcross := State.regCommand_crossing hblock haddr h5 (by decide) (by decide) (by decide) rfl (by simp [State.xsync, hc])
    (s.checkWord_rtcCtrl hv) nofun hdone
  exact hcross.trans (s.takeWrite_rtcCtrl _ _)

theorem exec_capture : exec .capture s = .next s.rtcCapture :=
  congrArg Host.Outcome.next (State.regCommand_rtcCtrl hon h5 hc (v := 2) (by decide))

theorem exec_load : exec .load s = .next s.rtcLoad :=
  congrArg Host.Outcome.next (State.regCommand_rtcCtrl hon h5 hc (v := 1) (by decide))

end

/-! ### The clock of the RTC (R103) -/

theorem State.rtcCycle_sub_le {s : State} (h : s.rtc.sub ≤ 32767) : s.rtcCycle.rtc.sub ≤ 32767 := by
  unfold State.rtcCycle
  split
  · exact h
  · exact Nat.min_le_left _ _

theorem State.xt1Cycle_rtc (s : State) : s.xt1Cycle.rtc = s.rtcCycle.rtc := by
  unfold State.xt1Cycle
  dsimp only
  split <;> rfl

theorem step_idle {s : State} (h : s.pending = []) : step s = .next s.xt1Cycle := by
  unfold step; rw [h]

theorem exec_secondRollover {s : State} (h : s.rtc.halted = false) :
    exec .secondRollover s = .next (State.alarms { s with rtc := s.rtc.nextSecond }) :=
  congrArg Host.Outcome.next (if_neg (by simp [h]))

theorem exec_halted_powered {s : State} (hon : s.aon = true) : exec .halted s = .next s :=
  congrArg Host.Outcome.next (if_pos hon)

theorem exec_halted_unpowered {s : State} (hoff : s.aon = false) : exec .halted s =
    .next ((({ s with rtc := { s.rtc with halted := true } } : State).setFlag (kRtcEvent 3) true).setFlag (kRtcStat 1) false) :=
  congrArg Host.Outcome.next (if_neg (by simp [hoff]))

theorem exec_rtcResume {s : State} (h : s.rtc.halted = true) : exec .rtcResume s =
    .next (({ s with rtc := { s.rtc with halted := false } } : State).setFlag (kRtcStat 1) true) :=
  congrArg Host.Outcome.next (if_pos h)

/-! ### Backup power-on reset (R101) -/

/-- The keys of RTC's registers. -/
abbrev inRtc (k : Key) : Prop := 0x40003000 ≤ keyAddr k ∧ keyAddr k < 0x40004000

/-- What the reset leaves, before ON_XT1 is formed anew. -/
def State.bkpCleared (s : State) : State :=
  { s.setRing 3 {} with
    rtc := { halted := s.rtc.halted }, regs := Tab.keep (fun k => !decide (inRtc k)) s.regs
    crossing := s.crossing.filter (fun c => c.block != 3) }

theorem exec_bkpPor (s : State) : exec .bkpPor s = .next (s.bkpCleared.setFlag (kRtcStat 1) s.rtcOnXt1) := rfl

section
variable (s : State)

theorem State.reg_bkpCleared_rtc {k : Key} (h : inRtc k) : s.bkpCleared.reg k = regReset k := by
  simp [State.reg, State.bkpCleared, Tab.get_keep, h]

theorem State.reg_bkpCleared_other {k : Key} (h : ¬inRtc k) : s.bkpCleared.reg k = s.reg k := by
  simp [State.reg, State.bkpCleared, Tab.get_keep, h]

@[simp] theorem State.xsync_bkpCleared : s.bkpCleared.xsync 3 = false := by
  simp [State.xsync, State.bkpCleared]

@[simp] theorem State.ring_bkpCleared : s.bkpCleared.ring 3 = {} := by
  simp [State.ring, State.bkpCleared, State.setRing]

theorem State.ring_bkpCleared_other {b : Nat} (h : b ≠ 3) : s.bkpCleared.ring b = s.ring b := by
  simp [State.ring, State.bkpCleared, State.setRing, Tab.get_set_other _ _ _ _ _ h.symm]

end

/-! ### The obligations -/

/-- Settles O22: a second's roll-over is one carry of `Rtc.Legal.carry`, midnight advances the count of days by one, and each command
is its equation (ON_XT1 as log entry 88 forms it). -/
theorem calendarRollsOverAndObeysCommands : Obligations.CalendarRollsOverAndObeysCommands := by
  unfold Obligations.CalendarRollsOverAndObeysCommands
  refine ⟨fun r hsec hmin hhour hmonth hmonth' hday hday' hyear => ?calendar, fun s => ?commands⟩
  case calendar =>
    have hl : r.Legal := ⟨hsec, hmin, hhour, hmonth, hmonth', hday, hday', hyear⟩
    obtain ⟨nsec, nmin, nhour, nmonth, nmonth', nday, nday', nyear⟩ := hl.nextSecond
    refine ⟨Rtc.nextSecond_sub r, nsec, nmin, nhour, nmonth, nmonth', nday, nday', nyear, fun hs => ?wraps, Rtc.nextSecond_of_sec_lt,
      Rtc.nextSecond_of_min_lt, Rtc.nextSecond_of_hour_lt, fun hs hm hh => Rtc.nextSecond_of_day_lt ⟨hs, hm, hh⟩,
      fun hs hm hh => Rtc.nextSecond_of_monthEnd hl ⟨hs, hm, hh⟩, rfl,
      fun hs hm hh hlast => wday_of_daysSince_succ (Rtc.daysSince_nextSecond hl ⟨hs, hm, hh⟩ hlast), monthLen_eq⟩
    case wraps =>
      rcases hl.carry with hs' | ⟨_, hm⟩ | ⟨_, hm, hh⟩ | ⟨h, hd⟩ | ⟨h, hd⟩
      · exact absurd hs (Nat.ne_of_lt hs')
      · rw [Rtc.nextSecond_of_min_lt hs hm]
      · rw [Rtc.nextSecond_of_hour_lt hs hm hh]
      · rw [Rtc.nextSecond_of_day_lt h hd]
      · rw [Rtc.nextSecond_of_monthEnd hl h hd]
  case commands =>
    refine ⟨fun t hsub hidle hstep => ?cycle, exec_secondRollover, exec_halted_powered, fun hoff => ?halts, fun hh => ?resumes,
      fun vbak => rfl, ?por, fun hon h5 hc => ?capture, fun hon h5 hc => ?load⟩
    case cycle =>
      obtain rfl : s.xt1Cycle = t := Host.Outcome.next.inj ((step_idle hidle).symm.trans hstep)
      rw [State.xt1Cycle_rtc]
      exact State.rtcCycle_sub_le hsub
    case halts =>
      refine ⟨_, exec_halted_unpowered hoff, rfl, ?_, State.flag_setFlag _ _ _⟩
      rw [State.flag, State.reg_setFlag_other _ _ _ _ (by decide)]
      exact State.flag_setFlag _ _ _
    case resumes => exact ⟨_, exec_rtcResume hh, rfl, State.flag_setFlag _ _ _⟩
    case por =>
      refine ⟨_, exec_bkpPor s, rfl, s.ring_bkpCleared, s.xsync_bkpCleared, fun k hlo hhi hk => ?_, State.flag_setFlag _ _ _,
        fun k hk => ?_, fun b => s.ring_bkpCleared_other, rfl⟩
      · rw [State.reg_setFlag_other _ _ _ _ hk.symm]; exact s.reg_bkpCleared_rtc ⟨hlo, hhi⟩
      · rw [State.reg_setFlag_other _ _ _ _ (by rintro rfl; exact hk (by decide))]; exact s.reg_bkpCleared_other hk
    case capture =>
      refine ⟨_, exec_capture hon h5 hc, ?_⟩
      simp [State.rtcCapture, State.reg_setReg_iff, fk]
    case load =>
      refine ⟨_, exec_load hon h5 hc, s.rtcLoad_valid, ?_⟩
      simp

end Sys2Proof.Machine
end

section
/-! PROOFS. Bay channels: what a trip, the entry to RAMP and RESTART do to a channel and its registers (R296, R304, R308, R316). -/

namespace Sys2Proof.Machine

/-! ### The register keys of one channel -/

/-- Two fields of one channel stand under the same key exactly when their places agree. -/
theorem kBayCh_inj {n o lo o' lo' : Nat} : kBayCh n o lo = kBayCh n o' lo' ↔ o * 32 + lo = o' * 32 + lo' := by
  unfold kBayCh fk Key; omega

@[simp] theorem State.bayCh_bayEvent (s : State) (n i m : Nat) : (s.bayEvent n i).bayCh m = s.bayCh m := rfl
@[simp] theorem State.mem_bayEvent (s : State) (n i : Nat) : (s.bayEvent n i).mem = s.mem := rfl
@[simp] theorem State.flag_bayEvent (s : State) (n i : Nat) : (s.bayEvent n i).flag (kBayCh n 0x14 i) = true :=
  State.flag_setFlag _ _ _
theorem State.reg_bayEvent_other (s : State) {n i k : Nat} (h : k ≠ kBayCh n 0x14 i) : (s.bayEvent n i).reg k = s.reg k :=
  State.reg_setFlag_other _ _ _ _ h.symm

/-! ### A trip -/

/-- R296, R316: what every trip records, whether the channel goes TRIPPED or LOCKED: CAUSE, FRAME_NUM[15:0] and the TRIP event. -/
def State.tripRecorded (s : State) (n cause : Nat) : State :=
  ((s.setReg (kBayCh n 0x18 0) cause).setReg (kBayCh n 0x18 16) (s.frameNum % 65536)).bayEvent n 0

/-- R296: the channel after a trip; `backoff` is its BACKOFF. -/
def BayCh.tripped (c : BayCh) (backoff : Nat) : BayCh :=
  if c.retriesLeft = 0 then { c with st := 4, trips := satAdd 8 c.trips 1, backoff := none }
  else { c with st := 3, retriesLeft := c.retriesLeft - 1, trips := satAdd 8 c.trips 1, backoff := some backoff }

theorem BayCh.tripped_trips (c : BayCh) (b : Nat) : (c.tripped b).trips = min (c.trips + 1) 255 := by
  unfold BayCh.tripped; split <;> rfl

theorem BayCh.tripped_of_retriesLeft {c : BayCh} (b : Nat) (h : c.retriesLeft ≠ 0) :
    (c.tripped b).st = 3 ∧ (c.tripped b).retriesLeft = c.retriesLeft - 1 := by
  simp [BayCh.tripped, h]

theorem BayCh.tripped_locked {c : BayCh} (b : Nat) (h : c.retriesLeft = 0) : (c.tripped b).st = 4 := by
  simp [BayCh.tripped, h]

section
variable (s : State) (n cause : Nat)

@[simp] theorem State.mem_tripRecorded : (s.tripRecorded n cause).mem = s.mem := rfl
@[simp] theorem State.bayCh_tripRecorded (m : Nat) : (s.tripRecorded n cause).bayCh m = s.bayCh m := rfl
@[simp] theorem State.flag_tripRecorded : (s.tripRecorded n cause).flag (kBayCh n 0x14 0) = true :=
  State.flag_bayEvent _ _ _

theorem State.reg_tripRecorded_frame : (s.tripRecorded n cause).reg (kBayCh n 0x18 16) = s.frameNum % 65536 := by
  rw [State.tripRecorded, State.reg_bayEvent_other _ (by simp [kBayCh_inj])]
  exact State.reg_setReg _ _ _

theorem State.reg_tripRecorded_cause : (s.tripRecorded n cause).reg (kBayCh n 0x18 0) = cause := by
  rw [State.tripRecorded, State.reg_bayEvent_other _ (by simp [kBayCh_inj]), State.reg_setReg_other _ _ _ _ (by simp [kBayCh_inj])]
  exact State.reg_setReg _ _ _

/-- R296: a trip with no retry left. -/
theorem State.bayTrip_locked (h : (s.bayCh n).retriesLeft = 0) : s.bayTrip n cause =
    ((((s.tripRecorded n cause).setBayCh n ((s.bayCh n).tripped (s.reg (kBayCh n 4 8)))).bayEvent n 1).raise
      (bayRec 0 1 n cause 0)).raise (bayRec 1 2 n cause 0) := by
  simp [State.bayTrip, State.tripRecorded, BayCh.tripped, h]

/-- R296: a trip with a retry left. -/
theorem State.bayTrip_of_retriesLeft (h : (s.bayCh n).retriesLeft ≠ 0) : s.bayTrip n cause =
    ((s.tripRecorded n cause).setBayCh n ((s.bayCh n).tripped (s.reg (kBayCh n 4 8)))).raise
      (bayRec 0 1 n cause ((s.bayCh n).retriesLeft - 1)) := by
  simp [State.bayTrip, State.tripRecorded, BayCh.tripped, h]

@[simp] theorem State.bayCh_bayTrip : (s.bayTrip n cause).bayCh n = (s.bayCh n).tripped (s.reg (kBayCh n 4 8)) := by
  by_cases h : (s.bayCh n).retriesLeft = 0
  · simp [State.bayTrip_locked _ _ _ h]
  · simp [State.bayTrip_of_retriesLeft _ _ _ h]

theorem State.bayCh_bayTrip_other {m : Nat} (hm : m ≠ n) : (s.bayTrip n cause).bayCh m = s.bayCh m := by
  by_cases h : (s.bayCh n).retriesLeft = 0
  · simp [State.bayTrip_locked _ _ _ h, State.bayCh_setBayCh_other _ _ _ _ hm.symm]
  · simp [State.bayTrip_of_retriesLeft _ _ _ h, State.bayCh_setBayCh_other _ _ _ _ hm.symm]

@[simp] theorem State.mem_bayTrip : (s.bayTrip n cause).mem = s.mem := by
  by_cases h : (s.bayCh n).retriesLeft = 0
  · simp [State.bayTrip_locked _ _ _ h]
  · simp [State.bayTrip_of_retriesLeft _ _ _ h]

/-- Past the LOCKED event, a trip leaves the registers as it records them. -/
theorem State.reg_bayTrip {k : Nat} (hk : k ≠ kBayCh n 0x14 1) : (s.bayTrip n cause).reg k = (s.tripRecorded n cause).reg k := by
  by_cases h : (s.bayCh n).retriesLeft = 0
  · simp [State.bayTrip_locked _ _ _ h, State.reg_bayEvent_other _ hk]
  · simp [State.bayTrip_of_retriesLeft _ _ _ h]

theorem State.flag_bayTrip_locked (h : (s.bayCh n).retriesLeft = 0) : (s.bayTrip n cause).flag (kBayCh n 0x14 1) = true := by
  simp [State.bayTrip_locked _ _ _ h]

theorem State.flag_bayTrip_trip : (s.bayTrip n cause).flag (kBayCh n 0x14 0) = true := by
  rw [State.flag, State.reg_bayTrip _ _ _ (by simp [kBayCh_inj])]
  exact s.flag_tripRecorded n cause

theorem State.reg_bayTrip_cause : (s.bayTrip n cause).reg (kBayCh n 0x18 0) = cause := by
  rw [State.reg_bayTrip _ _ _ (by simp [kBayCh_inj]), State.reg_tripRecorded_cause]

theorem State.reg_bayTrip_frame : (s.bayTrip n cause).reg (kBayCh n 0x18 16) = s.frameNum % 65536 := by
  rw [State.reg_bayTrip _ _ _ (by simp [kBayCh_inj]), State.reg_tripRecorded_frame]

/-! ### The entry to RAMP, and RESTART -/

/-- R296, R304: a channel in RAMP, its RETRIES_LEFT loaded when it came from OFF. -/
def State.rampEntered : State :=
  s.setBayCh n { s.bayCh n with
    st := 1, backoff := none, retriesLeft := if (s.bayCh n).st = 0 then s.reg (kBayCh n 4 0) else (s.bayCh n).retriesLeft }

/-- R304, R308: an admission is the entry to RAMP, and a trip at once where a fault finds the channel set to trip. -/
theorem State.admitChan_cases : s.admitChan n = s.rampEntered n ∨ s.admitChan n = (s.rampEntered n).bayTrip n 2 := by
  by_cases h : (s.reg (kBayCh n 4 16) = 1 && s.fltActive n && (s.bayCh n).flt.masked.isNone) = true
  · exact .inr (if_pos h)
  · exact .inl (if_neg h)

/-- R308: a channel whose FLT_ACT is not trip is not tripped at its admission. -/
theorem State.admitChan_of_flt_act (h : s.reg (kBayCh n 4 16) ≠ 1) : s.admitChan n = s.rampEntered n := by
  simp [State.admitChan, State.rampEntered, h]

theorem State.rampEntered_st : ((s.rampEntered n).bayCh n).st = 1 := by simp [State.rampEntered]

end

/-! ### The obligation -/

/-- Settles O41: a trip is what `tripRecorded` records and the channel's own `BayCh.tripped`, and an admission is `rampEntered`,
which a trip may follow. -/
theorem bayTripsCountRetriesDown : Obligations.BayTripsCountRetriesDown := by
  unfold Obligations.BayTripsCountRetriesDown
  intro s n cause c t
  have hc : t.bayCh n = c.tripped (s.reg (kBayCh n 4 8)) := s.bayCh_bayTrip n cause
  refine ⟨fun hr => ?retries, fun hr => ⟨?lockedSt, s.flag_bayTrip_locked n cause hr⟩, ?trips, s.flag_bayTrip_trip n cause,
    s.reg_bayTrip_cause n cause, s.reg_bayTrip_frame n cause, fun m => s.bayCh_bayTrip_other n cause, s.mem_bayTrip n cause,
    s.admitChan_cases n, fun hflt => ?ramp, fun hl => if_pos hl, fun hl => if_neg hl⟩
  case retries => rw [hc]; exact BayCh.tripped_of_retriesLeft _ hr
  case lockedSt => rw [hc]; exact BayCh.tripped_locked _ hr
  case trips => rw [hc]; exact c.tripped_trips _
  case ramp => rw [s.admitChan_of_flt_act n hflt]; exact s.rampEntered_st n

end Sys2Proof.Machine
end

section
/-! PROOFS. Every command answers a next state, with the queue as it was and memory and registers in their canonical form: one
lemma for the commands whose meaning branches, then one line per command. -/
namespace Sys2Proof.Machine

/-- The outcome is a next state that keeps what `z` has. -/
def Answers (z : State) (o : Out) : Prop := ∃ t, o = .next t ∧ Keeps z t

section
variable {z s t u : State}

theorem Answers.next (h : Keeps z t) : Answers z (.next t) := ⟨t, rfl, h⟩

theorem Answers.ite {c : Prop} [Decidable c] {o p : Out} (ho : Answers z o) (hp : Answers z p) :
    Answers z (if c then o else p) := by
  split
  · exact ho
  · exact hp

/-- An instruction answers what its boundary and its own work leave, and each of them keeps it. -/
theorem State.eki_answers (core : Fin 5) (op : Nat) (x : BitVec 26) {body : Nat → Nat → State → Ex} (s : State)
    (hb : ∀ c n u, Keeps s u → KeepsEx s (body c n u)) : Answers s (s.eki core op x body) := by
  have hnext : ∃ t, s.eki core op x body = .next t := by
    unfold State.eki
    dsimp only
    repeat' split
    all_goals exact ⟨_, rfl⟩
  obtain ⟨t, ht⟩ := hnext
  exact ⟨t, ht, State.eki_keeps hb (.refl s) ht⟩

/-- A guarded instruction keeps what its work keeps. -/
theorem State.eki_guard_answers (core : Fin 5) (op : Nat) (x : BitVec 26) {ok : Nat → Nat → State → Bool}
    {body : Nat → Nat → State → Ex} (s : State) (hb : ∀ c n u, Keeps s u → KeepsEx s (body c n u)) :
    Answers s (s.eki core op x (fun c n u => u.guardEki (ok c n u) (body c n u))) :=
  s.eki_answers core op x (fun c n u hu => State.guardEki_keeps _ (hb c n u hu) hu)


/-! ### The commands whose meaning branches -/

variable (s : State)

theorem execArbDecision_answers (inst : Fin 36) : Answers s (execArbDecision inst s) :=
  .next (.ite (.refl s) (.ite (State.arbDecide_keeps _ (.refl s)) (State.setArb_keeps _ _ (.refl s))))

theorem execArbRequest_answers (inst : Fin 36) (k : Fin 11) (beats : Fin 17) (prio : Fin 8) (ctx : Fin 66) :
    Answers s (execArbRequest inst k beats prio ctx s) := by
  unfold execArbRequest
  refine .ite (.next (.refl s)) ?_
  split
  · exact .next (.refl s)
  · have hstand {u : State} (r : ArbReq) (h : Keeps s u) : Keeps s (u.stand inst r) := State.stand_keeps _ _ h
    exact .ite (.next (.ite (State.tryRefuse_keeps _ _ (.refl s)) (hstand _ (.refl s))))
      (.ite (.next (.refl s))
        (.ite (.next (hstand _ (State.setArb_keeps _ _ (State.freeBits_keeps _ (.refl s))))) (.next (hstand _ (.refl s)))))

theorem execCatalogRead_answers (addr : Word) (err : BitVec 2) : Answers s (execCatalogRead addr err s) := by
  unfold execCatalogRead
  split
  · exact .ite (.next (.refl s)) (.next (State.catRead_keeps _ _ (.ite (State.setEcc_keeps _ _ (.refl s)) (.refl s))))
  · exact .next (.refl s)

theorem execCatalogWrite_answers (addr : Word) (data : List Byte) : Answers s (execCatalogWrite addr data s) := by
  unfold execCatalogWrite
  split
  · exact .ite (.next (State.wbAccept_keeps _ _ _ _ (.refl s))) (.next (.refl s))
  · exact .next (.refl s)

theorem execWriteAttempt_answers (fail0 fail1 : Bool) (m : BitVec 2) : Answers s (execWriteAttempt fail0 fail1 m s) := by
  unfold execWriteAttempt
  split
  · exact .next (.refl s)
  · next e rest _ =>
    refine .ite (.next (.refl s)) (.next (KeepsOpt.getD (KeepsOptP.bindOpt ?_ (fun p hp => State.attempt_keeps _ _ _ _ hp)) (.refl s)))
    split
    · exact .some (.refl s)
    · exact State.prepare_keeps _ _ (.refl s)

theorem execSummaryRebuildStart_answers : Answers s (execSummaryRebuildStart s) :=
  .next (.ite (.mk (State.setFlag_keeps _ _ (.refl s))) (.refl s))

theorem execSummaryRebuildDone_answers (bad : List Nat) : Answers s (execSummaryRebuildDone bad s) := by
  unfold execSummaryRebuildDone
  have hset (l : List Nat) {u : State} (h : Keeps s u) : Keeps s (l.foldl (fun s i => s.setSummary i true) u) :=
    Keeps.foldl (fun _ _ hu => State.setSummary_keeps _ _ hu) l h
  have hfail (l : List Nat) {u : State} (h : Keeps s u) : Keeps s (l.foldl (fun s i => s.mapWordFails i 0) u) :=
    Keeps.foldl (fun _ _ hu => State.mapWordFails_keeps _ _ hu) l h
  exact .ite (.next (.refl s)) (.next (State.setFlag_keeps _ _ (State.setFlag_keeps _ _ (hset _ (hfail _ (hset _ (.refl s)))))))

theorem execSfuJobStart_answers (place : Fin 6) : Answers s (execSfuJobStart place s) := by
  unfold execSfuJobStart
  refine .ite (.next (.refl s)) ?_
  split
  · exact .next (State.jobEnd_keeps _ _ _ _ (.refl s))
  · exact .next (State.setJob_keeps _ _ (.refl s))

theorem execSfuJobEnd_answers (place : Fin 6) : Answers s (execSfuJobEnd place s) := by
  unfold execSfuJobEnd
  extract_lets j d r l o s1
  have hr : Keeps s r.2 := State.ncReadN_keeps _ _ (.refl s)
  have h1 : Keeps s s1 := by
    unfold s1
    split
    · exact State.ncWriteN_keeps _ _ hr
    · exact hr
  exact .ite (.next (.refl s)) (.next (State.jobEnd_keeps _ _ _ _ h1))

theorem execNorCheckDone_answers : Answers s (execNorCheckDone s) := by
  unfold execNorCheckDone
  refine .ite (.next (.refl s)) ?_
  split
  · exact .next (State.setReg_keeps _ _ (State.norEnd_keeps _ (.refl s)))
  · exact .next (State.setNor_keeps _ (.refl s))

theorem execNorOperationDone_answers (bad : Option (BitVec 23)) : Answers s (execNorOperationDone bad s) := by
  unfold execNorOperationDone
  extract_lets o t s1 s2
  have herase : Keeps s { s with mem := Tab.keep (fun a => !decide (norBase + t.1 ≤ a ∧ a < norBase + t.1 + t.2)) s.mem } :=
    ⟨rfl, fun c => by
      simp only [State.canonical, Bool.and_eq_true] at c ⊢
      exact ⟨Tab.wf_keep memDefault _ s.mem c.1, c.2⟩⟩
  have h1 : Keeps s s1 := .ite (State.wrBytes_keeps _ _ (.refl s)) herase
  have h2 : Keeps s s2 := by
    unfold s2
    split
    · exact .ite (State.wrBytes_keeps _ _ (State.freeBytes_keeps _ h1)) h1
    · exact h1
  exact .ite (.next (.refl s)) (.next (State.setNor_keeps _ h2))

theorem execNorVerifyDone_answers : Answers s (execNorVerifyDone s) := by
  unfold execNorVerifyDone
  refine .ite (.next (.refl s)) ?_
  extract_lets want
  split
  · exact .next (State.setReg_keeps _ _ (State.norEnd_keeps _ (.refl s)))
  · exact .next (State.norEnd_keeps _ (.refl s))

theorem execDmaEnd_answers (place : Fin 5) : Answers s (execDmaEnd place s) := by
  unfold execDmaEnd
  split
  · exact .next (.ite (State.dmaTell_keeps _ _ (State.dmaEnd_keeps _ _ (.refl s))) (.refl s))
  · exact .next (.refl s)

theorem execTenResetComplete_answers : Answers s (execTenResetComplete s) := by
  unfold execTenResetComplete
  split
  · exact .next (.ite (State.resetComplete_keeps _ (.refl s)) (.refl s))
  · exact .next (.refl s)

theorem execOvrBudget_answers (core : Fin 4) : Answers s (execOvrBudget core s) := by
  unfold execOvrBudget
  dsimp only
  split
  · exact .next (.refl s)
  · exact .ite (.next (.refl s)) (.next (State.settle_keeps _ (State.count_keeps _ _ _ (State.preempt_keeps _ _ _ (.refl s)))))

theorem execWaitBroken_answers : Answers s (execWaitBroken s) := by
  unfold execWaitBroken
  refine .ite (.next (.refl s)) ?_
  extract_lets set
  split
  · exact .next (.refl s)
  · next x _ =>
    refine .next (State.settle_keeps _ ?_)
    split
    · exact State.completeWait_keeps _ _ (State.breakReport_keeps _ _ _ (.refl s))
    · have h0 : Keeps s (s.breakReport x set.length 0xFF) := State.breakReport_keeps _ _ _ (.refl s)
      dsimp only
      split
      · exact State.trap_keeps _ _ _ _ _ (State.setSlot_keeps _ _ h0)
      · exact State.setSlot_keeps _ _ h0

theorem execWaitTimeout_answers (ctx : Fin 65) : Answers s (execWaitTimeout ctx s) := by
  unfold execWaitTimeout
  split
  · exact .next (.ite (.ite (State.completeWait_keeps _ _ (.refl s)) (State.setWait_keeps _ (.refl s))) (.refl s))
  · exact .next (.refl s)

theorem execBayUv_answers (group : Fin 8) : Answers s (execBayUv group s) := by
  unfold execBayUv
  refine .ite (.next (.refl s)) (.next (Keeps.foldl (fun u n hu => ?_) _ (State.setReg_keeps _ _ (.refl s))))
  exact .ite (State.raise_keeps _ (State.bayEvent_keeps _ _ (State.bayOff_keeps _ hu)))
    (.ite (.ite (State.bayEvent_keeps _ _ (State.bayOff_keeps _ hu)) (State.dequeue_keeps _ hu)) hu)

theorem execPrsChg_answers (chan : Fin 128) (level : Bool) : Answers s (execPrsChg chan level s) := by
  unfold execPrsChg
  extract_lets c r s1 s2
  have h1 : Keeps s s1 := State.setBayCh_keeps _ _ (.refl s)
  have h2 : Keeps s s2 := State.bayEvent_keeps _ _ h1
  exact .ite (.next (.refl s)) (.ite (.next (State.bayEvent_keeps _ _ h1))
    (.ite (.next h1) (.next (.ite (State.bayOff_keeps _ h2) h2))))

theorem execFlt_answers (chan : Fin 128) (level : Bool) : Answers s (execFlt chan level s) := by
  unfold execFlt
  extract_lets c r s1 s2 act
  have h1 : Keeps s s1 := State.setBayCh_keeps _ _ (.refl s)
  have h2 : Keeps s s2 := State.bayEvent_keeps _ _ h1
  exact .ite (.next (.refl s)) (.ite (.next (State.bayEvent_keeps _ _ h1))
    (.ite (.next h1) (.next (.ite (.ite (State.bayTrip_keeps _ _ h2) (.ite (State.bayOff_keeps _ h2) h2)) h2))))

theorem execCharacterReceived_answers (chan : Fin 128) (data : Byte) (pe fe : Bool) :
    Answers s (execCharacterReceived chan data pe fe s) := by
  unfold execCharacterReceived
  extract_lets sync w s1
  have h1 : Keeps s s1 := .ite (State.count_keeps _ _ _ (.refl s)) (.refl s)
  exact .ite (.next (.refl s)) (.ite (.next (State.count_keeps _ _ _ (.refl s)))
    (.next (.ite (State.count_keeps _ _ _ h1) (State.setPort_keeps _ _ h1))))

theorem execBayuRingMove_answers (chan : Fin 128) : Answers s (execBayuRingMove chan s) := by
  unfold execBayuRingMove
  extract_lets p l a
  split
  · exact .next (.refl s)
  · have h0 : Keeps s s.reef1Leave := State.reef1Leave_keeps (.refl s)
    exact .ite (.next (.refl s)) (.next (KeepsOpt.elim (State.useArb_keeps _ _ h0) h0
      (fun u hu => State.setPort_keeps _ _ (State.memWrite_keeps _ _ hu))))

theorem execAdcRingMove_answers : Answers s (execAdcRingMove s) := by
  unfold execAdcRingMove
  split
  · exact .next (.refl s)
  · have h0 : Keeps s s.reef1Leave := State.reef1Leave_keeps (.refl s)
    exact .ite (.next (.refl s)) (.next (KeepsOpt.elim (State.useArb_keeps _ _ h0) h0
      (fun u hu => .mk (State.setReg_keeps _ _ (State.memWrite_keeps _ _ hu)))))

theorem execCryptOperationEnd_answers : Answers s (execCryptOperationEnd s) := by
  unfold execCryptOperationEnd
  split
  · exact .next (.ite (State.cryptEnd_keeps _ (.refl s)) (.refl s))
  · exact .next (.refl s)

theorem execSpineFrameDiscarded_answers (port : Bool) (sd : Byte) (nbits : Nat) (bytes : List Byte) :
    Answers s (execSpineFrameDiscarded port sd nbits bytes s) := by
  unfold execSpineFrameDiscarded
  extract_lets s0 n ok
  have h0 : Keeps s s0 := .ite (State.sdSeen_keeps (.refl s)) (.refl s)
  exact .ite (.next (.refl s)) (.ite (.next (State.count_keeps _ _ _ h0)) (.next (.ite h0 (State.crcFail_keeps h0))))

theorem execEnergyDetect_answers (port : Bool) : Answers s (execEnergyDetect port s) := by
  unfold execEnergyDetect
  have h1 : Keeps s (((s.setDom 68 .up).setDom 1 .up).setDom 3 .up) :=
    State.setDom_keeps _ _ (State.setDom_keeps _ _ (State.setDom_keeps _ _ (.refl s)))
  exact .ite (.next (.refl s)) (.next (.mk (Keeps.foldl (fun _ _ hu => State.setDom_keeps _ _ hu) _ h1)))

theorem execReplyStart_answers : Answers s (execReplyStart s) := by
  unfold execReplyStart
  split
  · exact .next (.refl s)
  · have h1 (p : Spine) : Keeps s { s with spine := p } := .mk (.refl s)
    exact .ite (.next (.refl s)) (.next (KeepsOpt.elim (State.useArb_keeps _ _ (h1 _)) (h1 _)
      (fun u hu => State.spineSend_keeps _ hu)))

theorem execReportFragment_answers (slot : Fin 32) : Answers s (execReportFragment slot s) := by
  unfold execReportFragment
  split
  · exact .next (.refl s)
  · refine .ite (.next (.refl s)) ?_
    split
    · exact .next (.refl s)
    · next u hu => exact .next (State.spineSend_keeps _ (.mk ((State.useArb_keeps _ _ (.refl s)).get hu)))

theorem execUndelivered_answers : Answers s (execUndelivered s) := by
  unfold execUndelivered
  split
  · exact .next (.refl s)
  · extract_lets tag rec1 _ s1 s2
    have h2 : Keeps s s2 := State.setReg_keeps _ _ (State.setFlag_keeps _ _ (.mk (.refl s)))
    exact .next (.ite (State.raise_keeps _ h2) (.ite (.mk h2) (State.count_keeps _ _ _ h2)))

theorem execPairTx_answers : Answers s (execPairTx s) := by
  unfold execPairTx
  refine .ite (.next (.refl s)) ?_
  split
  · exact .next (.refl s)
  · next u hu => exact .next (State.spineSend_keeps _ (.mk ((State.useArb_keeps _ _ (.refl s)).get hu)))

theorem execPair_answers (frame : Rx 72) : Answers s (execPair frame s) := by
  unfold execPair
  refine .ite (.next (.refl s)) ?_
  have hp := State.pickFrame_keeps frame (crc16Ok 9) (.refl s)
  split
  · next heq => exact .next (State.pairTake_keeps _ (hp.of_pair heq))
  · next heq => exact .next (hp.of_pair heq)

theorem execPairAck_answers (frame : Rx 88) : Answers s (execPairAck frame s) := by
  unfold execPairAck
  refine .ite (.next (.refl s)) ?_
  have hp := State.pickFrame_keeps frame (crc16Ok 11) (.refl s)
  split
  · next heq => exact .next (State.pairAcked_keeps _ (hp.of_pair heq))
  · next heq => exact .next (hp.of_pair heq)

theorem execHeadBeacon_answers (conflict : Bool) : Answers s (execHeadBeacon conflict s) := by
  unfold execHeadBeacon
  refine .ite (.next (.refl s)) ?_
  split
  · exact .next (.refl s)
  · next u hu =>
    have h1 (p : Spine) : Keeps s { u.spineSend (withCrc16 0x0F u.headBody) with spine := p } :=
      .mk (State.spineSend_keeps _ ((State.useArb_keeps _ _ (.refl s)).get hu))
    exact .next (.ite (State.setFlag_keeps _ _ (h1 _)) (h1 _))

theorem execEntrySequenceStart_answers : Answers s (execEntrySequenceStart s) := by
  unfold execEntrySequenceStart
  split
  · exact .next (.ite (State.entryStart_keeps _ _ _ (.refl s)) (.refl s))
  · exact .next (.refl s)

theorem execEntrySwitchOff_answers : Answers s (execEntrySwitchOff s) := by
  unfold execEntrySwitchOff
  split
  · exact .next (.refl s)
  · exact .ite (.next (.refl s)) (.ite (.next (.mk (.refl s))) (.next (.ite (State.enterLevel_keeps _ (.refl s)) (.refl s))))

theorem execReef1Entry_answers : Answers s (execReef1Entry s) :=
  .next (.ite (State.setReg_keeps _ _ (.mk (.refl s))) (.refl s))

theorem execSecondRollover_answers : Answers s (execSecondRollover s) :=
  .next (.ite (.refl s) (State.alarms_keeps (.mk (.refl s))))

theorem execHalted_answers : Answers s (execHalted s) :=
  .next (.ite (.refl s) (State.setFlag_keeps _ _ (State.setFlag_keeps _ _ (.mk (.refl s)))))

theorem execRtcResume_answers : Answers s (execRtcResume s) :=
  .next (.ite (State.setFlag_keeps _ _ (.mk (.refl s))) (.refl s))

theorem execBkpPor_answers : Answers s (execBkpPor s) := by
  unfold execBkpPor
  extract_lets keep _ s1
  have h1 : Keeps s s1 := ⟨rfl, fun c => by
    simp only [State.canonical, Bool.and_eq_true] at c ⊢
    exact ⟨c.1, Tab.wf_keep regReset _ s.regs c.2⟩⟩
  exact .next (State.setFlag_keeps _ _ h1)

theorem execGaugeUpdate_answers (vstore harvested drawn cycles : Nat) :
    Answers s (execGaugeUpdate vstore harvested drawn cycles s) := by
  unfold execGaugeUpdate
  extract_lets s1 s2 s3
  have h1 : Keeps s s1 := State.startSample_keeps (State.publish_keeps _ _ _ _ (.refl s))
  have h2 : Keeps s s2 := .ite (State.sourceToXt1_keeps (State.pinBoundary_keeps h1)) h1
  have h3 : Keeps s s3 := State.letGo15_keeps h2
  exact .ite (.next (.refl s)) (.next (.ite (State.forceFurl_keeps h3) (.ite (State.demote_keeps h3) h3)))

theorem execMpptSampleEnd_answers (input : Bool) (uv : Nat) : Answers s (execMpptSampleEnd input uv s) :=
  .ite (.next (.refl s)) (.next (State.setAct_keeps (State.setReg_keeps _ _ (.mk (State.setFlag_keeps _ _ (.mk (.refl s)))))))

theorem execFullRise_answers : Answers s (execFullRise s) :=
  .next (.ite (State.setAct_keeps (State.setFlag_keeps _ _ (State.setFlag_keeps _ _ (State.setFlag_keeps _ _ (.mk (.refl s))))))
    (.refl s))

theorem execFullClear_answers : Answers s (execFullClear s) :=
  .next (.ite (State.setAct_keeps (State.setFlag_keeps _ _ (.mk (.refl s)))) (.refl s))

theorem execStoreLow_answers : Answers s (execStoreLow s) :=
  .next (.ite (State.halyard_keeps _ (State.setFlag_keeps _ _ (State.setFlag_keeps _ _ (.mk (.refl s))))) (.refl s))

theorem execLoadSwitchOpen_answers : Answers s (execLoadSwitchOpen s) :=
  .next (.ite (State.setFlag_keeps _ _ (State.powerLost_keeps (State.loseNor_keeps (.refl s)))) (.refl s))

theorem execKeepCellLoad_answers : Answers s (execKeepCellLoad s) :=
  .next (.ite (.refl s) (.mk (State.resetThresholds_keeps (.refl s))))

theorem execKeepCellLoss_answers : Answers s (execKeepCellLoss s) :=
  .next (.ite (.refl s) (.mk (State.setReg_keeps _ _ (State.setReg_keeps _ _ (State.setReg_keeps _ _
    (State.freeBits_keeps _ (State.freeBits_keeps _ (State.freeBits_keeps _ (.refl s)))))))))

theorem execStbyUp_answers : Answers s (execStbyUp s) := by
  unfold execStbyUp
  split
  · exact .next (.refl s)
  · exact .next (.mk (.refl s))
  · exact .next (.mk (.refl s))
  · exact .next (.ite (State.halyard_keeps _ (State.lowEnds_keeps (State.setFlag_keeps _ _ (.mk (.refl s))))) (.mk (.refl s)))

theorem execStbyLost_answers : Answers s (execStbyLost s) := by
  unfold execStbyLost
  extract_lets _ s1 s2
  have h1 : Keeps s s1 := .mk (.refl s)
  have h2 : Keeps s s2 := Keeps.foldl (fun _ _ hu => State.offDom_keeps _ hu) _ (State.setFlag_keeps _ _ (State.setFlag_keeps _ _ h1))
  exact .ite (.next (.refl s)) (.ite (.next h1) (.next (State.halyard_keeps _ (State.forceFirc_keeps h2))))

theorem execAonPorRelease_answers (boot strap : BitVec 2) : Answers s (execAonPorRelease boot strap s) := by
  unfold execAonPorRelease
  extract_lets h s1 s2 s3 alarms s4 s5
  have h1 : Keeps s s1 := .mk (.refl s)
  have h3 : Keeps s s3 := State.setFlag_keeps _ _ (State.setReg_keeps _ _ (State.setReg_keeps _ _
    (State.setFlag_keeps _ _ (State.setFlag_keeps _ _ h1))))
  have h5 : Keeps s s5 := Keeps.foldl (fun _ _ hu => State.onDom_keeps _ hu) _ (State.setReg_keeps _ _ h3)
  exact .ite (.next (.refl s)) (.next (.mk h5))

theorem execXt1Fail_answers : Answers s (execXt1Fail s) :=
  .next (.ite (State.setFlag_keeps _ _ (State.setFlag_keeps _ _ (State.unanchor_keeps _
    (State.clkEvent_keeps _ (State.setFlag_keeps _ _ (State.setFlag_keeps _ _ (.refl s))))))) (.refl s))

theorem execXt2Fail_answers : Answers s (execXt2Fail s) :=
  have h1 : Keeps s (s.clkEvent 1) := State.clkEvent_keeps _ (.refl s)
  .ite (.next (.refl s)) (.next (.ite (State.wakeEnd_keeps h1) h1))

theorem execXt2Stop_answers : Answers s (execXt2Stop s) :=
  .next (.ite (State.pllLoss_keeps _ (State.pllLoss_keeps _ (State.clkEvent_keeps _ (State.setFlag_keeps _ _ (.refl s))))) (.refl s))

theorem execFmeasDone_answers (count : Nat) : Answers s (execFmeasDone count s) :=
  .ite (.next (.refl s)) (.next (State.setFlag_keeps _ _ (State.setFlag_keeps _ _ (State.setFlag_keeps _ _
    (State.setReg_keeps _ _ (.refl s))))))

theorem execFrameTick_answers : Answers s (execFrameTick s) := by
  unfold execFrameTick
  extract_lets up s1 _ _ s2
  have h1 : Keeps s s1 := State.pinBoundary_keeps (State.setReg_keeps _ _ (State.sourceToXt1_keeps (.refl s)))
  have h2 : Keeps s s2.headTick := State.headTick_keeps (.mk h1)
  exact .ite (.next (.refl s)) (.next (.ite h2 (State.spineTick_keeps h2)))

theorem execBeacon_answers (frame : Rx 208) (e : Int) (per : Nat) : Answers s (execBeacon frame e per s) := by
  unfold execBeacon
  refine .ite (.next (.refl s)) ?_
  have hp := State.pickFrame_keeps frame (crc16Ok 26) (.refl s)
  split
  · next heq => exact .next (State.judgeBeacon_keeps _ _ _ (hp.of_pair heq))
  · next heq => exact .next (hp.of_pair heq)

theorem execStoreDrain_answers (core : Fin 5) : Answers s (execStoreDrain core s) :=
  .next (.ite ((State.drainOne_keeps _ (.refl s)).getD (.refl s)) (.refl s))

theorem execCleatAcas_answers (core : Fin 5) (cleat : Fin 256) (e v : Word) : Answers s (execCleatAcas core cleat e v s) := by
  unfold execCleatAcas
  refine .ite (.next (.refl s)) ?_
  have hq := State.cleatSwap_keeps cleat 0 (s.ctxOf core) e.toNat v.toNat (s.core core).tmode (.refl s)
  split
  · next heq => exact .next (hq.of_pair heq)
  · next heq => exact .next (State.cleatTrap_keeps _ _ _ (hq.of_pair heq))

theorem execCleatWaitRead_answers (core : Fin 5) (cleat : Fin 256) (rd : Fin 16) :
    Answers s (execCleatWaitRead core cleat rd s) := by
  unfold execCleatWaitRead
  refine .ite (.next (.refl s)) ?_
  have hq := State.cleatLoad_keeps cleat 1 (s.ctxOf core) (s.core core).tmode (.refl s)
  split
  · next heq => exact .next (State.setCore_keeps _ _ (hq.of_pair heq))
  · next heq => exact .next (State.setCore_keeps _ _ (hq.of_pair heq))
  · next heq => exact .next (State.cleatTrap_keeps _ _ _ (hq.of_pair heq))

theorem execRomBoot_answers (id : Option Byte) : Answers s (execRomBoot id s) :=
  .ite (.next (.refl s)) (.next (.ite (State.bootRest_keeps _ (.refl s)) (State.bootStep1_keeps (.refl s))))

theorem execWarmPath_answers : Answers s (execWarmPath s) := by
  unfold execWarmPath
  extract_lets s1 _ s2
  have h1 : Keeps s s1 := State.writeKek_keeps (State.applySnapshot_keeps (.refl s))
  have h2 : Keeps s s2 := .ite (.mk h1) h1
  exact .ite (.next (.refl s)) (.ite (.next (State.accept_keeps (State.rwSet_keeps _ _ _ h2)))
    (.next (.mk (State.setFlag_keeps _ _ (.refl s)))))

theorem execRstN_answers (low : Bool) : Answers s (execRstN low s) :=
  .ite (.next (.mk (.refl s))) (.ite (.next (.mk (.refl s))) (.next (.mk (.refl s))))

theorem execFatalResetDue_answers : Answers s (execFatalResetDue s) := by
  unfold execFatalResetDue
  split
  · exact .next (.ite (.mk (.refl s)) (.refl s))
  · exact .next (.refl s)

theorem execWarmResetStart_answers : Answers s (execWarmResetStart s) := by
  unfold execWarmResetStart
  split
  · exact .next (.ite (State.warmStart_keeps _ _ (.refl s)) (.refl s))
  · exact .next (.refl s)

theorem execWarmResetEnd_answers (boot strap : BitVec 2) : Answers s (execWarmResetEnd boot strap s) := by
  unfold execWarmResetEnd
  extract_lets d s1 _ _ s2 s3 s4
  have h1 : Keeps s s1 := State.resetAon_keeps (Keeps.foldl (fun _ _ hu => State.offDom_keeps _ hu) _ (.refl s))
  have h2 : Keeps s s2 := .mk h1
  have h4 : Keeps s s4 := State.setReg_keeps _ _ (State.setReg_keeps _ _ (State.setReg_keeps _ _ (State.setReg_keeps _ _
    (State.setReg_keeps _ _ h2))))
  exact .ite (.next (.refl s)) (.next (Keeps.foldl (fun _ _ hu => State.onDom_keeps _ hu) _ h4))

theorem execEthernetFrame_answers (port : Bool) (frame : List Byte) : Answers s (execEthernetFrame port frame s) := by
  unfold execEthernetFrame
  extract_lets p s1
  have h1 : Keeps s s1 := .ite (State.reef1Leave_keeps (.refl s)) (.refl s)
  exact .ite (.next h1) (.ite (.next h1) (.next (State.count_keeps _ _ _ h1)))

theorem execArpRequest_answers (port : Bool) (frame : List Byte) : Answers s (execArpRequest port frame s) :=
  .next (.ite (State.ethSend_keeps _ _ (State.reef1Leave_keeps (.refl s))) (.refl s))

theorem execIcmpEcho_answers (port : Bool) (frame : List Byte) : Answers s (execIcmpEcho port frame s) :=
  .next (.ite (State.ethSend_keeps _ _ (State.reef1Leave_keeps (.refl s))) (.refl s))

theorem execLinkUp_answers (port full : Bool) : Answers s (execLinkUp port full s) :=
  .ite (.next (.refl s)) (.ite (.next (State.setFlag_keeps _ _ (.refl s))) (.next (State.setFlag_keeps _ _ (.refl s))))

theorem execConsoleByte_answers (port : Bool) (data : Byte) : Answers s (execConsoleByte port data s) := by
  unfold execConsoleByte
  extract_lets p s0 l s1
  have h0 : Keeps s s0 := State.reef1Leave_keeps (.refl s)
  have h1 : Keeps s s1 := .ite (State.setCons_keeps _ _ h0) (State.count_keeps _ _ _ (.ite h0 (State.setCons_keeps _ _ h0)))
  exact .ite (.next (.refl s)) (.next (State.halyard_keeps _ h1))

theorem execGpioEvent_answers (pin : Fin 64) (ball : Bool) : Answers s (execGpioEvent pin ball s) :=
  .ite (.next (.refl s)) (.next (.mk (.refl s)))

theorem execPsuAlert_answers (asserted : Bool) : Answers s (execPsuAlert asserted s) :=
  .next (.ite (State.halyard_keeps _ (.mk (.refl s))) (.mk (.refl s)))

/-- R400: an instruction of the TAP changes the TAP alone. -/
theorem State.jtag_answers {z s : State} (t : Tap) (h : Keeps z s) : Answers z (s.jtag t) := .next (.ite (.mk h) h)

theorem execJtagDebug_answers : Answers s (execJtagDebug s) :=
  .ite (State.jtag_answers _ (State.freeBits_keeps _ (.refl s))) (State.jtag_answers _ (.refl s))

theorem execBypass_answers (code : BitVec 5) : Answers s (execBypass code s) :=
  .ite (.next (.refl s)) (State.jtag_answers _ (.refl s))

theorem execTracePacket_answers (source : Fin 6) (kind : BitVec 5) (payload : List (BitVec 16)) :
    Answers s (execTracePacket source kind payload s) :=
  .ite (.next (.refl s)) (.next (.ite (.mk (.refl s)) (.mk (.refl s))))

theorem execDoorbell_answers (tenant : Fin 64) (value : Word) : Answers s (execDoorbell tenant value s) :=
  .ite (.next (.refl s)) (.next (State.takeMailbox_keeps _ (State.memWrite_keeps _ _ (.refl s))))

theorem execQuery_answers (ports : BitVec 2) (a b : BitVec 72) (late : Bool) : Answers s (execQuery ports a b late s) := by
  unfold execQuery
  have hp := State.pickFrame_keeps { ports := ports, a := a, b := b } crc8Ok (.refl s)
  split
  · next heq => exact .next (State.takeChunk_keeps (State.query_keeps _ _ (hp.of_pair heq)))
  · next heq => exact .next (hp.of_pair heq)

theorem execUdpDatagram_answers (port : Bool) (frame : List Byte) : Answers s (execUdpDatagram port frame s) :=
  .ite (.next (.refl s)) (.ite (.next (State.takeDatagram_keeps _ _ (State.takeDatagrams_keeps (.refl s))))
    (.next (State.holdDatagram_keeps _ _ (.refl s))))

theorem execConsoleFrame_answers (port : Bool) : Answers s (execConsoleFrame port s) := by
  unfold execConsoleFrame
  extract_lets p l f s1
  have h1 : Keeps s s1 := State.setCons_keeps _ _ (.refl s)
  refine .ite (.next (.refl s)) (.ite (.next h1) ?_)
  split
  · exact .next (.ite (State.count_keeps _ _ _ h1) (State.packet_keeps _ _ h1))
  · exact .next (State.count_keeps _ _ _ h1)

theorem execCommandStart_answers : Answers s (execCommandStart s) := by
  unfold execCommandStart
  refine .ite (.next (.refl s)) ?_
  split
  · exact .next (.refl s)
  · next c _ =>
    have h1 (y : Cyn) : Keeps s { s with cyn := y } := .mk (.refl s)
    exact .ite (.next (State.finish_keeps _ _ _ _ (h1 _))) (.ite (.next (State.finish_keeps _ _ _ _ (h1 _)))
      (.next ((State.perform_keeps _ (h1 _)).getD (.refl s))))

theorem execPgTimeout_answers : Answers s (execPgTimeout s) := by
  unfold execPgTimeout
  split
  · exact .next (.refl s)
  · exact .ite (.next (.refl s)) (.next (State.endSeq_keeps _ _ (.mk (State.rwSet_keeps _ _ _ (.refl s)))))

theorem execCcInterrupt_answers : Answers s (execCcInterrupt s) := by
  unfold execCcInterrupt
  split
  · exact .next (.refl s)
  · next n s1 heq =>
    have h1 : Keeps s s1 := (State.takeInterrupt_keeps (.refl s)).get heq
    refine .ite (.next h1) (.next ?_)
    split
    · exact State.halyardIrq_keeps h1
    · exact State.errIrq_keeps h1
    · exact State.mailboxIrq_keeps h1
    · exact State.takeChunk_keeps h1
    · exact State.takeDatagrams_keeps h1
    · exact h1

/-! ### The instructions of the cores -/

section
variable (core : Fin 5) (x : BitVec 26)

theorem execAlu_answers : Answers s (execAlu core x s) := s.eki_answers core 0x00 x fun c n u hu => by
  split
  · exact State.fin_keeps _ _ hu
  · exact State.rsvd_keeps hu

theorem execFence_answers : Answers s (execFence core x s) := s.eki_guard_answers core 0x23 x fun c n u hu => by
  have hd := State.drained_keeps c hu
  split
  · trivial
  · next heq => exact State.fin_keeps _ _ (hd.get heq)

theorem execWfe_answers : Answers s (execWfe core x s) := s.eki_guard_answers core 0x26 x fun c n u hu => by
  split
  · exact State.fin_keeps _ _ hu
  · exact State.setCore_keeps _ _ (State.noteWfe_keeps _ hu)

theorem execWft_answers : Answers s (execWft core x s) := s.eki_guard_answers core 0x27 x fun c n u hu => by
  split
  · exact State.fin_keeps _ _ hu
  · exact State.setCore_keeps _ _ hu

theorem execSev_answers : Answers s (execSev core x s) := s.eki_guard_answers core 0x28 x fun c n u hu => by
  dsimp only
  split
  · exact State.fin_keeps _ _ (State.event_keeps _ _ hu)
  · exact State.fin_keeps _ _ hu

theorem execSfuq_answers : Answers s (execSfuq core x s) :=
  s.eki_answers core 0x2D x fun c n u hu => State.loadDesc_keeps _ _ _ _ _ (fun d t ht => by
    have hd := State.drained_keeps c ht
    split
    · trivial
    · next heq => exact State.fin_keeps _ _ (State.sfuOffer_keeps _ _ _ _ _ _ (hd.get heq))) hu

theorem execCache_answers : Answers s (execCache core x s) := s.eki_guard_answers core 0x2E x fun c n u hu => by
  split
  · exact hu
  · exact State.fin_keeps _ _ (State.cacheOp_keeps _ _ _ hu)

theorem execPrfm_answers : Answers s (execPrfm core x s) := s.eki_guard_answers core 0x2F x fun c n u hu => by
  split
  · exact State.fin_keeps _ _ hu
  · exact State.fin_keeps _ _ (State.prefetch_keeps _ _ _ hu)

theorem execReservedMajorOpcode_answers (op : BitVec 6) : Answers s (execReservedMajorOpcode core op x s) :=
  .ite (.next (.refl s)) (s.eki_answers core op.toNat x fun _ _ _ hu => State.rsvd_keeps hu)

end

end

/-! ### Every command -/

/-- Every command answers a next state, which keeps the queue and the canonical form. -/
theorem exec_answers (c : Instr) (s : State) : Answers s (exec c s) :=
  match c with
  | .registerWrite .. | .go .. => .next (State.busWrite_keeps _ _ _ (.refl s))
  | .discard .. | .clr .. | .pmuReefReq .. | .wakePinWrite .. | .start .. | .capture | .load | .irqAck .. | .cntClr ..
  | .init .. | .frameOvrClr | .tenResetGo .. | .tenEventPost .. | .dmaCntClr | .unwrap .. | .clearKey .. | .sha256 ..
  | .verifyImage | .verifyUnlock | .signAttest | .random | .attestPub | .kek .. | .cryptCntClr | .memctlCntClr
  | .catCntClr | .xramClr | .arbCntClr | .lockCntClr | .probeRptPost .. | .setWake | .setSleep | .probeChunkRel
  | .spineCntClr | .probeCntClr | .channelStart .. | .channelStop .. | .restart .. | .gangCmdStart .. | .gangCmdStop ..
  | .bayuTx .. | .bayuCntClr | .seqEntryWrite .. | .adcCntClr | .sfuCntClr | .errDone | .errPopWrite .. | .warm ..
  | .eraseSector | .eraseBlock | .program .. | .recLock => .next (State.regCommand_keeps _ _ (.refl s))
  | .xsyncComplete .. => .next (State.crossOne_keeps _ (.refl s))
  | .frameTick => execFrameTick_answers s
  | .latchEdge => .next (.ite (State.latchEdge_keeps (.refl s)) (.refl s))
  | .gaugeUpdate vstore harvested drawn cycles => execGaugeUpdate_answers s vstore harvested drawn cycles
  | .mpptSampleEnd input uv => execMpptSampleEnd_answers s input uv
  | .keepCellLoad => execKeepCellLoad_answers s
  | .keepCellLoss => execKeepCellLoss_answers s
  | .loadReconnect | .loadCut | .clkoutChange | .refOk | .ledShift .. | .fanTachEdge .. =>
    .next (.ite (.mk (.refl s)) (.refl s))
  | .aonPorRelease boot strap => execAonPorRelease_answers s boot strap
  | .stbyUp => execStbyUp_answers s
  | .stbyLost => execStbyLost_answers s
  | .loadSwitchOpen => execLoadSwitchOpen_answers s
  | .fullRise => execFullRise_answers s
  | .fullClear => execFullClear_answers s
  | .storeLow => execStoreLow_answers s
  | .storeLowEnd => .next (.ite (State.lowEnds_keeps (.refl s)) (.refl s))
  | .storeLowForcedEntry => .next (.ite (State.storeLowEntry_keeps (.refl s)) (.refl s))
  | .entrySequenceStart => execEntrySequenceStart_answers s
  | .entrySwitchOff => execEntrySwitchOff_answers s
  | .reef1Entry => execReef1Entry_answers s
  | .reef1Exit => .next (.ite (State.reef1Leave_keeps (.refl s)) (.refl s))
  | .fullWakeStart => .next (.ite (State.fullWake_keeps (.refl s)) (.refl s))
  | .wakeDomainRelease .. | .domainRelease .. => .next (.ite (State.releaseDom_keeps _ (.refl s)) (.refl s))
  | .wakeComplete => .next (.ite (State.wakeEnd_keeps (.refl s)) (.refl s))
  | .wakePinEdge .. => .next (.ite (State.pinEdge_keeps _ _ (.refl s)) (.refl s))
  | .wakePinUnmask .. => .next (.ite (State.setReg_keeps _ _ (State.setPin_keeps _ _ (.refl s))) (.refl s))
  | .xt1Judged | .xt2Ok | .pllLock .. | .pairMiss | .edMaskTestEnd .. | .stdReady =>
    .next (.ite (State.setFlag_keeps _ _ (.refl s)) (.refl s))
  | .xt1Fail => execXt1Fail_answers s
  | .xt2Fail => execXt2Fail_answers s
  | .xt2Stop => execXt2Stop_answers s
  | .pllLockLoss .. => .next (State.pllLoss_keeps _ (.refl s))
  | .fmeasDone count => execFmeasDone_answers s count
  | .beacon frame e per => execBeacon_answers s frame e per
  | .unanchored => .next (.ite (State.unanchor_keeps _ (.refl s)) (.refl s))
  | .bkpSupplyChangeover .. => .next (State.setFlag_keeps _ _ (.refl s))
  | .bkpPor => execBkpPor_answers s
  | .secondRollover => execSecondRollover_answers s
  | .halted => execHalted_answers s
  | .rtcResume => execRtcResume_answers s
  | .alu core x => execAlu_answers s core x
  | .addi core x => show Answers s (execAddi core x s) from s.eki_answers core _ x fun _ _ _ hu => State.immOp_keeps _ _ _ hu
  | .andi core x => show Answers s (execAndi core x s) from s.eki_answers core _ x fun _ _ _ hu => State.immOp_keeps _ _ _ hu
  | .ori core x => show Answers s (execOri core x s) from s.eki_answers core _ x fun _ _ _ hu => State.immOp_keeps _ _ _ hu
  | .xori core x => show Answers s (execXori core x s) from s.eki_answers core _ x fun _ _ _ hu => State.immOp_keeps _ _ _ hu
  | .slti core x => show Answers s (execSlti core x s) from s.eki_answers core _ x fun _ _ _ hu => State.immOp_keeps _ _ _ hu
  | .shi core x => show Answers s (execShi core x s) from
    s.eki_guard_answers core _ x fun _ _ _ hu => State.immOp_keeps _ _ _ hu
  | .lui core x => show Answers s (execLui core x s) from s.eki_answers core _ x fun _ _ _ hu => State.immOp_keeps _ _ _ hu
  | .addpc core x => show Answers s (execAddpc core x s) from
    s.eki_answers core _ x fun _ _ _ hu => State.immOp_keeps _ _ _ hu
  | .ldw core x => show Answers s (execLdw core x s) from s.eki_answers core _ x fun _ _ _ hu => State.loadTo_keeps _ _ _ _ hu
  | .ldh core x => show Answers s (execLdh core x s) from s.eki_answers core _ x fun _ _ _ hu => State.loadTo_keeps _ _ _ _ hu
  | .ldhu core x => show Answers s (execLdhu core x s) from
    s.eki_answers core _ x fun _ _ _ hu => State.loadTo_keeps _ _ _ _ hu
  | .ldb core x => show Answers s (execLdb core x s) from s.eki_answers core _ x fun _ _ _ hu => State.loadTo_keeps _ _ _ _ hu
  | .ldbu core x => show Answers s (execLdbu core x s) from
    s.eki_answers core _ x fun _ _ _ hu => State.loadTo_keeps _ _ _ _ hu
  | .stw core x => show Answers s (execStw core x s) from
    s.eki_answers core _ x fun _ _ _ hu => State.storeOp_keeps _ _ _ _ _ hu
  | .sth core x => show Answers s (execSth core x s) from
    s.eki_answers core _ x fun _ _ _ hu => State.storeOp_keeps _ _ _ _ _ hu
  | .stb core x => show Answers s (execStb core x s) from
    s.eki_answers core _ x fun _ _ _ hu => State.storeOp_keeps _ _ _ _ _ hu
  | .ldd core x => show Answers s (execLdd core x s) from
    s.eki_guard_answers core _ x fun _ _ _ hu => State.loadOp_keeps _ _ _ _ _ _ hu
  | .std core x => show Answers s (execStd core x s) from
    s.eki_guard_answers core _ x fun _ _ _ hu => State.storeOp_keeps _ _ _ _ _ hu
  | .aadd core x => show Answers s (execAadd core x s) from
    s.eki_answers core _ x fun _ _ _ hu => State.atomicOp_keeps _ _ _ _ _ _ hu
  | .aswp core x => show Answers s (execAswp core x s) from
    s.eki_answers core _ x fun _ _ _ hu => State.atomicOp_keeps _ _ _ _ _ _ hu
  | .acas core x => show Answers s (execAcas core x s) from
    s.eki_answers core _ x fun _ _ _ hu => State.atomicOp_keeps _ _ _ _ _ _ hu
  | .beq core x => show Answers s (execBeq core x s) from s.eki_answers core _ x fun _ _ _ hu => State.branch_keeps _ _ _ hu
  | .bne core x => show Answers s (execBne core x s) from s.eki_answers core _ x fun _ _ _ hu => State.branch_keeps _ _ _ hu
  | .blt core x => show Answers s (execBlt core x s) from s.eki_answers core _ x fun _ _ _ hu => State.branch_keeps _ _ _ hu
  | .bge core x => show Answers s (execBge core x s) from s.eki_answers core _ x fun _ _ _ hu => State.branch_keeps _ _ _ hu
  | .bltu core x => show Answers s (execBltu core x s) from s.eki_answers core _ x fun _ _ _ hu => State.branch_keeps _ _ _ hu
  | .bgeu core x => show Answers s (execBgeu core x s) from s.eki_answers core _ x fun _ _ _ hu => State.branch_keeps _ _ _ hu
  | .jmp core x => show Answers s (execJmp core x s) from s.eki_answers core _ x fun _ _ _ hu => State.jump_keeps _ _ _ hu
  | .call core x => show Answers s (execCall core x s) from s.eki_answers core _ x fun _ _ _ hu => State.jump_keeps _ _ _ hu
  | .jalr core x => show Answers s (execJalr core x s) from s.eki_answers core _ x fun _ _ _ hu => State.jump_keeps _ _ _ hu
  | .fence core x => execFence_answers s core x
  | .syscall core x => show Answers s (execSyscall core x s) from s.eki_guard_answers core _ x fun _ _ _ hu => hu
  | .brk core x => show Answers s (execBrk core x s) from s.eki_guard_answers core _ x fun _ _ _ hu => hu
  | .wfe core x => execWfe_answers s core x
  | .wft core x => execWft_answers s core x
  | .wftTimeout .. => .next (.ite (State.setCore_keeps _ _ (.refl s)) (.refl s))
  | .sev core x => execSev_answers s core x
  | .mfc core x => show Answers s (execMfc core x s) from
    s.eki_guard_answers core _ x fun _ _ _ hu => State.fin_keeps _ _ (State.mfcVal_keeps _ _ hu)
  | .mtc core x => show Answers s (execMtc core x s) from s.eki_guard_answers core _ x fun _ _ _ hu => State.fin_keeps _ _ hu
  | .ldseg core x => show Answers s (execLdseg core x s) from
    s.eki_guard_answers core _ x fun _ _ _ hu => State.loadDesc_keeps _ _ _ _ _ (fun _ _ ht => State.fin_keeps _ _ ht) hu
  | .tret core x => show Answers s (execTret core x s) from
    s.eki_guard_answers core _ x fun _ _ _ hu => State.setCore_keeps _ _ hu
  | .sfuq core x => execSfuq_answers s core x
  | .cache core x => execCache_answers s core x
  | .prfm core x => execPrfm_answers s core x
  | .ccInterrupt => execCcInterrupt_answers s
  | .storeDrain core => execStoreDrain_answers s core
  | .busErr .. => .next (.ite (State.takeImp_keeps _ (.refl s)) (.refl s))
  | .evpend .. => .next (State.event_keeps _ _ (.refl s))
  | .parked .. => .next (.ite (State.settle_keeps _ (State.preempt_keeps _ _ _ (.refl s))) (.refl s))
  | .ovrBudget core => execOvrBudget_answers s core
  | .tenResetComplete => execTenResetComplete_answers s
  | .doorbell tenant value => execDoorbell_answers s tenant value
  | .readMiss .. => .next (.ite (State.readMiss_keeps _ _ (.refl s)) (.refl s))
  | .own .. => .next (.ite (State.own_keeps _ _ (.refl s)) (.refl s))
  | .writeThroughStore .. => .next (.ite (State.writeThrough_keeps _ _ _ (.refl s)) (.refl s))
  | .nonCachingRead .. => .next (.ite (State.ncRead_keeps _ _ (.refl s)) (.refl s))
  | .nonCachingWrite .. => .next (.ite (State.ncWrite_keeps _ _ (.refl s)) (.refl s))
  | .evictionNotice .. => .next (.ite (State.notice_keeps _ _ (.refl s)) (.refl s))
  | .catalogRead addr err => execCatalogRead_answers s addr err
  | .catalogWrite addr data => execCatalogWrite_answers s addr data
  | .writeAttempt fail0 fail1 mergeErr => execWriteAttempt_answers s fail0 fail1 mergeErr
  | .mapUpdate .. => .next (State.mapUpdate_keeps _ (.refl s))
  | .summaryRebuildStart => execSummaryRebuildStart_answers s
  | .summaryRebuildDone bad => execSummaryRebuildDone_answers s bad
  | .scrubRead .. => .next (.ite (State.scrubStep_keeps _ (.refl s)) (.refl s))
  | .dmaTransferStart .. => .next (.ite (State.setPlace_keeps _ _ (.refl s)) (.refl s))
  | .dmaBeat .. => .next (.ite (State.dmaBeat_keeps _ (.refl s)) (.refl s))
  | .dmaEnd place => execDmaEnd_answers s place
  | .cryptOperationEnd => execCryptOperationEnd_answers s
  | .arbRequest inst k beats prio ctx => execArbRequest_answers s inst k beats prio ctx
  | .arbDecision inst => execArbDecision_answers s inst
  | .cleatValueWrite .. | .cleatLeaseWrite .. => .next (.ite (State.storeCleat_keeps _ _ (.refl s)) (.refl s))
  | .cleatAcas core cleat expected value => execCleatAcas_answers s core cleat expected value
  | .cleatWaitRead core cleat rd => execCleatWaitRead_answers s core cleat rd
  | .waitTimeout ctx => execWaitTimeout_answers s ctx
  | .leaseExpired .. => .next (.ite (State.leaseExpires_keeps _ (.refl s)) (.refl s))
  | .waitBroken => execWaitBroken_answers s
  | .energyDetect port => execEnergyDetect_answers s port
  | .catalogBankReady .. => .next (.ite (State.setDom_keeps _ _ (.refl s)) (.refl s))
  | .excursionTimeout | .foreignFrame .. => .next (.ite (State.excEnd_keeps (.refl s)) (.refl s))
  | .query ports a b late => execQuery_answers s ports a b late
  | .probe .. | .status | .wakeShelf | .sleepShelf | .ticketFetch .. | .gauge | .time =>
    .next (State.answer_keeps _ _ _ _ (.refl s))
  | .cmdChunk .. => .next (State.takeChunk_keeps (State.answer_keeps _ _ _ _ (.refl s)))
  | .replyStart => execReplyStart_answers s
  | .slotEnd => .next (State.excEnd_keeps (.refl s))
  | .headBeacon conflict => execHeadBeacon_answers s conflict
  | .reportFragment slot => execReportFragment_answers s slot
  | .undelivered => execUndelivered_answers s
  | .pairTx => execPairTx_answers s
  | .pair frame => execPair_answers s frame
  | .pairAck frame => execPairAck_answers s frame
  | .jabber .. | .stuck .. => .next (.ite (State.setFlag_keeps _ _ (State.setFlag_keeps _ _ (.refl s))) (.refl s))
  | .udpDatagram port frame => execUdpDatagram_answers s port frame
  | .commandStart => execCommandStart_answers s
  | .commandComplete => .next (.ite (State.completeOne_keeps _ _ (.refl s)) (.refl s))
  | .nop .. | .ident .. | .cfgSet .. | .cfgGet .. | .regRead .. | .rptRead .. | .rptClear .. | .warmReset ..
  | .powerStat .. | .reefReq .. | .shelfWake .. | .shelfSleep .. | .powerSet .. | .bayStat .. | .baySet ..
  | .gangStart .. | .gangStop .. | .bayRestart .. | .serSend .. | .serRecv .. | .catLookup .. | .catPut ..
  | .catDelete .. | .catRead .. | .catWrite .. | .catRegion .. | .tenStat .. | .tenSeg .. | .tenActivate ..
  | .tenReset .. | .tenLoad .. | .slotStat .. | .cleatRead .. | .cleatWrite .. | .cleatAcquire .. | .arbSet ..
  | .gaugeRead .. | .harvSet .. | .timeGet .. | .timeSet .. | .alarmSet .. | .adcSet .. | .adcTable ..
  | .adcRingRead .. | .sfuTableLoad .. | .sfuTableCrc .. | .sfuRun .. | .norRead .. | .norErase .. | .norProgram ..
  | .imageActivate .. | .keyLoad .. | .keyClear .. | .attest .. | .attestKey .. | .unlockChallenge ..
  | .unlockResponse .. | .errRead .. | .errPop .. | .errStat .. => .next (State.issue_keeps _ _ (.refl s))
  | .cleatAcquireRetry => .next (.ite (State.retryOne_keeps _ _ (.refl s)) (.refl s))
  | .rampEnd .. => .next (.ite (.ite (State.setBayCh_keeps _ _ (.refl s)) (State.bayTrip_keeps _ _ (.refl s))) (.refl s))
  | .shortTrip .. => .next (.ite (State.bayTrip_keeps _ _ (.refl s)) (.refl s))
  | .backoffExpiry .. => .next (.ite (State.backoffExpiry_keeps _ (.refl s)) (.refl s))
  | .vb12OkRise .. | .receiverAdmission .. => .next (.ite (State.setReg_keeps _ _ (.refl s)) (.refl s))
  | .bayUv group => execBayUv_answers s group
  | .prsChg chan level => execPrsChg_answers s chan level
  | .flt chan level => execFlt_answers s chan level
  | .inputUnmask .. => .ite (.next (.refl s)) (.next (State.setBayCh_keeps _ _ (.refl s)))
  | .characterReceived chan data pe fe => execCharacterReceived_answers s chan data pe fe
  | .bayuRx .. => .next (.ite (State.busRead_keeps _ _ (.refl s)) (.refl s))
  | .bayuRingMove chan => execBayuRingMove_answers s chan
  | .converterStart .. => .next (.ite (State.startGroup_keeps _ (.refl s)) (.refl s))
  | .conversionDone .. => .next (.ite (State.conversion_keeps _ _ (.refl s)) (.refl s))
  | .adcRingMove => execAdcRingMove_answers s
  | .sfuJobStart place => execSfuJobStart_answers s place
  | .sfuJobEnd place => execSfuJobEnd_answers s place
  | .tableWrite .. => .next (.ite (State.tableWrite_keeps _ _ (.refl s)) (.refl s))
  | .errRecord .. => .next (State.raise_keeps _ (.refl s))
  | .fatalResetDue => execFatalResetDue_answers s
  | .rstN low => execRstN_answers s low
  | .warmResetStart => execWarmResetStart_answers s
  | .warmResetEnd boot strap => execWarmResetEnd_answers s boot strap
  | .romBoot shelfId => execRomBoot_answers s shelfId
  | .warmPath => execWarmPath_answers s
  | .norCheckDone => execNorCheckDone_answers s
  | .norOperationDone bad => execNorOperationDone_answers s bad
  | .norVerifyDone => execNorVerifyDone_answers s
  | .norWindowRead .. => .next (.ite (State.norTouch_keeps (.refl s)) (.refl s))
  | .eraseResume => .next (.ite (State.setNor_keeps _ (.refl s)) (.refl s))
  | .ethernetFrame port frame => execEthernetFrame_answers s port frame
  | .arpRequest port frame => execArpRequest_answers s port frame
  | .icmpEcho port frame => execIcmpEcho_answers s port frame
  | .linkUp port full1000 => execLinkUp_answers s port full1000
  | .linkDown .. => .next (State.setFlag_keeps _ _ (.mk (.refl s)))
  | .consoleByte port data => execConsoleByte_answers s port data
  | .consoleFrame port => execConsoleFrame_answers s port
  | .gpioEvent pin level => execGpioEvent_answers s pin level
  | .psuPg .. => .next (.ite (.refl s) (.mk (.refl s)))
  | .psuAlert asserted => execPsuAlert_answers s asserted
  | .pgTimeout => execPgTimeout_answers s
  | .extest .. | .samplePreload .. | .idcode | .clamp | .highz | .trstN => State.jtag_answers _ (.refl s)
  | .jtagDebug => execJtagDebug_answers s
  | .bypass code => execBypass_answers s code
  | .tracePacket source kind payload => execTracePacket_answers s source kind payload
  | .reservedMajorOpcode core opcode x => execReservedMajorOpcode_answers s core x opcode
  | .spineFrameDiscarded port sd nbits bytes => execSpineFrameDiscarded_answers s port sd nbits bytes
  | .falseStart .. => .next (.ite (State.count_keeps _ _ _ (.refl s)) (.refl s))
  | .characterShiftedOut .. => .next (.ite (State.setPort_keeps _ _ (.refl s)) (.refl s))
  | .wdtOutNRelease => .next (.mk (.refl s))

theorem exec_next (c : Instr) (s : State) : ∃ t, exec c s = .next t :=
  let ⟨t, h, _⟩ := exec_answers c s
  ⟨t, h⟩

theorem exec_keeps {c : Instr} {s t : State} (h : exec c s = .next t) : Keeps s t := by
  obtain ⟨u, hu, hk⟩ := exec_answers c s
  obtain rfl : u = t := Host.Outcome.next.inj (hu.symm.trans h)
  exact hk

/-- Taking a command from the queue changes neither memory nor registers, and neither does the command break their form. -/
theorem step_keeps_canonical {s t : State} (hs : s.canonical = true) (h : step s = .next t) : t.canonical = true := by
  unfold step at h
  split at h
  · obtain rfl : s.xt1Cycle = t := Host.Outcome.next.inj h
    exact (State.xt1Cycle_keeps (.refl s)).2 hs
  · exact (exec_keeps h).2 hs

/-! ### The obligations -/

/-- Settles O3: every arm of `exec` ends in a next state (one without its event in the unchanged state, log entry 8). -/
theorem everyCommandAnswersNext : Obligations.EveryCommandAnswersNext := exec_next

/-- Settles O4: what `exec` keeps includes the queue. -/
theorem commandsLeaveQueueUntouched : Obligations.CommandsLeaveQueueUntouched := fun _ _ _ h => (exec_keeps h).1

/-- Settles O5: a step is an XT1 cycle or a command, and both keep the canonical form. -/
theorem stepKeepsCanonicalForm : Obligations.StepKeepsCanonicalForm := fun _ _ hs h => step_keeps_canonical hs h

/-- Settles O1: the queue of the given state is the command and the rest. -/
theorem stepRunsFrontCommand : Obligations.StepRunsFrontCommand := fun _ _ _ => rfl

end Sys2Proof.Machine
end

section
/-! PROOFS. The idle step and the state after reset (R40, R80; log entry 9). -/
namespace Sys2Proof.Machine

/-! ### One XT1 cycle -/

section
variable (s : State)

@[simp] theorem State.reg_rtcCycle (k : Key) : s.rtcCycle.reg k = s.reg k := by
  unfold State.rtcCycle; split <;> rfl

@[simp] theorem State.tickLogic_rtcCycle : s.rtcCycle.tickLogic = s.tickLogic := by
  unfold State.rtcCycle; split <;> rfl

theorem State.rtc_rtcCycle :
    s.rtcCycle.rtc = if s.rtc.halted then s.rtc else { s.rtc with sub := min 32767 (s.rtc.sub + 1) } := by
  unfold State.rtcCycle; split <;> rfl

/-- A cycle of the RTC changes the RTC alone. -/
theorem State.rtcCycle_eq : s.rtcCycle = { s with rtc := s.rtcCycle.rtc } := by
  unfold State.rtcCycle; split <;> rfl

theorem State.reg_xt1Cycle_framePos : s.xt1Cycle.reg (fk 0x40004014 0) =
    if s.tickLogic then min 1023 (s.reg (fk 0x40004014 0) + 1) else s.reg (fk 0x40004014 0) := by
  have hcycle : s.xt1Cycle.reg (fk 0x40004014 0) = (if s.rtcCycle.tickLogic then
      s.rtcCycle.setReg (fk 0x40004014 0) (min 1023 (s.rtcCycle.reg (fk 0x40004014 0) + 1)) else s.rtcCycle).reg
        (fk 0x40004014 0) := rfl
  rw [hcycle, State.tickLogic_rtcCycle, State.reg_rtcCycle]
  split
  · exact State.reg_setReg _ _ _
  · exact s.reg_rtcCycle _

theorem State.reg_xt1Cycle_other {k : Key} (h : k ≠ fk 0x40004014 0) : s.xt1Cycle.reg k = s.reg k := by
  have hcycle : s.xt1Cycle.reg k = (if s.rtcCycle.tickLogic then
      s.rtcCycle.setReg (fk 0x40004014 0) (min 1023 (s.rtcCycle.reg (fk 0x40004014 0) + 1)) else s.rtcCycle).reg k := rfl
  rw [hcycle]
  split
  · rw [State.reg_setReg_other _ _ _ _ h.symm, State.reg_rtcCycle]
  · exact s.reg_rtcCycle k

/-- What a cycle can change: the RTC, the position in the frame, the trace FIFO and CLKOUT's pulse. -/
theorem State.xt1Cycle_eq : s.xt1Cycle = { s with
    rtc := s.rtcCycle.rtc, regs := s.xt1Cycle.regs, serv := { s.serv with trace := [] },
    clk := { s.clk with tickHigh := false } } := by
  unfold State.xt1Cycle
  rw [s.rtcCycle_eq]
  dsimp only
  split <;> rfl

end

/-! ### The obligations -/

/-- Settles O2: the idle step is `State.xt1Cycle`, and its equation says what a cycle can change. -/
theorem idleStepIsOneXt1Cycle : Obligations.IdleStepIsOneXt1Cycle := by
  unfold Obligations.IdleStepIsOneXt1Cycle
  intro s hidle
  refine ⟨_, step_idle hidle, ?_, s.reg_xt1Cycle_framePos, fun _ => s.reg_xt1Cycle_other, ?_, ?_, ?_⟩
  · rw [State.xt1Cycle_rtc, State.rtc_rtcCycle]
  all_goals rw [State.xt1Cycle_eq]

/-- The two fields that the state after reset lists (R40, R80); every other reads its table's reset value. -/
theorem State.reg_reset (k : Key) : State.reset.reg k =
    if k = fk 0x40001044 0 ∨ k = fk 0x40002040 4 then 1 else regReset k := by
  have htab : State.reset.reg k = Tab.get regReset
      (Tab.set regReset (Tab.set regReset [] (fk 0x40001044 0) 1) (fk 0x40002040 4) 1) k := rfl
  rw [htab, Tab.get_set, Tab.get_set, Tab.get_nil]
  by_cases h1 : fk 0x40002040 4 = k
  · simp [h1]
  · by_cases h2 : fk 0x40001044 0 = k
    · simp [h2]
    · rw [if_neg h1, if_neg h2, if_neg (not_or.2 ⟨fun h => h2 h.symm, fun h => h1 h.symm⟩)]

theorem State.canonical_reset : State.reset.canonical = true := by
  have hmem : Memory.wf State.reset.mem = true := Tab.wf_nil memDefault
  have hregs : Regs.wf (Tab.set regReset (Tab.set regReset [] (fk 0x40001044 0) 1) (fk 0x40002040 4) 1) = true :=
    Tab.wf_set regReset _ _ _ (Tab.wf_set regReset _ _ _ (Tab.wf_nil regReset))
  exact Bool.and_eq_true_iff.mpr ⟨hmem, hregs⟩

/-- Settles O6: the two listed fields are read off `State.reg_reset`, the sample off the tables (log entries 2 and 4). -/
theorem resetStateAndRegisterValues : Obligations.ResetStateAndRegisterValues := by
  unfold Obligations.ResetStateAndRegisterValues
  refine ⟨⟨State.canonical_reset, rfl, rfl⟩, fun k h1 h2 => ?_, ?_, ?_, by decide⟩
  · rw [State.reg_reset, if_neg (not_or.2 ⟨h1, h2⟩)]
  · rw [State.reg_reset, if_pos (.inl rfl)]
  · rw [State.reg_reset, if_pos (.inr rfl)]

end Sys2Proof.Machine
end

section
/-! PROOFS. EKI instructions on a core that is ready: how each ends, from what its own work answers. -/
namespace Sys2Proof.Machine

section
variable {s s1 s2 : State} {core : Fin 5} {op : Nat} {x : BitVec 26} {body : Nat → Nat → State → Ex}

/-- An instruction whose work ends answers what the work leaves. -/
theorem State.eki_fin (h : s.ready core.val = some s1) (hb : body core.val x.toNat s1 = .fin s2) :
    s.eki core op x body = .next s2 := by
  rw [State.eki_ready op x body h, hb]

/-- An instruction whose work traps answers what the trap leaves. -/
theorem State.eki_trap {code seg tval : Nat} (h : s.ready core.val = some s1)
    (hb : body core.val x.toNat s1 = .trap code seg tval s2) :
    s.eki core op x body = .next (s.settle (s2.trap core.val code seg tval (ekiWord op x.toNat))) := by
  rw [State.eki_ready op x body h, hb]

theorem State.fin_eq (s : State) (c : Nat) (f : Core → Core) : s.fin c f = .fin (s.goOn c f) := rfl

theorem State.guardEki_true (s : State) {ok : Bool} (e : Ex) (h : ok = true) : s.guardEki ok e = e := if_pos h

theorem State.guardEki_false (s : State) {ok : Bool} (e : Ex) (h : ok = false) : s.guardEki ok e = .trap 3 0 0 s := by
  simp [State.guardEki, State.rsvd, h]

/-- A guarded instruction whose operand fields are not what they must be is reserved. -/
theorem State.eki_reserved {ok : Nat → Nat → State → Bool} (h : s.ready core.val = some s1)
    (hok : ok core.val x.toNat s1 = false) :
    s.eki core op x (fun c n u => u.guardEki (ok c n u) (body c n u)) =
      .next (s.settle (s1.trap core.val 3 0 0 (ekiWord op x.toNat))) :=
  State.eki_trap h (State.guardEki_false s1 _ hok)

/-- A guarded instruction whose operand fields are what they must be does its work. -/
theorem State.eki_guarded {ok : Nat → Nat → State → Bool} (h : s.ready core.val = some s1)
    (hok : ok core.val x.toNat s1 = true) (hb : body core.val x.toNat s1 = .fin s2) :
    s.eki core op x (fun c n u => u.guardEki (ok c n u) (body c n u)) = .next s2 :=
  State.eki_fin h ((State.guardEki_true s1 _ hok).trans hb)

end

/-! ### ALU and immediate instructions (R121, R122) -/

section
variable {s s1 : State} {core : Fin 5} {x : BitVec 26} (h : s.ready core.val = some s1)
include h

theorem exec_alu_gives {v : Word} (hv : aluFn (wFunc x.toNat) (s1.gr core.val (wA x.toNat)) (s1.gr core.val (wB x.toNat)) = some v) :
    exec (.alu core x) s = .next (s1.goOn core.val (·.setG (wD x.toNat) v)) :=
  show execAlu core x s = _ from State.eki_fin h (by simp only [hv, State.fin_eq])

theorem exec_alu_reserved (hf : 21 ≤ wFunc x.toNat) :
    exec (.alu core x) s = .next (s.settle (s1.trap core.val 3 0 0 (ekiWord 0x00 x.toNat))) := by
  have hn (a b : Word) : aluFn (wFunc x.toNat) a b = none := by
    unfold aluFn
    split
    case h_22 => rfl
    all_goals omega
  exact show execAlu core x s = _ from State.eki_trap h (by simp only [hn, State.rsvd])

end

theorem ite_slt_eq_min (a b : Word) : (if a.slt b then a else b) = if a.toInt ≤ b.toInt then a else b := by
  rw [BitVec.slt_eq_decide]
  by_cases he : a = b
  · simp [he]
  · have hne : a.toInt ≠ b.toInt := fun h => he (BitVec.eq_of_toInt_eq h)
    simp [Int.lt_iff_le_and_ne, hne]

theorem ite_slt_eq_max (a b : Word) : (if a.slt b then b else a) = if a.toInt ≤ b.toInt then b else a := by
  rw [BitVec.slt_eq_decide]
  by_cases he : a = b
  · simp [he]
  · have hne : a.toInt ≠ b.toInt := fun h => he (BitVec.eq_of_toInt_eq h)
    simp [Int.lt_iff_le_and_ne, hne]

theorem ite_ult_eq_min (a b : Word) : (if a.ult b then a else b) = if a.toNat ≤ b.toNat then a else b := by
  rw [BitVec.ult_eq_decide]
  by_cases he : a = b
  · simp [he]
  · have hne : a.toNat ≠ b.toNat := fun h => he (BitVec.eq_of_toNat_eq h)
    simp [Nat.lt_iff_le_and_ne, hne]

theorem ite_ult_eq_max (a b : Word) : (if a.ult b then b else a) = if a.toNat ≤ b.toNat then b else a := by
  rw [BitVec.ult_eq_decide]
  by_cases he : a = b
  · simp [he]
  · have hne : a.toNat ≠ b.toNat := fun h => he (BitVec.eq_of_toNat_eq h)
    simp [Nat.lt_iff_le_and_ne, hne]

/-- The low five bits of a SHI are its shift amount as a word. -/
theorem toNat_ofNat_bits_5 (n : Nat) : (BitVec.ofNat 32 (bits n 0 5)).toNat % 32 = bits n 0 5 := by
  have : bits n 0 5 < 32 := Nat.mod_lt _ (by decide)
  rw [BitVec.toNat_ofNat]
  omega

/-- Settles O23: each func's and each immediate's value, over the lemma that an instruction whose work ends answers what the
work leaves. -/
theorem registerAndImmediateResults : Obligations.RegisterAndImmediateResults := by
  unfold Obligations.RegisterAndImmediateResults
  refine ⟨fun core x s s1 h => ?_, fun core x s s1 h => ?_⟩
  · intro c a b sh bool gives
    have hg {v : Word} (hv : aluFn (wFunc x.toNat) a b = some v) : gives v := exec_alu_gives h hv
    refine ⟨?_, ?_, ?_, ?_, ?_, ?_, ?_, ?_, ?_, ?_, ?_, ?_, ?_, ?_, ?_, ?_, ?_, ?_, ?_, ?_, ?_, ?_, ?_, ?_, ?_, ?_, ?_,
      exec_alu_reserved h, ?_⟩
    case refine_28 => simp [State.gr, Core.getG]
    all_goals intro hf
    case refine_9 => exact hg (by simp [hf, aluFn, BitVec.slt_eq_decide, ofCond, bool])
    case refine_10 => exact hg (by simp [hf, aluFn, BitVec.ult_eq_decide, ofCond, bool])
    case refine_24 => exact hg (by rw [hf, ← ite_slt_eq_min] <;> rfl)
    case refine_25 => exact hg (by rw [hf, ← ite_slt_eq_max] <;> rfl)
    case refine_26 => exact hg (by rw [hf, ← ite_ult_eq_min] <;> rfl)
    case refine_27 => exact hg (by rw [hf, ← ite_ult_eq_max] <;> rfl)
    case refine_14 | refine_15 | refine_17 | refine_18 | refine_19 | refine_20 | refine_22 | refine_23 =>
      intro hb
      exact hg (by simp [hf, aluFn, divS, divU, remS, remU, hb])
    case refine_16 | refine_21 =>
      intro ha hb
      exact hg (by rw [hf, ha, hb]; decide)
    all_goals exact hg (by rw [hf]; rfl)
  · intro c a z n next
    have hn : (BitVec.ofNat 32 n).toNat % 32 = n := toNat_ofNat_bits_5 _
    refine ⟨show execAddi core x s = _ from State.eki_fin h rfl, show execAndi core x s = _ from State.eki_fin h rfl,
      show execOri core x s = _ from State.eki_fin h rfl, show execXori core x s = _ from State.eki_fin h rfl,
      show execSlti core x s = _ from State.eki_fin h ?_,
      fun h0 h1 => show execShi core x s = _ from State.eki_guarded h (by simp [h0, h1]) ?_,
      fun h0 h1 => show execShi core x s = _ from State.eki_guarded h (by simp [h0, h1]) ?_,
      fun h0 h1 => show execShi core x s = _ from State.eki_guarded h (by simp [h0, h1]) ?_,
      fun h0 => show execShi core x s = _ from State.eki_reserved h ?_, show execLui core x s = _ from State.eki_fin h rfl,
      show execAddpc core x s = _ from State.eki_fin h rfl⟩
    · simp only [State.immOp, BitVec.slt_eq_decide, ofCond, decide_eq_true_eq, State.fin_eq] <;> rfl
    · simp only [h1, shl5]
      rw [hn]
      rfl
    · simp only [h1, shr5]
      rw [hn]
      rfl
    · simp only [h1, sar5]
      rw [hn]
      rfl
    · obtain h0 | h0 := h0 <;> simp [h0]

/-! ### Branches and jumps (R120, R122) -/

/-- A branch whose condition holds jumps; one whose condition fails goes on. -/
theorem State.branch_eq (s : State) (c x : Nat) (k : Cond) :
    s.branch c x k = .fin (if k.holds (s.gr c (wD x)) (s.gr c (wA x)) then
      s.setCore c { s.core c with pc := (s.core c).pc + sImm18 x * 4#32 } else s.goOn c id) := by
  unfold State.branch
  split <;> rfl

theorem eki_branch {s s1 : State} {core : Fin 5} {op : Nat} {x : BitVec 26} {k : Cond} {p : Prop}
    (h : s.ready core.val = some s1)
    (hp : k.holds (s1.gr core.val (wD x.toNat)) (s1.gr core.val (wA x.toNat)) = true ↔ p) :
    (p → s.eki core op x (fun c x s => s.branch c x k) =
      .next (s1.setCore core.val { s1.core core.val with pc := (s1.core core.val).pc + sImm18 x.toNat * 4#32 })) ∧
    (¬p → s.eki core op x (fun c x s => s.branch c x k) = .next (s1.goOn core.val id)) :=
  ⟨fun hc => State.eki_fin h (by rw [State.branch_eq, if_pos (hp.2 hc)]),
    fun hc => State.eki_fin h (by rw [State.branch_eq, if_neg (fun hk => hc (hp.1 hk))])⟩

/-- Settles O27: each branch's condition in numbers, over the lemma on a branch; the jumps set the PC and their link. -/
theorem branchesAndJumps : Obligations.BranchesAndJumps := by
  unfold Obligations.BranchesAndJumps
  intro core x s s1 h c pc a b br
  refine ⟨eki_branch h ?_, eki_branch h ?_, eki_branch h ?_, eki_branch h ?_, eki_branch h ?_, eki_branch h ?_,
    show execJmp core x s = _ from State.eki_fin h rfl, show execCall core x s = _ from State.eki_fin h rfl,
    show execJalr core x s = _ from State.eki_fin h rfl⟩
  all_goals simp [Cond.holds, BitVec.slt_eq_decide, BitVec.ult_eq_decide, a, b, c]

/-! ### Privileged instructions in T mode (R112) -/

/-- Settles O29: a privileged instruction's guard fails in T mode. -/
theorem privilegedInstructionsTrap : Obligations.PrivilegedInstructionsTrap := by
  unfold Obligations.PrivilegedInstructionsTrap
  intro core x s s1 h ht c traps
  refine ⟨fun hi => show execMfc core x s = _ from State.eki_reserved h ?_,
    fun hi => show execMtc core x s = _ from State.eki_reserved h ?_, show execLdseg core x s = _ from State.eki_reserved h ?_,
    show execTret core x s = _ from State.eki_reserved h ?_,
    fun hd => show execCache core x s = _ from State.eki_reserved h ?_⟩
  · simp only [ht, Bool.not_true, Bool.false_or, Bool.and_eq_false_iff]
    exact .inr (by simpa using hi)
  · simp [ht, hi]
  · simp [ht]
  · simp [ht]
  · simp [ht, hd]

/-! ### Waits and events (R136, R137) -/

theorem bits_zero_eq_mod (n w : Nat) : bits n 0 w = n % 2 ^ w := by simp [bits]

/-- Settles O30: WFE, WFT and SEV by the branch that their operands choose. -/
theorem waitsAndEvents : Obligations.WaitsAndEvents := by
  unfold Obligations.WaitsAndEvents
  intro core x s
  dsimp only
  refine ⟨fun s1 h hi => ⟨fun ha he => ?_, fun ha he => ?_, fun hn => ?_, fun hn => ?_, fun hn ht => ?_, fun ht => ?_⟩,
    fun hu hr => ?_⟩
  · exact show execWfe core x s = _ from State.eki_guarded h (by simp [ha, hi]) (if_pos he)
  · have hw : execWfe core x s = .next ((s1.noteWfe core).setCore core { s1.core core with run := .wfe, waitRd := wD x.toNat }) :=
      State.eki_guarded h (by simp [ha, hi]) (if_neg (by simp [he]))
    refine ⟨_, hw, ?_⟩
    simp only [State.core_setCore, State.setCore_mem, true_and]
    unfold State.noteWfe
    split <;> rfl
  · exact show execWft core x s = _ from State.eki_guarded h (by simp [hi]) (if_pos ((bits_zero_eq_mod _ 16).trans hn))
  · exact show execWft core x s = _ from State.eki_guarded h (by simp [hi]) (if_neg (fun hb => hn ((bits_zero_eq_mod _ 16).symm.trans hb)))
  · refine show execSev core x s = _ from State.eki_guarded h (by simp [hi]) ?_
    simp only [bits_zero_eq_mod]
    exact if_pos (by obtain ht | ht := ht <;> simp [hn, ht])
  · refine show execSev core x s = _ from State.eki_guarded h (by simp [hi]) ?_
    simp only [bits_zero_eq_mod]
    refine if_neg ?_
    obtain ht | ⟨hm, ht⟩ := ht
    · simp [Nat.not_lt.2 ht]
    · simp [hm, ht]
  · exact congrArg Host.Outcome.next (if_pos (by simp [hu, hr]))

end Sys2Proof.Machine
end

section
/-! PROOFS. EKI instructions that move data: control registers, LDSEG, SFUQ, CACHE, PRFM, FENCE, loads, stores and atomics. -/
namespace Sys2Proof.Machine

section
variable {s s1 : State} {core : Fin 5} {x : BitVec 26} (h : s.ready core.val = some s1)
include h

/-! ### Control registers (R112, R113) -/

theorem exec_mfc_reads (hm : (s1.core core.val).tmode = false) (ha : wA x.toNat = 0) (hi : wImm18 x.toNat < 13) :
    exec (.mfc core x) s = .next ((s1.mfcVal core.val (wImm18 x.toNat)).2.goOn core.val
      (·.setG (wD x.toNat) (s1.mfcVal core.val (wImm18 x.toNat)).1)) :=
  show execMfc core x s = _ from State.eki_guarded h (by simp [hm, ha, hi]) rfl

theorem exec_mtc_writes (hm : (s1.core core.val).tmode = false) (hd : wD x.toNat = 0) (hi : wImm18 x.toNat < 13) :
    exec (.mtc core x) s = .next (s1.goOn core.val
      (·.mtc (core.val == 0) (wImm18 x.toNat) (s1.gr core.val (wA x.toNat)))) :=
  show execMtc core x s = _ from State.eki_guarded h (by simp [hm, hd, hi]) rfl

end

theorem bit_toNat (v : Word) (i : Nat) : bit v.toNat i = v.getLsbD i := by
  rw [BitVec.getLsbD, Nat.testBit_eq_decide_div_mod_eq]
  rfl

/-! ### Descriptors, FENCE (R116, R133, R138) -/

section
variable {s t : State} {c seg : Nat} {off : Word}

/-- The segment that a data access of a core names. -/
theorem State.dataCheck_eq (s : State) (c seg : Nat) (off : Word) (need n : Nat) (align : Bool) :
    s.dataCheck c seg off need n align = ((s.core c).dataSet.getD seg {},
      checkSeg ((s.core c).dataSet.getD seg {}) (s.core c).tmode (s.coreTenant c) need off.toNat n align) := rfl

theorem State.loadDesc_data {n v : Nat} (k : List Byte → State → Ex)
    (hc : checkSeg ((s.core c).dataSet.getD seg {}) (s.core c).tmode (s.coreTenant c) 8 off.toNat n true = none)
    (hl : s.loadDwords c ((s.core c).dataSet.getD seg {}) (((s.core c).dataSet.getD seg {}).base + off.toNat) (n / 8) = .data v t) :
    s.loadDesc c seg off n k = k (leBytes v n) t := by
  simp only [State.loadDesc, State.dataCheck_eq, hc, hl]

end

/-- Settles O31: what MFC reads and MTC writes by number, then LDSEG, SFUQ, CACHE, PRFM and FENCE where their checks pass. It
rests on log entries 33 (the free value of CYCLE), 51 (CACHE checks one byte) and 53 (MTC to a read-only number). -/
theorem controlSegmentCacheAndFence : Obligations.ControlSegmentCacheAndFence := by
  unfold Obligations.ControlSegmentCacheAndFence
  refine ⟨fun core x s s1 h hm => ?_, fun core x s s1 h => ?_⟩
  · intro c k i v reads writes
    refine ⟨fun ha => ?_, fun hd => ?_, fun hr => ?_⟩
    · have hr {n : Nat} (hn : n < 13) (hi : i = n) : exec (.mfc core x) s = .next ((s1.mfcVal core.val n).2.goOn core.val
          (·.setG (wD x.toNat) (s1.mfcVal core.val n).1)) := hi ▸ exec_mfc_reads h hm ha (hi.symm ▸ hn : i < 13)
      exact ⟨hr (by decide), hr (by decide), hr (by decide), hr (by decide), hr (by decide), hr (by decide),
        fun hi => ⟨_, hr (by decide) hi⟩, hr (by decide), hr (by decide), hr (by decide), hr (by decide), hr (by decide),
        hr (by decide)⟩
    · have hw {n : Nat} (hn : n < 13) (hi : i = n) : exec (.mtc core x) s =
          .next (s1.goOn core.val (·.mtc (core.val == 0) n v)) := hi ▸ exec_mtc_writes h hm hd (hi.symm ▸ hn : i < 13)
      refine ⟨hw (by decide), hw (by decide), hw (by decide), hw (by decide), hw (by decide), ?_, ?_, hw (by decide),
        hw (by decide), fun hi => ⟨_, hw (by decide) hi, hm, ?_, ?_, ?_, ?_, ?_, rfl⟩⟩
      · rintro (hi | hi | hi | hi) <;> exact hw (by decide) hi
      · exact fun hi => (hw (by decide) hi).trans (by simp only [Core.mtc, bits_zero_eq_mod] <;> rfl)
      · exact fun hc => by simp [Core.mtc, show core.val = 0 from hc]
      · exact fun hc => by simp [Core.mtc, show core.val ≠ 0 from hc, bit_toNat]
      all_goals exact bit_toNat v _
    · refine show execMfc core x s = _ from State.eki_reserved h ?_
      obtain hr | hr := hr
      · simp [hr]
      · simp [show ¬wImm18 x.toNat < 13 from Nat.not_lt.2 hr]
  · intro c off sg chk a
    have hcheck (al : Bool) : s1.dataCheck core.val (wSegM x.toNat) (s1.offM core.val x.toNat) 8 1 al = (sg, chk 1 al) := rfl
    refine ⟨fun v t hm hd hc hl => ?_, fun v u t hc hl ht => ?_, fun hd h2 hc => ?_, fun hd hc => ?_, fun hd hc => ?_,
      fun t ht hx => ?_, fun t ht hx => ?_, fun hx => ?_⟩
    · exact show execLdseg core x s = _ from
        State.eki_guarded h (by simp [hd, show (s1.core core.val).tmode = false from hm]) (State.loadDesc_data _ hc hl)
    · exact show execSfuq core x s = _ from State.eki_fin h ((State.loadDesc_data _ hc hl).trans (by simp only [show u.drained core.val = _ from ht]; rfl))
    · refine show execCache core x s = _ from State.eki_guarded h ?_ (by simp only [hcheck, hc]; rfl)
      simp only [hd, decide_true, Bool.true_and, Bool.or_eq_true, bne_iff_ne, Bool.not_eq_true']
      exact Decidable.or_iff_not_imp_left.2 (fun hw => h2 (Decidable.not_not.1 hw))
    · exact show execPrfm core x s = _ from State.eki_guarded h (by simp [hd]) (by simp only [hcheck, hc]; rfl)
    · obtain ⟨code, hcode⟩ := Option.ne_none_iff_exists'.1 hc
      exact show execPrfm core x s = _ from State.eki_guarded h (by simp [hd]) (by simp only [hcheck, hcode]; rfl)
    · exact show execFence core x s = _ from State.eki_guarded h (by simp; omega)
        (by simp only [show s1.drained core.val = _ from ht, if_neg (show x.toNat ≠ 2 by omega)]; rfl)
    · exact show execFence core x s = _ from State.eki_guarded h (by simp; omega)
        (by simp only [show s1.drained core.val = _ from ht, if_pos hx]; rfl)
    · exact show execFence core x s = _ from State.eki_reserved h (by simp; omega)

end Sys2Proof.Machine
end

section
/-! PROOFS. The instruction boundary; loads, stores and atomics of the EKI cores. -/
namespace Sys2Proof.Machine

/-! ### The instruction boundary (R117, R118, R127, R129) -/

section
variable {s : State} {core : Fin 5} {op : Nat} {x : BitVec 26} {body : Nat → Nat → State → Ex}

/-- A core that does not run executes nothing. -/
theorem State.eki_idle (h : (s.isUp (6 + core.val) && (s.core core).run == .running && (core.val == 0 || (s.core core).slot.isSome)) = false) :
    s.eki core op x body = .next s := by
  simp [State.eki, h]

/-- A pending imprecise error comes before the instruction. -/
theorem State.eki_impDue
    (h : (s.isUp (6 + core.val) && (s.core core).run == .running && (core.val == 0 || (s.core core).slot.isSome)) = true)
    (hi : (s.core core).impDue = true) : s.eki core op x body = .next (s.settle (s.takeImp core)) := by
  simp only [State.eki, h, hi, Bool.not_true, Bool.false_eq_true, if_false, if_true]

theorem State.drainForeign_nil {c : Nat} (hs : (s.core c).sb = []) : s.drainForeign c = some s := by
  simp only [State.drainForeign, hs, List.filter_nil, List.length_nil, State.drainFirst]

/-- The core runs, and none of its stores is another context's: the fetch decides. -/
theorem State.eki_fetch (hr : s.runs core.val = true) (hs : (s.core core).sb = []) :
    s.eki core op x body = match s.fetch core.val with
      | .data _ s1 => match body core.val x.toNat s1 with
        | .fin s2 => .next ((s.boundary core.val).getD s2)
        | .wait => .next ((s.boundary core.val).getD s)
        | .trap code seg tval s2 => .next (s.settle (s2.trap core.val code seg tval (ekiWord op x.toNat)))
      | .fault code s1 => .next (s.settle (s1.trap core.val code 0 (s.core core.val).pc.toNat (ekiWord op x.toNat)))
      | _ => .next ((s.boundary core.val).getD s) := by
  simp only [State.runs, Bool.and_eq_true, Bool.not_eq_true'] at hr
  simp only [State.eki, hr.1.1.1, hr.1.1.2, hr.1.2, hr.2, Bool.and_self, Bool.not_true, Bool.false_eq_true, if_false,
    State.drainForeign_nil hs] <;> rfl

end

/-- Settles O32: the branches of the boundary in their order, with ADDI as the instruction. -/
theorem instructionBoundary : Obligations.InstructionBoundary := by
  unfold Obligations.InstructionBoundary
  intro core x s
  dsimp only
  refine ⟨fun l hr hs hc hl => ⟨fun hb => State.ready_hit hr hb hs hc hl, fun n u h0 hi => ?_⟩, fun code hr hs hc => ?_,
    fun hu hr hc hi => ?_, fun h => show execAddi core x s = _ from State.eki_idle ?_⟩
  · have hf : s.fetch core.val = .data 0 (s.setCore core.val ((s.core core.val).icTake l)) := by
      simp only [State.fetch, hc, hl]
    have hb : s.boundary core.val = some u := by simp only [State.boundary, h0, if_true, hi, Option.map_some]
    refine show execAddi core x s = _ from (State.eki_fetch hr hs).trans ?_
    simp only [hf, State.immOp, State.fin_eq, hb, Option.getD_some]
  · have hf : s.fetch core.val = .fault code s := by simp only [State.fetch, hc]
    exact show execAddi core x s = _ from (State.eki_fetch hr hs).trans (by simp only [hf])
  · refine show execAddi core x s = _ from State.eki_impDue ?_ hi
    simp only [hu, hr, beq_self_eq_true, Bool.and_self, Bool.true_and, Bool.or_eq_true, beq_iff_eq]
    exact hc.imp_right Option.isSome_iff_ne_none.2
  · obtain h | h | ⟨h, h'⟩ := h
    · simp [h]
    · simp [h]
    · simp [h, h']

/-! ### Loads (R117, R122, R131, R135) -/

section
variable {s t : State} {c seg n rd : Nat} {off : Word} {f : Nat → Core → Core}

/-- A load whose check passes and whose bytes come back goes on with them. -/
theorem State.loadOp_data {v : Nat}
    (hc : checkSeg ((s.core c).dataSet.getD seg {}) (s.core c).tmode (s.coreTenant c) 8 off.toNat n true = none)
    (hl : s.load c ((s.core c).dataSet.getD seg {}) (((s.core c).dataSet.getD seg {}).base + off.toNat) n = .data v t) :
    s.loadOp c seg off n rd f = .fin (t.goOn c (f v)) := by
  simp only [State.loadOp, State.dataCheck_eq, hc, hl, State.fin_eq]

theorem State.loadOp_trap {code : Nat}
    (hc : checkSeg ((s.core c).dataSet.getD seg {}) (s.core c).tmode (s.coreTenant c) 8 off.toNat n true = some code) :
    s.loadOp c seg off n rd f = .trap code seg off.toNat s := by
  simp only [State.loadOp, State.dataCheck_eq, hc]

end

/-- A load from ordinary memory outside the cleats looks into the store buffer first. -/
theorem State.load_eq {s : State} {c : Nat} {sg : Seg} {a n : Nat} (ht : sg.typ = 1) (hr : ∀ k, regionOf a ≠ .cleat k) :
    s.load c sg a n = match sbOverlap (s.core c).sb a n with
      | [] => s.loadMem c sg a n
      | l =>
        if l.length = 1 && l.all (fun e => decide (e.2.addr ≤ a ∧ a + n ≤ e.2.addr + e.2.size)) then
          .data (l.headD (0, { addr := 0, size := 0, data := 0, segNo := 0, off := 0, typ := 0, cache := 0, tmode := false, ctx := 0 })
              |> fun e => bits e.2.data (8 * (a - e.2.addr)) (8 * n))
            (s.count (fk (coreBase c + 0x10) 0) 16 1)
        else
          match s.drainFirst c ((l.map (·.1)).foldl max 0 + 1) with
          | none => .wait
          | some s1 => (s1.count (fk (coreBase c + 0x0C) 0) 16 1).loadMem c sg a n := by
  unfold State.load
  refine (if_neg ?_).trans rfl
  rw [ht]
  split
  · next k hk => exact absurd hk (hr k)
  · decide

/-- Settles O24: each load's data by its extension, and what a load finds in the store buffer or the data cache. -/
theorem loadsFillTheirRegisters : Obligations.LoadsFillTheirRegisters := by
  unfold Obligations.LoadsFillTheirRegisters
  refine ⟨fun core x s s1 h => ?_, fun s c sg a n ht hr => ?_⟩
  · intro c off sg chk rd
    refine ⟨fun v t hc hl => show execLdw core x s = _ from State.eki_fin h (State.loadOp_data hc hl), fun v t hc hl => ⟨
      show execLdh core x s = _ from State.eki_fin h (State.loadOp_data hc hl),
      show execLdhu core x s = _ from State.eki_fin h (State.loadOp_data hc hl)⟩, fun v t hc hl => ⟨
      show execLdb core x s = _ from State.eki_fin h (State.loadOp_data hc hl),
      show execLdbu core x s = _ from State.eki_fin h (State.loadOp_data hc hl)⟩,
      fun v t hd hc hl => show execLdd core x s = _ from State.eki_guarded h (by simpa using hd) (State.loadOp_data hc hl),
      fun hd => show execLdd core x s = _ from State.eki_reserved h (by simpa using hd),
      fun code hc => show execLdw core x s = _ from State.eki_trap h (State.loadOp_trap hc)⟩
  · refine ⟨fun i e ho h1 h2 => ?_, fun l ho hb hc hl => ?_⟩
    · rw [State.load_eq ht hr, ho]
      simp [h1, h2]
    · refine ⟨s.setCore c ((s.core c).putLine l), ?_, rfl, rfl, ?_, ?_, fun d hd => State.core_setCore_other _ _ _ _ (Ne.symm hd)⟩
      · rw [State.load_eq ht hr, ho]
        simp only [State.loadMem, hb, hc, hl, Bool.false_eq_true, if_false, if_true] <;> rfl
      all_goals rw [State.core_setCore] <;> rfl

/-! ### Atomics (R122, R134) -/

/-- An atomic on a spar word: the old word goes to rd, and what `f` makes of it, if anything, to memory. -/
theorem State.atomicOp_spar {s s1 : State} {c seg rd bank : Nat} {off : Word} {f : Word → Option Word} {swap : Option (Word × Word)}
    {sg : Seg} (hg : (s.core c).dataSet.getD seg {} = sg)
    (hc : checkSeg sg (s.core c).tmode (s.coreTenant c) 13 off.toNat 4 true = none) (hd : s.drained c = some s1)
    (hb : s1.busErrAt sg (sg.base + off.toNat) true = false) (hr : regionOf (sg.base + off.toNat) = .spar bank)
    {s2 : State} (h2 : s1.snoopAll true noCore (lineOf (sg.base + off.toNat)) = s2) {old : Word}
    (ho : BitVec.ofNat 32 (s2.rdLe (sg.base + off.toNat) 4) = old) {new : Option Word} (hf : f old = new) :
    s.atomicOp c seg off rd f swap =
      .fin ((new.elim s2 (fun v => s2.wrLe (sg.base + off.toNat) 4 v.toNat)).goOn c (·.setG rd old)) := by
  simp only [State.atomicOp, State.dataCheck_eq, hg, hc, hd, hb, hr, h2, ho, hf, Bool.false_eq_true, if_false, State.fin_eq]
  cases new <;> rfl

theorem length_leBytes (n v : Nat) : (leBytes v n).length = n := by
  induction n generalizing v with
  | zero => rfl
  | succ n ih => simp [leBytes, ih]

/-- Settles O26: the three atomics by the word that each writes. -/
theorem atomicsReturnTheOldWord : Obligations.AtomicsReturnTheOldWord := by
  unfold Obligations.AtomicsReturnTheOldWord
  intro core x s s1 s2 bank h c off sg a s3 old rd v hc hd hb hr
  have h3 : s2.snoopAll true noCore (lineOf a) = s3 := rfl
  have h4 : BitVec.ofNat 32 (s3.rdLe a 4) = old := rfl
  clear_value s3 old
  have ho {f : Word → Option Word} {swap : Option (Word × Word)} {new : Option Word} (hf : f old = new) :
      s1.atomicOp core.val (wSegA x.toNat) (s1.offA core.val x.toNat) (wD x.toNat) f swap =
        .fin ((new.elim s3 (fun v => s3.wrLe a 4 v.toNat)).goOn c (·.setG rd old)) :=
    State.atomicOp_spar rfl hc hd hb hr h3 h4 hf
  refine ⟨show execAadd core x s = _ from State.eki_fin h (ho (new := some _) rfl), show execAswp core x s = _ from State.eki_fin h (ho (new := some _) rfl),
    fun he => show execAcas core x s = _ from State.eki_fin h (ho (new := some _) (if_pos he)),
    fun he => show execAcas core x s = _ from State.eki_fin h (ho (new := none) (if_neg he)), fun n b hb => ?_⟩
  exact State.rd_wrBytes_outside s3 a b _ (by rwa [length_leBytes])

/-! ### Stores and their drain (R122, R130, R132) -/

theorem Tab.insert_insert {α : Type} (t : Tab α) (k : Nat) (v w : α) : Tab.insert (Tab.insert t k v) k w = Tab.insert t k w := by
  induction t with
  | nil => simp [Tab.insert]
  | cons e t ih =>
    obtain ⟨k', v'⟩ := e
    by_cases hlt : k < k'
    · simp [Tab.insert, hlt]
    · by_cases heq : k' = k
      · simp [Tab.insert, heq]
      · simp [Tab.insert, hlt, heq, ih]

/-- Of two changes of a core neither of which leaves it as after reset, the second stands. -/
theorem State.setCore_setCore (s : State) (c : Nat) {x y : Core} (hx : x ≠ {}) (hy : y ≠ {}) :
    (s.setCore c x).setCore c y = s.setCore c y := by
  simp only [State.setCore, Tab.set, if_neg hx, if_neg hy, Tab.insert_insert]

theorem Core.ne_default_of_sb {x : Core} (h : x.sb ≠ []) : x ≠ {} := fun he => h (he ▸ rfl)

/-- A store into a buffer that has room enters it behind the entries there. -/
theorem State.storeBuf_room {s : State} {c : Nat} (e : SbEnt) (h : (s.core c).sb.length < 4) :
    s.storeBuf c e = some (s.setCore c { s.core c with sb := (s.core c).sb ++ [e] }) := by
  simp only [State.storeBuf, if_pos h, Option.map_some]

theorem State.drained_nil {s : State} {c : Nat} (h : (s.core c).sb = []) : s.drained c = some s := by
  simp only [State.drained, h, List.length_nil, State.drainFirst]

/-- The store-buffer entry that a store of `n` bytes makes. -/
def State.storeEntry (s : State) (c seg : Nat) (off : Word) (n v : Nat) : SbEnt :=
  let sg := (s.core c).dataSet.getD seg {}
  { addr := sg.base + off.toNat, size := n, data := v % 2 ^ (8 * n), segNo := seg, off := off.toNat, typ := sg.typ,
    cache := sg.cache, tmode := (s.core c).tmode, ctx := s.ctxOf c }

/-- A store whose check passes enters a buffer that has room, and changes nothing else. -/
theorem State.storeOp_put {s : State} {c seg : Nat} {off : Word} {n v : Nat}
    (hc : checkSeg ((s.core c).dataSet.getD seg {}) (s.core c).tmode (s.coreTenant c) 4 off.toNat n true = none)
    (hr : (∀ k, regionOf (((s.core c).dataSet.getD seg {}).base + off.toNat) ≠ .cleat k) ∨ (s.core c).sb = [])
    (hl : (s.core c).sb.length < 4) :
    s.storeOp c seg off n v = .fin (s.goOn c (fun k => { k with sb := k.sb ++ [s.storeEntry c seg off n v] })) := by
  have hbuf : s.storeBuf c (s.storeEntry c seg off n v) =
      some (s.setCore c { s.core c with sb := (s.core c).sb ++ [s.storeEntry c seg off n v] }) := State.storeBuf_room _ hl
  have hgo : (s.setCore c { s.core c with sb := (s.core c).sb ++ [s.storeEntry c seg off n v] }).fin c id =
      .fin (s.goOn c (fun k => { k with sb := k.sb ++ [s.storeEntry c seg off n v] })) := by
    simp only [State.fin_eq, State.goOn, State.core_setCore, id_eq]
    rw [State.setCore_setCore s c (Core.ne_default_of_sb (by simp)) (Core.ne_default_of_sb (by simp))]
  unfold State.storeEntry at hbuf hgo ⊢
  simp only [State.storeOp, State.dataCheck_eq, hc]
  cases hk : regionOf (((s.core c).dataSet.getD seg {}).base + off.toNat) with
  | cleat k => simp only [State.drained_nil (hr.resolve_left (fun h => h k hk)), Option.bind_some, hbuf, hgo]
  | _ => simp only [Option.bind_some, hbuf, hgo]

theorem getElem_leBytes (n v i : Nat) (h : i < (leBytes v n).length) : (leBytes v n)[i] = BitVec.ofNat 8 (v / 2 ^ (8 * i)) := by
  induction n generalizing v i with
  | zero => simp [leBytes] at h
  | succ n ih =>
    cases i with
    | zero => simp [leBytes]
    | succ i =>
      simp only [leBytes, List.getElem_cons_succ, ih]
      rw [Nat.div_div_eq_div_mul, show 8 * (i + 1) = 8 + 8 * i by omega, Nat.pow_add] <;> rfl

/-- Writing bytes changes memory alone. -/
theorem State.wrBytes_eq (s : State) (a : Nat) (bs : List Byte) : s.wrBytes a bs = { s with mem := (s.wrBytes a bs).mem } := by
  induction bs generalizing s a with
  | nil => rfl
  | cons b bs ih => rw [State.wrBytes, ih]; rfl

/-- In the probe cache behind the poison summary a write by the CC stores its bytes. -/
theorem State.pcacheWrite_eq (s : State) (a : Nat) (bs : List Byte) (h : 0x12004000 ≤ a) : s.pcacheWrite a bs = s.wrBytes a bs := by
  have key (bs : List Byte) (k : Nat) (s t : State) : ((List.range' k bs.length).zip bs).foldl (fun s p =>
      if decide (0x12004000 ≤ a + p.1) || (decide (0x12003F00 ≤ a + p.1 ∧ a + p.1 < 0x12003F40) && !t.flag kSummaryValid) then
        s.wr (a + p.1) p.2 else s) s = s.wrBytes (a + k) bs := by
    induction bs generalizing k s with
    | nil => rfl
    | cons b bs ih =>
      simp only [List.length_cons, List.range'_succ, List.zip_cons_cons, List.foldl_cons, ih, State.wrBytes]
      rw [if_pos (by simp; omega)] <;> rfl
  simp only [State.pcacheWrite, List.range_eq_range']
  exact key bs 0 s s

/-- The oldest entry of a released core's buffer drains as its target takes it. -/
theorem exec_storeDrain {s u : State} {core : Fin 5} {e : SbEnt} {rest : List SbEnt} (hu : s.isUp (6 + core) = true)
    (hs : (s.core core).sb = e :: rest) (hd : s.drainEntry core e = some u) :
    exec (.storeDrain core) s = .next (u.setCore core { u.core core with sb := rest }) := by
  have : s.drainOne core = some (u.setCore core { u.core core with sb := rest }) := by
    simp only [State.drainOne, hs, hd, Option.map_some]
  exact congrArg Host.Outcome.next ((if_pos hu).trans (by rw [this, Option.getD_some]))

/-- Settles O25: each store's entry over the lemma on a store, then the drain at each kind of target. That a store smaller than a
word is drained into a register by its byte lanes rests on log entry 12. -/
theorem storesEnterTheBufferAndDrain : Obligations.StoresEnterTheBufferAndDrain := by
  unfold Obligations.StoresEnterTheBufferAndDrain
  refine ⟨fun core x s s1 h => ?_, fun core s e rest hu hs hb => ⟨fun h0 hr ha => ?_, fun hr hz => ?_⟩, fun core s hu hs => ?_⟩
  · intro c off sg chk v w put hreg hlen
    have hput {n d data : Nat} (hc : chk n = none) (hd : d % 2 ^ (8 * n) = data) :
        s1.storeOp core.val (wSegM x.toNat) (s1.offM core.val x.toNat) n d = .fin (s1.goOn c (fun k => { k with sb := k.sb ++
          [{ addr := sg.base + off.toNat, size := n, data := data, segNo := wSegM x.toNat, off := off.toNat, typ := sg.typ,
             cache := sg.cache, tmode := k.tmode, ctx := s1.ctxOf c }] })) :=
      (State.storeOp_put hc hreg hlen).trans (by subst hd; rfl)
    have hv : v % 2 ^ 32 = v := Nat.mod_eq_of_lt (s1.gr c (wD x.toNat)).isLt
    have hw : (v + w * 2 ^ 32) % 2 ^ 64 = v + w * 2 ^ 32 := Nat.mod_eq_of_lt (by
      have := (s1.gr c (wD x.toNat)).isLt
      have := (s1.gr c (wD x.toNat + 1)).isLt
      omega)
    refine ⟨fun hc => ?_, fun hc => ?_, fun hc => ?_, fun hd hc => ?_,
      fun hd => show execStd core x s = _ from State.eki_reserved h (by simpa using hd)⟩
    · exact show execStw core x s = _ from State.eki_fin h (hput hc hv)
    · exact show execSth core x s = _ from State.eki_fin h (hput hc rfl)
    · exact show execStb core x s = _ from State.eki_fin h (hput hc rfl)
    · exact show execStd core x s = _ from State.eki_guarded h (by simpa using hd) (hput hc hw)
  · have hd : s.drainEntry core e = some (s.wrBytes e.addr (leBytes e.data e.size)) := by
      simp only [State.drainEntry, State.drainEnt, hb, hr, h0, Bool.false_eq_true, if_false, if_true,
        State.pcacheWrite_eq _ _ _ ha]
    refine ⟨_, exec_storeDrain hu hs hd, ?_, ?_, ?_, fun i hi => ?_, fun a ha => ?_⟩
    · rw [State.core_setCore]
    · rw [State.setCore_regs, State.wrBytes_eq]
    · rw [State.core_setCore, State.wrBytes_eq] <;> rfl
    · exact (State.rd_wrBytes_inside s e.addr i _ (by rwa [length_leBytes])).trans (getElem_leBytes _ _ _ _)
    · exact State.rd_wrBytes_outside s e.addr a _ (by rwa [length_leBytes])
  · have hd : s.drainEntry core e = some (s.busWriteMask core (e.addr / 4 * 4) (e.data * 2 ^ (8 * (e.addr % 4)))
        ((2 ^ (8 * e.size) - 1) * 2 ^ (8 * (e.addr % 4)))) := by
      simp only [State.drainEntry, hb, hr, State.storeReg, if_neg (show e.size ≠ 8 by omega), Bool.false_eq_true, if_false]
    exact exec_storeDrain hu hs hd
  · have : s.drainOne core = none := by simp only [State.drainOne, hs]
    exact congrArg Host.Outcome.next ((if_pos hu).trans (by rw [this, Option.getD_none]))

end Sys2Proof.Machine
end

section
/-! PROOFS. Register writes: their checks, how fields take effect, the crossing into XT1, and the report rings. -/
namespace Sys2Proof.Machine

/-! ### A write that reaches its block (R17, R25, R28, R34) -/

theorem aliasAddr_of_not_self {core a : Nat} (h : ¬(0x4000E800 ≤ a ∧ a < 0x4000E840)) : aliasAddr core a = a := if_neg h

theorem crossesXt1_iff (b : Nat) : crossesXt1 b = true ↔ b = 0x00 ∨ b = 0x01 ∨ b = 0x11 ∨ b = 0x03 := by
  simp [crossesXt1, or_assoc]

/-- Settles O8: the branches of a bus write outside the common area. That a register whose own domain is off holds nothing rests
on log entry 19. -/
theorem registerWriteChecksReportsAndTakesEffect : Obligations.RegisterWriteChecksReportsAndTakesEffect := by
  unfold Obligations.RegisterWriteChecksReportsAndTakesEffect
  refine ⟨fun addr value s b hb hon h5 hself hcom hring => ?_, fun addr value s b hb hself hoff => ?_, crossesXt1_iff⟩
  · intro c s1
    have hbus : exec (.registerWrite addr value) s = .next (if crossesXt1 b then
        (if c.ws.isEmpty then s1 else { s1 with crossing := s1.crossing ++ [{ block := b, addr := addr.toNat, writes := c.ws }] })
        else if s.regOn addr.toNat then s1.takeWrite 0 b addr.toNat c.ws else s1) := by
      refine congrArg Host.Outcome.next ?_
      simp [State.busWrite, State.busWriteMask, aliasAddr_of_not_self hself, hb, hon, h5, s.commonWrite_none b _ _ hcom hring, c, s1]
    refine ⟨fun hx hr => ?_, fun hx hr => ?_, fun hx hw => ?_⟩
    · simpa [hx, hr] using hbus
    · simpa [hx, hr] using hbus
    · simpa [hx, hw] using hbus
  · refine congrArg Host.Outcome.next ?_
    have hoff : (s.addrOn addr.toNat && s.isUp 5) = false := Bool.and_eq_false_iff.2 hoff
    simp [State.busWrite, State.busWriteMask, aliasAddr_of_not_self hself, hb, hoff]

/-! ### Fields with two writes under way (R20, R28, R33) -/

/-- A field's effect changes no write that is crossing. -/
theorem State.crossingVal_applyField (s : State) (w : Key × Nat) (k : Key) : (s.applyField w).crossingVal k = s.crossingVal k := by
  obtain ⟨r, h, e⟩ := s.applyField_eq w
  rw [e]; rfl

/-- A value that is still crossing is the one last written, whatever else takes effect. -/
theorem State.last_of_crossingVal {s : State} {k v : Nat} (h : s.crossingVal k = some v) : s.last k = v := by
  simp [State.last, h]

/-- The capacitance field of the harvester, a FRAME field of a block that crosses. -/
def kCapacitance : Key := fk 0x40001010 0

/-- A state in which a younger write of the capacitance, 2000, is still crossing. -/
def capacitanceCrossing : State :=
  { State.reset with crossing := [{ block := 1, addr := 0x40001010, writes := [(kCapacitance, 2000)] }] }

/-- Refutes O9: where a younger write of the field is still crossing, the value last written stays that one (R28), and is not
the value that has just entered the shadow. -/
theorem not_fieldsTakeEffectByLatchClassAndCrossing : ¬ Obligations.FieldsTakeEffectByLatchClassAndCrossing := by
  unfold Obligations.FieldsTakeEffectByLatchClassAndCrossing
  intro h
  have hf : fldOf kCapacitance = some ⟨0, 16, some 8, .rw, .frame, 1000, .rg 500 20000⟩ := by decide
  obtain ⟨_, hframe, _⟩ := h.1 capacitanceCrossing kCapacitance 3000 _ hf
  obtain ⟨_, _, hlast⟩ := hframe rfl rfl
  have hcross : (capacitanceCrossing.applyField (kCapacitance, 3000)).crossingVal kCapacitance = some 2000 :=
    (State.crossingVal_applyField _ _ _).trans (by decide)
  rw [State.last_of_crossingVal hcross] at hlast
  exact absurd hlast (by decide)

/-! ### Report rings (R31) -/

/-- No block's CFG_RPT_CTRL lies in DMA_SELF. -/
theorem aliasAddr_clear (block : BitVec 6) : aliasAddr 0 (commonBase block.toNat + 8) = commonBase block.toNat + 8 := by
  revert block; decide

/-- No block's CFG_RPT_CTRL is the global ring's. -/
theorem State.commonWrite_clear (s : State) (b : Nat) {v : Nat} (hv : bit v 31 = true) :
    s.commonWrite b (commonBase b + 8) v = some (s.setRing b {}) := by
  simp [State.commonWrite, hv]

theorem State.commonWrite_clearAll (s : State) {v : Nat} (hv : bit v 31 = true) :
    s.commonWrite 0 0x40000DF8 v = some { s with gring := {} } := by
  have hc : commonBase 0 = 0x40000F80 := by decide
  simp [State.commonWrite, hv, hc]

theorem State.flushXt1_of_not_xsync {s : State} {b : Nat} (h : s.xsync b = false) : s.flushXt1 b = s :=
  s.foldl_crossOne_of_not_xsync _ h

/-- A command's write that the common area takes, and that does not cross, is that write's effect. -/
theorem State.regCommand_common {s t : State} {a b v : Nat} (hal : aliasAddr 0 a = a) (hb : blockOf a = some b)
    (hon : s.addrOn a = true) (h5 : s.isUp 5 = true) (hc : s.commonWrite b a (v &&& 0xFFFFFFFF) = some t)
    (hx : t.xsync b = false) : s.regCommand a v = t := by
  have hbus : s.busWrite 0 a v = t := by simp [State.busWrite, State.busWriteMask, hal, hb, hon, h5, hc]
  simp [State.regCommand, hbus, hb, State.flushXt1_of_not_xsync hx]

/-- Settles O11: what one push does to a ring, and the two clearing writes. -/
theorem reportsEnterBothRingsAndClrEmptiesOne : Obligations.ReportsEnterBothRingsAndClrEmptiesOne := by
  unfold Obligations.ReportsEnterBothRingsAndClrEmptiesOne
  refine ⟨⟨fun s b e => ⟨State.ring_setRing _ _ _, rfl, fun c hc => Tab.get_set_other _ _ _ _ _ (Ne.symm hc), fun _ => rfl⟩,
    fun n w e r hn => ⟨Tab.get_set_same _ _ _ _, rfl, rfl, rfl⟩⟩, fun block s => ⟨fun hb hon h5 hx => ?_, fun ha h5 hx => ?_⟩⟩
  · exact congrArg Host.Outcome.next
      (State.regCommand_common (aliasAddr_clear block) hb hon h5 (s.commonWrite_clear _ (by decide)) hx)
  · have hb : blockOf 0x40000DF8 = some 0 := by decide
    have hon : s.addrOn 0x40000DF8 = true := by simp [State.addrOn, hb, State.blockOn, blockDoms, ha]
    exact congrArg Host.Outcome.next (State.regCommand_common (by decide) hb hon h5 (s.commonWrite_clearAll (by decide)) hx)

end Sys2Proof.Machine
end

section
/-! PROOFS. Reef levels, domains, halyard events, samples, the store thresholds and the supplies. -/
namespace Sys2Proof.Machine

/-! ### Reading registers after writes, by key -/

theorem State.reg_setFlag_iff (s : State) (k j : Nat) (b : Bool) : (s.setFlag k b).reg j = if k = j then ofBool b else s.reg j :=
  s.reg_setReg_iff k j _

theorem State.flag_setFlag_iff (s : State) (k j : Nat) (b : Bool) : (s.setFlag k b).flag j = if k = j then b else s.flag j := by
  split
  · next h => exact h ▸ s.flag_setFlag k b
  · next h => exact s.flag_setFlag_other k j b h

theorem State.flag_setReg_other (s : State) {k j : Nat} (v : Nat) (h : k ≠ j) : (s.setReg k v).flag j = s.flag j := by
  simp [State.flag, State.reg_setReg_other s k j v h]

/-! ### Requests and level commands (R61–R65, R68, R69) -/

/-- Settles O15: the branches of a request, then those of each level command. It rests on log entries 84 (a core that is not quiet
leaves Reef 1) and 137 (REFUSE 1 where both codes apply). -/
theorem reefRequestsAndLevelCommands : Obligations.ReefRequestsAndLevelCommands := by
  unfold Obligations.ReefRequestsAndLevelCommands
  refine ⟨fun level s hl => ?_, fun s ha => ?_⟩
  · have hreq : s.reefReq level = if s.reefRefusal = 0 then
        { s.setReg kRefuse 0 with pmu := { s.pmu with
          req := some (if level == 2 && decide (s.allow ≤ 2) then 3 else level), reqLow := level == 2 && decide (s.allow ≤ 2) } }
        else (s.setReg kRefuse s.reefRefusal).setReg kReefReq 0 := by
      rw [State.reefReq, if_neg (by omega), if_neg (by omega)]
      dsimp only
      split
      · next h => rw [h]; rfl
      · rfl
    refine ⟨fun hb => ?_, fun hb hp hs => ?_, fun hb hp h0 hw hs hn => ?_⟩
    · have hr : s.reefRefusal = 1 := by simp [State.reefRefusal, hb]
      rw [hreq, hr, if_neg (by decide)]
      exact ⟨by rw [State.reg_setReg_other _ _ _ _ (by decide), State.reg_setReg], rfl, State.reg_setReg _ _ _⟩
    · have hr : s.reefRefusal = 2 := by simp [State.reefRefusal, hb, hp, or_assoc, hs]
      rw [hreq, hr, if_neg (by decide)]
      exact ⟨by rw [State.reg_setReg_other _ _ _ _ (by decide), State.reg_setReg], rfl⟩
    · have hr : s.reefRefusal = 0 := by simp [State.reefRefusal, hb, hp, h0, hw, hs, hn]
      rw [hreq, if_pos hr]
      refine ⟨show (s.setReg kRefuse 0).reg kRefuse = 0 from State.reg_setReg _ _ _, ?_⟩
      by_cases hlow : level = 2 ∧ s.allow ≤ 2
      · simp [hlow]
      · have : (level == 2 && decide (s.allow ≤ 2)) = false := by simpa using hlow
        simp [hlow, this]
  · refine ⟨fun l hq h0 => ?_, fun l he h1 hf hw hm hs => ?_, fun l he h1 hf hw => ?_, fun hl h0 hr hok => ?_, fun hl h => ?_,
      fun hl => ?_, fun hl h0 hal hw => ?_, fun hal => ?_, fun h2 hd => ?_⟩
    · simp only [exec, execEntrySequenceStart, hq]
      simp [ha, h0]
    · have hdr : s.drainedAll = true := by simpa [State.drainedAll, hw, hm] using hs
      simp only [exec, execEntrySwitchOff, he]
      simp [h1, hf, hdr]
    · have hdr : s.drainedAll = false := by simp [State.drainedAll, hw]
      simp only [exec, execEntrySwitchOff, he]
      simp [h1, hf, hdr]
    · exact congrArg Host.Outcome.next (if_pos (by simpa [ha, hl, h0, hok] using hr))
    · have hdue : s.reef1Due = true := by
        simp only [State.reef1Due, Bool.or_eq_true, bne_iff_ne, List.any_eq_true, List.mem_range, Bool.and_eq_true, Bool.not_eq_true',
          or_assoc]
        exact h
      exact congrArg Host.Outcome.next ((if_pos hdue).trans (if_pos hl))
    · exact congrArg Host.Outcome.next (ite_eq_right_iff.2 (fun _ => if_neg hl))
    · exact congrArg Host.Outcome.next (if_pos (by simp [ha, hl, h0, hal, hw]))
    · exact congrArg Host.Outcome.next (if_neg (by simp; omega))
    · have hex : exec .wakeComplete s = .next s.wakeEnd := congrArg Host.Outcome.next (if_pos (by simp [ha, h2, hd]))
      refine ⟨_, hex, ?_, ?_, ?_, rfl⟩
      all_goals exact by simp [State.wakeEnd, State.reg, State.setReg, Tab.get_set, kPhase, kLevel, kReefReq, fk]

/-! ### Releases and halyard events (R58, R59, R67, R72) -/

theorem State.kekWrite_dom (s : State) (w v : Nat) : (s.kekWrite w v).dom = s.dom := rfl

/-- Steps that each leave a part of the state leave it together. -/
theorem foldl_leaves {α β : Type} (p : State → β) (f : State → α → State) (hf : ∀ s a, p (f s a) = p s) (l : List α) (s : State) :
    p (l.foldl f s) = p s := by
  induction l generalizing s with
  | nil => rfl
  | cons a l ih => rw [List.foldl_cons, ih, hf]

theorem State.kekRelease_dom (s : State) : s.kekRelease.dom = s.dom := by
  unfold State.kekRelease
  split
  · split
    · exact foldl_leaves State.dom _ (fun _ _ => State.kekWrite_dom _ _ _) _ s
    · rfl
  · rfl

theorem State.fabReleased_dom (s : State) : s.fabReleased.dom = s.dom := by
  have hdel (u : State) : u.deliverUndel.dom = u.dom := by
    unfold State.deliverUndel
    split
    · rw [State.raise_dom]
    · rfl
  exact (hdel _).trans (foldl_leaves State.dom _ (fun _ _ => State.raise_dom _ _) _ _)

/-- A domain switched on is up once it is released. -/
theorem State.domSt_releaseDom {s : State} {d : Nat} (h : s.domSt d = .rising) : (s.releaseDom d).domSt d = .up := by
  have hup : (s.setDom d .up).domSt d = .up := State.domSt_setDom _ _ _
  have hdom {u : State} (hu : u.dom = (s.setDom d .up).dom) : u.domSt d = .up := by rw [State.domSt, hu]; exact hup
  simp only [State.releaseDom, h]
  repeat' split
  · exact hup
  · exact hdom (State.fabReleased_dom _)
  · exact hup
  · exact hdom (State.kekRelease_dom _)
  · exact hup
  · exact hup

/-- What a halyard event changes of the level: one enabled in PMU_HAL_EN leaves Reef 1. -/
theorem State.halyard_cases {s : State} (ha : s.aon = true) (i : Nat) : ∃ u : State,
    u = (if bit (s.reg kHalEn) i then (s.setReg kHalStat (setBit (s.reg kHalStat) i true)).reef1Leave
      else s.setReg kHalStat (setBit (s.reg kHalStat) i true)) ∧ u.pmu = s.pmu ∧
    s.halyard i = if bit (s.reg kHalWake) i && bit (canWake s.wakeLevel) i && s.reg kPhase != 2
      then { u with pmu := { u.pmu with wakeEv := setBit u.pmu.wakeEv i true } } else u := by
  refine ⟨_, rfl, ?_, ?_⟩
  · split
    · unfold State.reef1Leave
      split <;> rfl
    · rfl
  · simp only [State.halyard, ha, Bool.not_true, Bool.false_eq_true, if_false]

/-- Settles O16: the branches of a release, and the parts of a halyard event. The receivers of the consoles at the release of
domain 69 are R274's. -/
theorem domainReleaseAndHalyardEvents : Obligations.DomainReleaseAndHalyardEvents := by
  unfold Obligations.DomainReleaseAndHalyardEvents
  refine ⟨fun d s ha => ?_, fun s i ha => ?_⟩
  · have hex : exec (.domainRelease d) s = .next (s.releaseDom d) := congrArg Host.Outcome.next (if_pos ha)
    have hwake (h2 : s.reg kPhase = 2) : exec (.wakeDomainRelease d) s = .next (s.releaseDom d) :=
      congrArg Host.Outcome.next (if_pos (by simp [ha, h2]))
    have hout {t : State} (ht : s.releaseDom d = t) : exec (.domainRelease d) s = .next t := hex.trans (by rw [ht])
    refine ⟨fun hr h6 h10 => hout ?_, fun hr hd => hout ?_, fun hr hd => hout ?_, fun hr hd => hout ?_, fun hr hd => hout ?_,
      fun hr hd => hout ?_, fun hr hd => hout ?_, fun hr => hout ?_, fun h2 => (hwake h2).trans hex.symm,
      fun h2 => ⟨_, hwake h2, State.domSt_releaseDom⟩⟩
    · simp only [State.releaseDom, hr]
      rw [if_neg (by omega), if_neg (by omega), if_pos ⟨h6, h10⟩]
    · simp only [State.releaseDom, hr]
      rw [if_neg (by omega), if_neg (by omega), if_neg (by omega), if_neg (by omega), if_neg (by omega)]
    · simp only [State.releaseDom, hr]
      simp [hd]
    · simp only [State.releaseDom, hr]
      simp [hd]
    · simp only [State.releaseDom, hr]
      simp [hd]
    · simp only [State.releaseDom, hr]
      simp [hd]
    · simp only [State.releaseDom, hr]
      simp [hd]
    · obtain hr | hr | hr := hr <;> simp only [State.releaseDom, hr]
  · obtain ⟨u, hu, hpmu, hh⟩ := State.halyard_cases ha i
    have hreg (k : Nat) : (s.halyard i).reg k = u.reg k := by
      rw [hh]
      split <;> rfl
    have hstat : u.reg kHalStat = setBit (s.reg kHalStat) i true := by
      rw [hu]
      split
      · rw [State.reg_reef1Leave _ _ (by decide), State.reg_setReg]
      · rw [State.reg_setReg]
    have hlevel : u.reg kLevel = if bit (s.reg kHalEn) i = true ∧ s.reg kLevel = 1 then 0 else s.reg kLevel := by
      have hset : (s.setReg kHalStat (setBit (s.reg kHalStat) i true)).reg kLevel = s.reg kLevel :=
        State.reg_setReg_other _ _ _ _ (by decide)
      rw [hu]
      by_cases he : bit (s.reg kHalEn) i = true
      · simp only [he, if_true, true_and, State.reef1Leave, hset]
        split
        · rw [State.reg_setReg]
        · exact hset
      · simp [he, hset]
    refine ⟨(hreg _).trans hstat, fun k h1 h2 => State.reg_halyard s i k h1 h2, (hreg _).trans hlevel, fun hw hc h2 => ?_, fun h => ?_⟩
    · rw [hh, if_pos (by simp [hw, hc, h2]), hpmu]
    · rw [hh, if_neg (by rcases h with h | h | h <;> simp [h]), hpmu]

/-! ### Samples, FULL and the store thresholds (R38, R42–R50) -/

theorem State.setAct_harv (s : State) : s.setAct.harv = s.harv := rfl
theorem State.setAct_mem (s : State) : s.setAct.mem = s.mem := rfl

theorem State.flag_setAct_hva (s : State) : s.setAct.flag (kHarvStat 5) = (s.harv.hvaOn && !s.flag (kHarvStat 2)) :=
  (State.flag_setFlag_other _ _ _ _ (by decide)).trans (State.flag_setFlag _ _ _)

theorem State.flag_setAct_hvb (s : State) : s.setAct.flag (kHarvStat 6) = (s.harv.hvbOn && !s.flag (kHarvStat 2)) :=
  State.flag_setFlag _ _ _

theorem State.reg_setAct_other (s : State) {k : Nat} (h5 : kHarvStat 5 ≠ k) (h6 : kHarvStat 6 ≠ k) : s.setAct.reg k = s.reg k :=
  (State.reg_setFlag_other _ _ _ _ h6).trans (State.reg_setFlag_other _ _ _ _ h5)

theorem State.flag_setAct_other (s : State) {k : Nat} (h5 : kHarvStat 5 ≠ k) (h6 : kHarvStat 6 ≠ k) : s.setAct.flag k = s.flag k := by
  simp [State.flag, s.reg_setAct_other h5 h6]

/-- The state in which a sample of an input has ended, with what it read and what the harvester does then. -/
def State.sampleRead (s : State) (input : Bool) (v : Nat) (h : Harv) : State :=
  { (s.setFlag (kHarvStat (7 + ofBool input)) false).setReg (kVoc input) v with harv := h }

theorem exec_mpptSampleEnd {s : State} {input : Bool} (ha : s.aon = true) (hs : s.harv.sampling = some input) (uv : Nat) :
    exec (.mpptSampleEnd input uv) s = .next (s.sampleRead input (vocOf input uv)
      (if input then { s.harv with sampling := none, hvbOn := decide (400 ≤ vocOf input uv ∧ vocOf input uv ≤ 4500) }
       else { s.harv with sampling := none, hvaOn := decide ((if s.harv.hvaOn then 1000 else 1800) ≤ vocOf input uv) })).setAct := by
  refine (if_neg (by simp [ha, hs])).trans ?_
  cases input <;> rfl

/-- Settles O13: the registers that each sample and each threshold sets. It rests on log entries 86, 133 and 135 (what the samples
and the fourth tick find), 88 (ON_XT1 at the cut) and 134 (the converters after FULL). -/
theorem samplesFullStoreLowAndTheCut : Obligations.SamplesFullStoreLowAndTheCut := by
  unfold Obligations.SamplesFullStoreLowAndTheCut
  refine ⟨fun s ha => ⟨fun uv hs => ⟨_, exec_mpptSampleEnd ha hs uv, ?_⟩, fun uv hs => ⟨_, exec_mpptSampleEnd ha hs uv, ?_⟩, ?_,
    fun hf => ?_⟩, fun s => ⟨fun ha hv hl => ?_, fun ha hl => ?_, fun n ha hl ht hn => ?_, fun ha hs => ?_, fun hc hs hw hm => ?_⟩⟩
  · intro v
    have hfull : (s.sampleRead false v { s.harv with sampling := none, hvaOn := decide ((if s.harv.hvaOn then 1000 else 1800) ≤ v) }).flag
        (kHarvStat 2) = s.flag (kHarvStat 2) :=
      (State.flag_setReg_other _ _ (by decide)).trans (State.flag_setFlag_other _ _ _ _ (by decide))
    refine ⟨(State.reg_setAct_other _ (by decide) (by decide)).trans (State.reg_setReg _ _ _), rfl,
      (State.flag_setAct_other _ (by decide) (by decide)).trans ((State.flag_setReg_other _ _ (by decide)).trans (State.flag_setFlag _ _ _)),
      ?_, rfl, (State.flag_setAct_hva _).trans ?_, rfl⟩
    · cases hon : s.harv.hvaOn <;> simp [State.setAct_harv, State.sampleRead, hon, vocOf, v]
    · exact congrArg _ (congrArg _ hfull)
  · intro v
    have hfull : (s.sampleRead true v { s.harv with sampling := none, hvbOn := decide (400 ≤ v ∧ v ≤ 4500) }).flag
        (kHarvStat 2) = s.flag (kHarvStat 2) :=
      (State.flag_setReg_other _ _ (by decide)).trans (State.flag_setFlag_other _ _ _ _ (by decide))
    refine ⟨(State.reg_setAct_other _ (by decide) (by decide)).trans (State.reg_setReg _ _ _), rfl,
      (State.flag_setAct_other _ (by decide) (by decide)).trans ((State.flag_setReg_other _ _ (by decide)).trans (State.flag_setFlag _ _ _)),
      rfl, rfl, (State.flag_setAct_hvb _).trans ?_, rfl⟩
    exact congrArg _ (congrArg _ hfull)
  · have hfull : (((({ s with harv := { s.harv with sampling := none } } : State).setFlag (kHarvStat 2) true).setFlag
        (kHarvStat 7) false).setFlag (kHarvStat 8) false).flag (kHarvStat 2) = true :=
      (State.flag_setFlag_other _ _ _ _ (by decide)).trans
        ((State.flag_setFlag_other _ _ _ _ (by decide)).trans (State.flag_setFlag _ _ _))
    refine ⟨_, congrArg Host.Outcome.next (if_pos ha), (State.flag_setAct_other _ (by decide) (by decide)).trans hfull,
      (State.flag_setAct_hva _).trans ?_, (State.flag_setAct_hvb _).trans ?_, rfl, rfl⟩
    all_goals rw [hfull, Bool.not_true, Bool.and_false]
  · have hclear : (({ s with harv := { s.harv with sinceA := none, sinceB := none } } : State).setFlag (kHarvStat 2) false).flag
        (kHarvStat 2) = false := State.flag_setFlag _ _ _
    refine ⟨_, congrArg Host.Outcome.next (if_pos (by simp [ha, hf])), (State.flag_setAct_other _ (by decide) (by decide)).trans hclear,
      (State.flag_setAct_hva _).trans ?_, (State.flag_setAct_hvb _).trans ?_, rfl, rfl⟩
    all_goals rw [hclear, Bool.not_false, Bool.and_true] <;> rfl
  · exact congrArg Host.Outcome.next (if_pos (by simp [ha, hv, hl]))
  · exact congrArg Host.Outcome.next (if_pos (by simp [ha, hl]))
  · exact congrArg Host.Outcome.next (if_pos (by simp [ha, hl, ht, hn]))
  · exact congrArg Host.Outcome.next (if_pos (by simp [ha, hs]))
  · exact congrArg Host.Outcome.next (if_pos (by simpa [hc, hs] using And.intro hw hm))

/-! ### Power loss, the keep cell and the supplies (R39–R41, R50, R66) -/

theorem State.reg_resetThresholds_other (s : State) {k : Nat} (hc : k ≠ kCut) (hr : k ≠ kRearm) (hf : k ≠ kFull) :
    s.resetThresholds.reg k = s.reg k :=
  (State.reg_setReg_other _ _ _ _ hf.symm).trans
    ((State.reg_setReg_other _ _ _ _ hr.symm).trans (State.reg_setReg_other _ _ _ _ hc.symm))

theorem State.reg_resetThresholds (s : State) :
    s.resetThresholds.reg kCut = 220 ∧ s.resetThresholds.reg kRearm = 280 ∧ s.resetThresholds.reg kFull = 500 := by
  simp [State.resetThresholds, State.reg_setReg_iff, kCut, kRearm, kFull, fk]

theorem State.flag_lowEnds_other (s : State) {k : Nat} (h : kHarvStat 3 ≠ k) : s.lowEnds.flag k = s.flag k :=
  State.flag_setFlag_other ({ s with harv := { s.harv with lowTicks := none } }) _ _ _ h

theorem State.storeLow_lowEnds (s : State) : s.lowEnds.storeLow = false := State.flag_setFlag _ _ _

theorem State.rd_powerLost (s : State) (a : Nat) : s.powerLost.rd a =
    if decide (0x20000000 ≤ a ∧ a < 0x24000000) || decide (0x01000000 ≤ a ∧ a < 0x01800000) then s.rd a else memDefault a :=
  Tab.get_keep memDefault
    (fun a => decide (0x20000000 ≤ a ∧ a < 0x24000000) || decide (0x01000000 ≤ a ∧ a < 0x01800000)) s.mem a

theorem State.reg_powerLost (s : State) (k : Nat) : s.powerLost.reg k =
    if decide (0x40003000 ≤ keyAddr k ∧ keyAddr k < 0x40004000) || keyAddr k == 0x40001014 then s.reg k else regReset k :=
  Tab.get_keep regReset (fun k => decide (0x40003000 ≤ keyAddr k ∧ keyAddr k < 0x40004000) || keyAddr k == 0x40001014) s.regs k

/-- Settles O14: what is kept when the load switch opens, then each change of the keep cell and the supplies. It rests on log
entries 4 (other bytes read as unlisted ones), 87 (VSTBY cancels a decided cut) and 88 (the forced FIRC). -/
theorem powerLossKeepCellAndStandby : Obligations.PowerLossKeepCellAndStandby := by
  unfold Obligations.PowerLossKeepCellAndStandby
  refine ⟨fun s => ⟨rfl, ?_, fun d => rfl, fun a h1 h2 => ?_, fun a h1 h2 => ?_, fun a h1 h2 => ?_, fun k h1 h2 => ?_, fun k h1 => ?_,
    fun k h1 h2 => ?_, rfl, rfl⟩, fun s => ⟨fun hk => ?_, fun hk => ?_, fun hs hk => ?_, fun hs => ?_, fun hs hp => ?_, fun hs hp => ?_,
    fun boot strap hp => ?_⟩⟩
  · simp only [State.aon, State.powerLost]
    cases s.harv.kept <;> rfl
  · exact (s.rd_powerLost a).trans (if_pos (by simp; omega))
  · exact (s.rd_powerLost a).trans (if_pos (by simp; omega))
  · exact (s.rd_powerLost a).trans (if_neg (by simp; omega))
  · exact (s.reg_powerLost k).trans (if_pos (by simp [h1, h2]))
  · exact (s.reg_powerLost k).trans (if_pos (by simp [h1]))
  · exact (s.reg_powerLost k).trans (if_neg (by simp only [h1, decide_false, Bool.false_or, beq_iff_eq, h2, not_false_iff]))
  · obtain ⟨hc, hr, hf⟩ := s.reg_resetThresholds
    exact ⟨_, congrArg Host.Outcome.next (if_neg (by simp [hk])), hc, hr, hf, rfl, rfl, fun he => if_pos (beq_iff_eq.2 he),
      fun he => if_neg (fun hb => he (beq_iff_eq.1 hb)), fun k hc hr hf => s.reg_resetThresholds_other hc hr hf, rfl⟩
  · refine ⟨_, congrArg Host.Outcome.next (if_neg (by simp [hk])), rfl, fun he => if_pos (beq_iff_eq.2 he),
      fun he => if_neg (fun hb => he (beq_iff_eq.1 hb)), rfl, fun k hc hr hf => ?_, rfl⟩
    exact (State.reg_setReg_other _ _ _ _ hf.symm).trans
      ((State.reg_setReg_other _ _ _ _ hr.symm).trans (State.reg_setReg_other _ _ _ _ hc.symm))
  · exact congrArg Host.Outcome.next (if_pos (by simpa [hk] using hs))
  · obtain hs | hs := hs <;> simp only [exec, execStbyUp, hs]
  · have ha : ({ s with harv := { s.harv with st := .standby, cutDecided := false } } : State).aon = true := by
      simp [State.aon, hp]
    have hex : exec .stbyUp s = .next (((({ s with harv := { s.harv with st := .standby, cutDecided := false } } : State).setFlag
        (kHarvStat 0) true).lowEnds).halyard 9) := by
      simp only [exec, execStbyUp, hs]
      rw [if_pos ha]
    obtain ⟨r, p, hh⟩ := (((({ s with harv := { s.harv with st := .standby, cutDecided := false } } : State).setFlag
        (kHarvStat 0) true).lowEnds)).halyard_eq 9
    refine ⟨_, hex, by rw [hh]; rfl, by rw [hh]; rfl, ?_, ?_⟩
    · exact (State.flag_halyard _ _ _ (by decide) (by decide)).trans
        ((State.flag_lowEnds_other _ (by decide)).trans (State.flag_setFlag _ _ _))
    · exact (State.flag_halyard _ _ _ (by decide) (by decide)).trans (State.storeLow_lowEnds _)
  · refine ⟨_, _, ?_, rfl, rfl⟩
    have ha : ({ s with harv := { s.harv with st := .harvest } } : State).aon = true := by simp [State.aon, hp]
    exact (if_neg (by simp [hs])).trans (if_neg (by simp [ha]))
  · exact ⟨_, if_neg (by simp [hp]), rfl, rfl, rfl, rfl⟩

end Sys2Proof.Machine
end

section
/-! PROOFS. Clock sources, frequency measurement, the frame tick, the shadows at the latch edge, and beacons. -/
namespace Sys2Proof.Machine

/-! ### Clock sources (R79–R83, R87, R89) -/

theorem State.reg_clkEvent_other (s : State) (b : Nat) {k : Nat} (h : kClkEvent b ≠ k) : (s.clkEvent b).reg k = s.reg k :=
  (State.reg_raise _ _ _).trans (State.reg_setFlag_other _ _ _ _ h)

theorem State.flag_clkEvent (s : State) (b : Nat) : (s.clkEvent b).flag (kClkEvent b) = true :=
  (State.flag_raise _ _ _).trans (State.flag_setFlag _ _ _)

theorem State.flag_clkEvent_other (s : State) (b : Nat) {k : Nat} (h : kClkEvent b ≠ k) : (s.clkEvent b).flag k = s.flag k := by
  simp [State.flag, s.reg_clkEvent_other b h]

/-- A lock that is lost: its status bit clears, its event shows, and a source PLL0 gives way to FIRC. -/
theorem State.pllLoss_locked {s : State} {p : Nat} (hp : p < 2) (h : s.flag (kClkStat (2 + p)) = true) :
    (s.pllLoss p).flag (kClkStat (2 + p)) = false ∧ (s.pllLoss p).flag (kClkEvent (2 + p)) = true ∧
      (s.pllLoss p).reg kSrcEff = if p = 0 ∧ s.reg kSrcEff = 2 then 0 else s.reg kSrcEff := by
  have hne : kClkStat (2 + p) ≠ kSrcEff ∧ kClkEvent (2 + p) ≠ kSrcEff ∧ kClkEvent (2 + p) ≠ kClkStat (2 + p) := by
    obtain rfl | rfl : p = 0 ∨ p = 1 := by omega
    all_goals decide
  obtain ⟨hse, hee, hes⟩ := hne
  have hsrc : (((s.setFlag (kClkStat (2 + p)) false).clkEvent (2 + p))).reg kSrcEff = s.reg kSrcEff :=
    (State.reg_clkEvent_other _ _ hee).trans (State.reg_setFlag_other _ _ _ _ hse)
  have hstat : ((s.setFlag (kClkStat (2 + p)) false).clkEvent (2 + p)).flag (kClkStat (2 + p)) = false :=
    (State.flag_clkEvent_other _ _ hes).trans (State.flag_setFlag _ _ _)
  simp only [State.pllLoss, h, hsrc, Bool.not_true, Bool.false_eq_true, if_false, Bool.and_eq_true, decide_eq_true_eq, beq_iff_eq]
  split
  · exact ⟨(State.flag_setReg_other _ _ hse.symm).trans hstat, (State.flag_setReg_other _ _ hee.symm).trans (State.flag_clkEvent _ _),
      State.reg_setReg _ _ _⟩
  · exact ⟨hstat, State.flag_clkEvent _ _, hsrc⟩

theorem ofBool_lt_two (b : Bool) : ofBool b < 2 := by cases b <;> decide

/-! ### Frequency measurement (R90) -/

/-- A field written at another position leaves what is written at this one. -/
theorem wroteAt_checkInto_other (s : State) (b o v : Nat) (c : Checked) {f : Fld} {lo : Nat}
    (h : keyLo (fk (blockBase b + o) f.lo) ≠ lo) : wroteAt (s.checkInto b o c f v).ws lo = wroteAt c.ws lo := by
  rw [State.checkInto_ws, wroteAt, wroteAt]
  cases (s.checkField c.ws b o f v).1 <;> simp [List.find?_append, h]

/-- A write of FMEAS_CTRL with START set is one whose START field is written with 1. -/
theorem State.wrote1_start (s : State) {v : Nat} (hv : bits (v &&& 0xFFFFFFFF) 31 1 = 1) :
    wrote1 (s.checkWord 2 0x20 v 0xFFFFFFFF).ws 31 = true := by
  have hfl : (regDef 2 0x20).getD [] = [fL 0 4 11 1 (.rg 0 15), fL 4 4 12 4 (.rg 0 15), fW 31 1 13] := rfl
  have hlast {c : Checked} (x : Nat) (hc : wroteAt c.ws 31 = none) :
      wroteAt (s.checkInto 2 0x20 c (fW 31 1 13) x).ws 31 = some x := by
    rw [State.checkInto_fW]
    have hk : keyLo (fk (blockBase 2 + 0x20) 31) = 31 := by decide
    simp only [wroteAt, Option.map_eq_none_iff] at hc ⊢
    simp [List.find?_append, hc, hk]
  rw [wrote1, beq_iff_eq]
  have hmask : ∀ f ∈ [fL 0 4 11 1 (.rg 0 15), fL 4 4 12 4 (.rg 0 15), fW 31 1 13], ¬(f.mask &&& 0xFFFFFFFF = 0) := by decide
  have hval : bits ((v &&& 0xFFFFFFFF) + (0 - (0 &&& 0xFFFFFFFF))) 31 1 = 1 := by simpa using hv
  simp only [State.checkWord, hfl, List.foldl_cons, List.foldl_nil, hmask _ (.head _), hmask _ (.tail _ (.head _)),
    hmask _ (.tail _ (.tail _ (.head _))), decide_false, Bool.false_and, Bool.false_eq_true, if_false]
  refine (hlast _ ?_).trans (congrArg some hval)
  rw [wroteAt_checkInto_other _ _ _ _ _ (by decide), wroteAt_checkInto_other _ _ _ _ _ (by decide)]
  rfl

theorem exec_start {s : State} (ha : s.aon = true) (h5 : s.isUp 5 = true) (value : Word) :
    ∃ u : State, exec (.start value) s = .next u.fmStart := by
  have hb : blockOf 0x40002020 = some 2 := by decide
  have hon : s.blockOn 2 = true := by simp [State.blockOn, blockDoms, ha]
  have haddr : s.addrOn 0x40002020 = true := by simp [State.addrOn, hb, hon]
  have hreg : s.regOn 0x40002020 = true := by simp [State.regOn, hb, hon]
  have hset : bits (setBit value.toNat 31 true &&& 0xFFFFFFFF) 31 1 = 1 := by
    have hv := value.isLt
    rw [show (0xFFFFFFFF : Nat) = 2 ^ 32 - 1 from rfl, Nat.and_two_pow_sub_one_eq_mod]
    simp only [bits, setBit, setBits, ofBool, if_true]
    omega
  have hoff : 0x40002020 - blockBase 2 = 0x20 := by decide
  have hcmd := s.regCommand_eq 0x40002020 (setBit value.toNat 31 true) 2 hb haddr hreg h5 (by decide) (by decide) (by decide) rfl
  rw [hoff] at hcmd
  have htake (u : State) {ws : List (Key × Nat)} (hw : wrote1 ws 31 = true) :
      u.takeWrite 0 2 0x40002020 ws = (ws.foldl State.applyField u).fmStart := by
    rw [State.takeWrite, hoff]
    exact if_pos (by simp [hw])
  exact ⟨_, congrArg Host.Outcome.next (hcmd.trans (htake _ (s.wrote1_start hset)))⟩

theorem State.fmStart_regs (s : State) : s.fmStart.flag (kFmStat 2) = true ∧ s.fmStart.flag (kFmStat 0) = false ∧
    s.fmStart.flag (kFmStat 1) = false ∧ s.fmStart.reg kFmRes = 0 := by
  refine ⟨State.flag_setFlag _ _ _, ?_, ?_, ?_⟩
  all_goals simp [State.fmStart, State.flag_setFlag_iff, State.reg_setFlag_iff, kFmStat, kFmRes, fk]

/-- Settles O19: each clock event's registers, and the two ends of a measurement. That START clears DONE and OVF rests on log
entry 92. -/
theorem clockSourcesAndFrequencyMeasurement : Obligations.ClockSourcesAndFrequencyMeasurement := by
  unfold Obligations.ClockSourcesAndFrequencyMeasurement
  refine ⟨fun s => ⟨fun ha => ?_, fun ha hj => ?_, fun h67 => ?_, fun h67 h1 h2 => ?_, fun h67 h1 => ?_, fun pll hu h1 => ?_,
    fun pll hl => ?_, fun pll hl => ?_, fun ha => ?_⟩, fun s => ⟨fun value h5 ha => ?_, fun n ha hb hr => ?_, fun n hr => ?_, ?_⟩⟩
  · exact congrArg Host.Outcome.next (if_pos ha)
  · exact congrArg Host.Outcome.next (if_pos (by simp [ha, hj]))
  · exact congrArg Host.Outcome.next (if_pos h67)
  · exact if_neg (by simp [h67, h1])
  · exact congrArg Host.Outcome.next (if_pos (by simp [h67, h1]))
  · exact congrArg Host.Outcome.next (if_pos (by simp [hu, h1]))
  · obtain ⟨h1, h2, h3⟩ := State.pllLoss_locked (ofBool_lt_two pll) hl
    refine ⟨_, rfl, h1, h2, h3.trans ?_⟩
    cases pll <;> simp [ofBool]
  · exact congrArg Host.Outcome.next (if_pos (by simp [hl]))
  · exact congrArg Host.Outcome.next (if_pos ha)
  · obtain ⟨u, hu⟩ := exec_start ha h5 value
    exact ⟨_, hu, u.fmStart_regs⟩
  · refine ⟨_, if_neg (by simp [ha, hb, hr]), ?_, ?_, State.flag_setFlag _ _ _, ?_, rfl⟩
    all_goals simp [State.flag_setFlag_iff, State.reg_setFlag_iff, kFmStat, kFmRes, fk]
  · exact if_pos (by simp [hr])
  · simp [State.clkRuns]

/-! ### The frame tick and its latch edge (R20, R91, R92) -/

/-- The head's part of a tick is its next base alone. -/
theorem State.headTick_eq (s : State) : ∃ sp, s.headTick = { s with spine := sp } := by
  unfold State.headTick
  dsimp only
  split
  · exact ⟨s.spine, rfl⟩
  · exact ⟨_, rfl⟩

theorem State.spineTick_eq (s : State) : ∃ r sp, s.spineTick = { s with regs := r, spine := sp } := by
  unfold State.spineTick
  dsimp only
  split
  · exact ⟨_, _, rfl⟩
  · exact ⟨_, _, rfl⟩

theorem State.sourceToXt1_eq (s : State) : ∃ r, s.sourceToXt1 = { s with regs := r } := by
  unfold State.sourceToXt1
  split
  · exact ⟨_, rfl⟩
  · exact ⟨s.regs, rfl⟩

theorem State.reg_sourceToXt1_other (s : State) {k : Nat} (hc : kClkStat 4 ≠ k) (hr : kRtcStat 1 ≠ k) :
    s.sourceToXt1.reg k = s.reg k := by
  unfold State.sourceToXt1
  split
  · exact (State.reg_setFlag_other _ _ _ _ hr).trans (State.reg_setFlag_other _ _ _ _ hc)
  · rfl

/-- The state in which FRAME_TICK has placed a tick, before the spine's part of it. -/
def State.tickPlaced (s : State) : State :=
  let s1 : State := (s.sourceToXt1.setReg kAge (min (s.reg kAge + 1) 15)).pinBoundary
  { s1 with
    harv := { s1.harv with lowTicks := s1.harv.lowTicks.map (· + 1) }
    clk := { s1.clk with
      move := 0, extended := false, tickDue := s.isUp 4, tickHigh := true
      missed := s1.clk.missed + ofBool (!s.isUp 4 || s1.clk.tickDue) + ofBool (!s.isUp 4 && s1.clk.tickDue) } }

theorem exec_frameTick {s : State} (h : s.tickLogic = true) :
    exec .frameTick s = .next (if s.isUp 4 then s.tickPlaced.headTick else s.tickPlaced.headTick.spineTick) :=
  if_neg (by simp [h])

theorem State.tickPlaced_clk (s : State) : s.tickPlaced.clk.tickDue = s.isUp 4 ∧
    s.tickPlaced.clk.missed = s.clk.missed + ofBool (!s.isUp 4 || s.clk.tickDue) + ofBool (!s.isUp 4 && s.clk.tickDue) := by
  obtain ⟨r, hr⟩ := s.sourceToXt1_eq
  simp [State.tickPlaced, State.pinBoundary, hr]

theorem State.tickPlaced_mem (s : State) : s.tickPlaced.mem = s.mem := by
  obtain ⟨r, hr⟩ := s.sourceToXt1_eq
  simp [State.tickPlaced, State.pinBoundary, hr]

theorem State.reg_tickPlaced (s : State) (k : Nat) :
    s.tickPlaced.reg k = (s.sourceToXt1.setReg kAge (min (s.reg kAge + 1) 15)).reg k := rfl

/-- What the latch edge makes of one pending value. -/
def State.latchOne (s : State) (e : Nat × Option Nat) : State :=
  (if (fldOf e.1).elim true (fun f => f.ty == .wo) then s else s.setReg e.1 (e.2.getD 0)).setShadow e.1 none

theorem State.shadowLatch_eq (s : State) :
    s.shadowLatch = (s.shadow.filter (fun e => !clkKeys.contains e.1)).foldl State.latchOne s := rfl

theorem State.reg_latchOne_other (s : State) {e : Nat × Option Nat} {k : Nat} (h : e.1 ≠ k) : (s.latchOne e).reg k = s.reg k := by
  unfold State.latchOne
  split
  · rfl
  · exact State.reg_setReg_other _ _ _ _ h

theorem State.pendingVal_latchOne (s : State) (e : Nat × Option Nat) (k : Nat) :
    (s.latchOne e).pendingVal k = if e.1 = k then none else s.pendingVal k := by
  have hs (u : State) (hu : u.shadow = s.shadow) : (u.setShadow e.1 none).pendingVal k = if e.1 = k then none else s.pendingVal k := by
    rw [State.pendingVal, State.setShadow, Tab.get_set, hu] <;> rfl
  unfold State.latchOne
  split
  · exact hs s rfl
  · exact hs _ rfl

theorem State.reg_latchAll_other (l : Tab (Option Nat)) {k : Nat} (h : ∀ e ∈ l, e.1 ≠ k) (s : State) :
    (l.foldl State.latchOne s).reg k = s.reg k := by
  induction l generalizing s with
  | nil => rfl
  | cons e l ih =>
    rw [List.foldl_cons, ih (fun x hx => h x (.tail _ hx)), State.reg_latchOne_other s (h e (.head _))]

theorem State.pendingVal_latchAll_other (l : Tab (Option Nat)) {k : Nat} (h : ∀ e ∈ l, e.1 ≠ k) (s : State) :
    (l.foldl State.latchOne s).pendingVal k = s.pendingVal k := by
  induction l generalizing s with
  | nil => rfl
  | cons e l ih =>
    rw [List.foldl_cons, ih (fun x hx => h x (.tail _ hx)), State.pendingVal_latchOne, if_neg (h e (.head _))]

/-- A pending value leaves its shadow at its turn and does not come back. -/
theorem State.pendingVal_latchAll_mem (l : Tab (Option Nat)) {k : Nat} (h : ∃ e ∈ l, e.1 = k) (s : State) :
    (l.foldl State.latchOne s).pendingVal k = none := by
  have hkeep (l : Tab (Option Nat)) (s : State) (hs : s.pendingVal k = none) : (l.foldl State.latchOne s).pendingVal k = none := by
    induction l generalizing s with
    | nil => exact hs
    | cons e l ih =>
      refine ih _ ?_
      rw [State.pendingVal_latchOne, hs, ite_self]
  induction l generalizing s with
  | nil => simp at h
  | cons e l ih =>
    by_cases he : e.1 = k
    · exact hkeep l _ (by rw [State.pendingVal_latchOne, if_pos he])
    · refine ih ?_ _
      obtain ⟨x, hx, hk⟩ := h
      cases hx with
      | head => exact absurd hk he
      | tail _ hx => exact ⟨x, hx, hk⟩

/-! A canonical table lists what it holds, each key once. -/

theorem Tab.mem_of_get {α : Type} {d : Nat → α} {t : Tab α} {k : Nat} (h : Tab.get d t k ≠ d k) : (k, Tab.get d t k) ∈ t := by
  induction t with
  | nil => exact absurd rfl h
  | cons e t ih =>
    obtain ⟨k', v'⟩ := e
    by_cases hk : k' = k
    · subst hk
      simp [Tab.get]
    · simp only [Tab.get, if_neg hk] at h ⊢
      exact .tail _ (ih h)

theorem Tab.keys_ge_of_wfFrom {α : Type} [DecidableEq α] {d : Nat → α} {t : Tab α} {lo : Nat} (w : Tab.wfFrom d lo t = true) :
    ∀ e ∈ t, lo ≤ e.1 := by
  induction t generalizing lo with
  | nil => simp
  | cons e t ih =>
    obtain ⟨k, v⟩ := e
    simp only [Tab.wfFrom, Bool.and_eq_true, decide_eq_true_eq] at w
    intro x hx
    cases hx with
    | head => exact w.1.1
    | tail _ hx => exact Nat.le_of_succ_le (Nat.le_trans (Nat.succ_le_succ w.1.1) (ih w.2 x hx))

/-- In a canonical table an entry is what its key reads, and not the default. -/
theorem Tab.get_of_mem {α : Type} [DecidableEq α] {d : Nat → α} {t : Tab α} {lo : Nat} (w : Tab.wfFrom d lo t = true) :
    ∀ e ∈ t, Tab.get d t e.1 = e.2 ∧ e.2 ≠ d e.1 := by
  induction t generalizing lo with
  | nil => simp
  | cons e t ih =>
    obtain ⟨k, v⟩ := e
    simp only [Tab.wfFrom, Bool.and_eq_true, decide_eq_true_eq, Bool.not_eq_true', decide_eq_false_iff_not] at w
    intro x hx
    cases hx with
    | head => exact ⟨by simp [Tab.get], w.1.2⟩
    | tail _ hx =>
      have hlt := Tab.keys_ge_of_wfFrom w.2 x hx
      rw [Tab.get, if_neg (by omega)]
      exact ih w.2 x hx

/-- In a canonical list of pending values each latched field takes its own. -/
theorem State.reg_latchAll_mem {l : Tab (Option Nat)} {lo k v : Nat} (w : Tab.wfFrom (fun _ => none) lo l = true)
    (h : (k, some v) ∈ l) (hf : (fldOf k).elim true (fun f => f.ty == .wo) = false) (s : State) :
    (l.foldl State.latchOne s).reg k = v := by
  induction l generalizing lo s with
  | nil => simp at h
  | cons e l ih =>
    obtain ⟨k', v'⟩ := e
    have w' := w
    simp only [Tab.wfFrom, Bool.and_eq_true, decide_eq_true_eq] at w'
    cases h with
    | head =>
      rw [List.foldl_cons, State.reg_latchAll_other l (fun x hx => by have := Tab.keys_ge_of_wfFrom w'.2 x hx; omega)]
      simp only [State.latchOne, hf, Bool.false_eq_true, if_false, Option.getD_some, State.reg_of_setShadow, State.reg_setReg]
    | tail _ h => exact ih w'.2 h _

/-- Settles O20: the branches of a tick and of its edge, then the pending values one by one. -/
theorem tickEdgeAndLatch : Obligations.TickEdgeAndLatch := by
  unfold Obligations.TickEdgeAndLatch
  refine ⟨fun s => ?_, fun s hw => ?_⟩
  · obtain ⟨hdue, hmissed⟩ := s.tickPlaced_clk
    obtain ⟨sp, hhead⟩ := s.tickPlaced.headTick_eq
    have hup (ht : s.tickLogic = true) (hu : s.isUp 4 = true) : exec .frameTick s = .next { s.tickPlaced with spine := sp } :=
      (exec_frameTick ht).trans (by rw [if_pos hu, hhead])
    refine ⟨fun ht hu hd => ?_, fun ht hu hd => ?_, fun ht hu hd => ?_, fun ht => ?_, fun ha hu hd => ?_, fun hd => ?_⟩
    · have hnum : s.tickPlaced.frameNum = s.frameNum := (s.reg_tickPlaced _).trans
        ((State.reg_setReg_other _ _ _ _ (by decide)).trans (s.reg_sourceToXt1_other (by decide) (by decide)))
      have hage : s.tickPlaced.reg kAge = min (s.reg kAge + 1) 15 := (s.reg_tickPlaced _).trans (State.reg_setReg _ _ _)
      refine ⟨_, hup ht hu, hdue.trans hu, hmissed.trans ?_, s.tickPlaced_mem, hnum, hage⟩
      simp [hu, hd, ofBool]
    · refine ⟨_, hup ht hu, hdue.trans hu, hmissed.trans ?_⟩
      simp [hu, hd, ofBool]
    · obtain ⟨r, sp2, hspine⟩ := ({ s.tickPlaced with spine := sp } : State).spineTick_eq
      have hdown : exec .frameTick s = .next { s.tickPlaced with regs := r, spine := sp2 } :=
        (exec_frameTick ht).trans (by rw [if_neg (by simp [hu]), hhead, hspine])
      refine ⟨_, hdown, hdue.trans hu, hmissed.trans ?_⟩
      simp [hu, hd, ofBool]
    · exact if_pos (by simp [ht])
    · exact congrArg Host.Outcome.next (if_pos (by simp [ha, hu, hd]))
    · exact congrArg Host.Outcome.next (if_neg (by simp [hd]))
  · have hdue : Tab.wfFrom (fun _ => (none : Option Nat)) 0 (s.shadow.filter (fun e => !clkKeys.contains e.1)) = true :=
      Tab.wfFrom_keep _ (fun k => !clkKeys.contains k) s.shadow 0 hw
    rw [State.shadowLatch_eq]
    refine ⟨fun k v hk hv hf => ?_, fun k hn => ?_, fun k hk => ?_⟩
    · have hmem : (k, some v) ∈ s.shadow.filter (fun e => !clkKeys.contains e.1) := by
        have := Tab.mem_of_get (d := fun _ => (none : Option Nat)) (t := s.shadow) (k := k) (by rw [show Tab.get _ s.shadow k = _ from hv]; simp)
        rw [show Tab.get _ s.shadow k = _ from hv] at this
        exact List.mem_filter.2 ⟨this, by simpa using hk⟩
      refine ⟨State.reg_latchAll_mem hdue hmem ?_ s, State.pendingVal_latchAll_mem _ ⟨_, hmem, rfl⟩ s⟩
      obtain ⟨f, hf, hty⟩ := hf
      simpa [hf] using hty
    · refine State.reg_latchAll_other _ (fun e he hek => ?_) s
      obtain ⟨hget, hne⟩ := Tab.get_of_mem hw e (List.mem_filter.1 he).1
      exact hne (hget.symm.trans (by rw [hek]; exact hn))
    · refine State.pendingVal_latchAll_other _ (fun e he hek => ?_) s
      have := (List.mem_filter.1 he).2
      rw [hek, hk] at this
      exact absurd this (by decide)

/-! ### Beacons (R95–R97, R243, R263) -/

/-- Taking a frame from the ports changes the spine's own registers alone. -/
theorem State.reg_pickFrame_other {w : Nat} (s : State) (r : Rx w) (ok : BitVec w → Bool) {k : Nat} (hc : fk 0x4000A070 16 ≠ k)
    (he : kSpineEvent 5 ≠ k) : (s.pickFrame r ok).2.reg k = s.reg k := by
  have hcrc (u : State) : u.crcFail.reg k = u.reg k := State.reg_setReg_other _ _ _ _ hc
  have hev (u : State) : (u.setFlag (kSpineEvent 5) true).reg k = u.reg k := State.reg_setFlag_other _ _ _ _ he
  have hite (p : Prop) [Decidable p] (u v : State) (hu : u.reg k = s.reg k) (hv : v.reg k = s.reg k) :
      (if p then u else v).reg k = s.reg k := by
    split
    · exact hu
    · exact hv
  have hs1 (p q : Prop) [Decidable p] [Decidable q] :
      (if q then (if p then s.sdSeen.crcFail else s.sdSeen).crcFail else if p then s.sdSeen.crcFail else s.sdSeen).reg k = s.reg k :=
    hite _ _ _ ((hcrc _).trans (hite _ _ _ (hcrc _) rfl)) (hite _ _ _ (hcrc _) rfl)
  unfold State.pickFrame
  dsimp only
  split
  · rfl
  · split
    · exact hite _ _ _ ((hev _).trans (hs1 _ _)) (hs1 _ _)
    · split
      · exact hs1 _ _
      · exact hs1 _ _

/-- With the node's own anchor unset FRAME is anchored where the node heads the spine. -/
theorem State.anchored_unset (s : State) : (s.setFlag (kFrameStat 0) false).anchored = s.headActive := by
  have hflag {k : Nat} (h : kFrameStat 0 ≠ k) : (s.setFlag (kFrameStat 0) false).flag k = s.flag k := State.flag_setFlag_other _ _ _ _ h
  have hhead : (s.setFlag (kFrameStat 0) false).headActive = s.headActive := by
    simp only [State.headActive, hflag (show kFrameStat 0 ≠ kSpineEn by decide), hflag (show kFrameStat 0 ≠ kHead by decide),
      hflag (show kFrameStat 0 ≠ kClkStat 4 by decide)] <;> rfl
  rw [State.anchored, hhead, State.flag_setFlag, Bool.or_false]

/-- Settles O21: the branches of a judged beacon. That a beacon taken while timing is off still enters SPINE_BCN rests on log entry
91. -/
theorem beaconsAnchorTheFrame : Obligations.BeaconsAnchorTheFrame := by
  unfold Obligations.BeaconsAnchorTheFrame
  refine ⟨fun frame e per s ht => ⟨fun hp => ?_, fun u hu => ?_, fun f u hu hh => ?_⟩, fun s ha hage => ?_, fun s hage => ?_,
    fun s t => ⟨?_, fun ha ht => ?_, fun h => ?_⟩⟩
  · have hpick : s.pickFrame frame (crc16Ok 26) = (none, s) := if_pos hp
    simp only [exec, execBeacon, ht, hpick, Bool.not_true, Bool.false_eq_true, if_false]
  · simp only [exec, execBeacon, ht, hu, Bool.not_true, Bool.false_eq_true, if_false]
  · have hflag {k : Nat} (hc : fk 0x4000A070 16 ≠ k) (he : kSpineEvent 5 ≠ k) : u.flag k = s.flag k := by
      have := s.reg_pickFrame_other frame (crc16Ok 26) hc he
      rw [hu] at this
      simp [State.flag, this]
    have hex : exec (.beacon frame e per) s = .next (u.judgeBeacon (beBytes f.toNat 26) e per) := by
      simp only [exec, execBeacon, ht, hu, Bool.not_true, Bool.false_eq_true, if_false]
    have hhead : (u.flag kHead && !u.spine.headStop) = false := by rw [hflag (by decide) (by decide), hh, Bool.false_and]
    have hanch : u.flag (kFrameStat 0) = s.flag (kFrameStat 0) := hflag (by decide) (by decide)
    have hsirc : u.flag kTickSirc = s.flag kTickSirc := hflag (by decide) (by decide)
    have hen : u.flag (fk 0x40004000 0) = s.flag (fk 0x40004000 0) := hflag (by decide) (by decide)
    simp only [State.judgeBeacon, hhead, hanch, hsirc, hen, Bool.false_eq_true, if_false] at hex
    refine ⟨fun h0 hs ha => ?_, fun h1 he hs ha => ?_, fun h0 hs => ?_, fun h1 he => ?_⟩
    · simpa [h0, hs, ha] using hex
    · simpa [h1, hs, ha, Nat.not_lt.2 he] using hex
    · have hoff : (!s.flag kTickSirc && s.flag (fk 0x40004000 0)) = false := by
        rcases hs with h | h <;> simp [h]
      have hnear : (s.flag (kFrameStat 0) && decide (192 < e.natAbs)) = false := by
        rcases h0 with h | h
        · simp [h]
        · simp [Nat.not_lt.2 h]
      simpa [hoff, hnear] using hex
    · simpa [h1, he] using hex
  · exact congrArg Host.Outcome.next (if_pos (by simp [ha, hage]))
  · exact congrArg Host.Outcome.next (if_neg (by simp; omega))
  · unfold State.unanchor
    dsimp only
    split
    · exact (State.flag_setFlag_other _ _ _ _ (by decide)).trans (State.flag_setFlag _ _ _)
    · exact State.flag_setFlag _ _ _
  · have hnow : (t.setFlag (kFrameStat 0) false).anchored = false := (State.anchored_unset t).trans ht
    simp only [State.unanchor, ha, hnow, Bool.not_false, Bool.and_self, if_true]
    exact State.flag_setFlag _ _ _
  · have hkeep : (s.anchored && !(t.setFlag (kFrameStat 0) false).anchored) = false := by
      rw [State.anchored_unset]
      obtain h | h := h <;> simp [h]
    simp only [State.unanchor, hkeep, Bool.false_eq_true, if_false]
    exact State.reg_setFlag_other _ _ _ _ (by decide)

end Sys2Proof.Machine
end

section
/-! PROOFS. The NOR store: its commands, checks, operations, locks and suspension. -/
namespace Sys2Proof.Machine

/-! ### Commands (R378, R379) -/

/-- The write of NOR_CMD that starts an operation. -/
def norCmdWrite (op flag : Nat) : List (Key × Nat) := [(fk 0x40009008 0, op), (fk 0x40009008 8, flag)]

theorem State.checkWord_norCmd {s : State} (h : s.norOp.state = 0) {v : Nat} (hv : v ∈ [1, 2, 3, 3 + 256]) :
    s.checkWord 9 8 v 0xFFFFFFFF = { ws := norCmdWrite (v % 4) (v / 256) } := by
  have hrun : s.running 9 8 = false := by simp [State.running, State.norHand, h]
  have hfl : (regDef 9 8).getD [] = [⟨0, 2, some 2, .wo, .stopped, 0, .enumOf [1, 2, 3]⟩, ⟨8, 1, some 3, .wo, .stopped, 0, .any⟩] := rfl
  have hb : blockBase 9 = 0x40009000 := by decide
  have hres : ∀ v ∈ [1, 2, 3, 3 + 256], reservedEntry 9 [⟨0, 2, some 2, .wo, .stopped, 0, .enumOf [1, 2, 3]⟩,
      ⟨8, 1, some 3, .wo, .stopped, 0, .any⟩] (v &&& 0xFFFFFFFF) = none ∧ bits (v &&& 0xFFFFFFFF) 0 2 = v % 4 ∧
      bits (v &&& 0xFFFFFFFF) 8 1 = v / 256 ∧ v % 4 ∈ [1, 2, 3] := by decide
  obtain ⟨h1, h2, h3, h4⟩ := hres v hv
  simp only [State.checkWord, hfl, List.foldl_cons, List.foldl_nil, h1]
  have h4 : v % 4 = 1 ∨ v % 4 = 2 ∨ v % 4 = 3 := by simpa using h4
  simp [Fld.mask, State.checkInto, State.checkField, hrun, Checked.add, Rng.check, h2, h3, hb, norCmdWrite, h4]

theorem keyLo_fk (a : Nat) {lo : Nat} (h : lo < 32) : keyLo (fk a lo) = lo := by
  simp only [keyLo, fk]
  omega

theorem wroteAt_norCmd (op flag : Nat) :
    wroteAt (norCmdWrite op flag) 0 = some op ∧ wroteAt (norCmdWrite op flag) 8 = some flag := by
  simp [wroteAt, norCmdWrite, keyLo_fk, List.find?_cons]

theorem State.norAct_norCmd (s : State) (op flag : Nat) : s.norAct 8 (norCmdWrite op flag) = s.norStart op (flag == 1) := by
  obtain ⟨h0, h8⟩ := wroteAt_norCmd op flag
  have hflag : (some flag == some 1) = (flag == 1) := Option.some_beq_some ..
  simp only [State.norAct, if_true, h0, wrote1, h8, hflag, Option.elim_some]

/-- A write-only field outside the FRAME class holds nothing. -/
theorem State.applyField_wo (s : State) {k : Key} {f : Fld} (v : Nat) (hf : fldOf k = some f) (hw : f.ty = .wo) (hc : f.cls ≠ .frame) :
    s.applyField (k, v) = s := by
  simp [State.applyField, hf, hw, hc]

theorem State.foldl_applyField_norCmd (s : State) (op flag : Nat) : (norCmdWrite op flag).foldl State.applyField s = s := by
  have hf : fldOf (fk 0x40009008 0) = some ⟨0, 2, some 2, .wo, .stopped, 0, .enumOf [1, 2, 3]⟩ ∧
      fldOf (fk 0x40009008 8) = some ⟨8, 1, some 3, .wo, .stopped, 0, .any⟩ := by decide
  rw [norCmdWrite, List.foldl_cons, List.foldl_cons, List.foldl_nil, State.applyField_wo _ _ hf.1 rfl (by decide),
    State.applyField_wo _ _ hf.2 rfl (by decide)]

theorem State.takeWrite_norCmd (s : State) (op flag : Nat) :
    s.takeWrite 0 9 0x40009008 (norCmdWrite op flag) = s.norStart op (flag == 1) := by
  have ho : 0x40009008 - blockBase 9 = 8 := by decide
  have hact : s.blockAct s 0 9 8 (norCmdWrite op flag) = s.norAct 8 (norCmdWrite op flag) := rfl
  rw [State.takeWrite, State.foldl_applyField_norCmd, ho, hact, State.norAct_norCmd]

/-- A command of the store, on an idle one, starts its operation. -/
theorem State.regCommand_norCmd {s : State} (ha : s.aon = true) (h5 : s.isUp 5 = true) (h44 : s.isUp 44 = true)
    (h : s.norOp.state = 0) {v : Nat} (hv : v ∈ [1, 2, 3, 3 + 256]) :
    s.regCommand 0x40009008 v = s.norStart (v % 4) (v / 256 == 1) := by
  have hb : blockOf 0x40009008 = some 9 := by decide
  have hon : s.blockOn 9 = true := by simp [State.blockOn, blockDoms, ha, h44]
  have ho : 0x40009008 - blockBase 9 = 8 := by decide
  rw [s.regCommand_eq 0x40009008 v 9 hb (by simp [State.addrOn, hb, hon]) (by simp [State.regOn, hb, hon]) h5 (by decide) (by decide)
    (by decide) rfl, ho, State.checkWord_norCmd h hv]
  exact s.takeWrite_norCmd _ _

/-! ### Locks, checks and ends (R380–R382) -/

theorem State.norLocked_iff (s : State) (a k : Nat) :
    s.norLocked a k = true ↔ 0x7F0000 < a + k ∨ (s.boot.recLocked = true ∧ 0x630000 < a + k ∧ a < 0x7F0000) := by
  simp [State.norLocked]

theorem State.norDiffers_none {s : State} {a n : Nat} {want : Nat → Byte}
    (h : ∀ i, i < n → s.rd (norBase + a + i) = want i) : s.norDiffers a n want = none := by
  simp only [State.norDiffers, Option.map_eq_none_iff, List.find?_eq_none, List.mem_range, bne_iff_ne, ne_eq, Decidable.not_not]
  exact h

/-- The first byte that differs is the one reported. -/
theorem State.norDiffers_some {s : State} {a n i : Nat} {want : Nat → Byte} (hi : i < n)
    (h : ∀ k, k < i → s.rd (norBase + a + k) = want k) (hd : s.rd (norBase + a + i) ≠ want i) :
    s.norDiffers a n want = some (i + a) := by
  simp only [State.norDiffers, Option.map_eq_some_iff]
  refine ⟨i, ?_, rfl⟩
  rw [List.find?_range_eq_some]
  exact ⟨by simpa using hd, by simpa using hi, fun k hk => by simpa using h k hk⟩

/-- An interrupt stands once it has been raised. -/
theorem State.bit_irqEdge_irq (s : State) (n : Nat) : bit (s.irq n).irqEdge n = true := by
  have h : (s.irq n).irqEdge = setBit s.irqEdge n true := by
    unfold State.irq State.reef1Leave
    dsimp only
    repeat' split
    all_goals rfl
  rw [h, bit_setBit_true]

theorem State.norEnd_eq (s : State) (r : Nat) : (s.norEnd r).norOp.state = 0 ∧ (s.norEnd r).reg kNorResult = r ∧
    (s.norEnd r).mem = s.mem ∧ bit (s.norEnd r).irqEdge 8 = true := by
  refine ⟨?_, ?_, State.irq_mem _ _, State.bit_irqEdge_irq _ _⟩
  · rw [State.norEnd, State.norOp, State.irq_boot] <;> rfl
  · exact (State.reg_irq _ _ _ (by decide)).trans (State.reg_setReg _ _ _)

theorem State.length_norBuf (s : State) (n : Nat) : (s.norBuf n).length = n := by simp [State.norBuf]

/-- What an erased byte of the store reads. -/
theorem memDefault_nor {a : Nat} (h1 : 0x01000000 ≤ a) (h2 : a < 0x01800000) : memDefault a = 0xFF#8 := by
  have hr : regionOf a = .nor := by
    rw [regionOf, if_neg (by omega), if_pos ⟨h1, h2⟩]
  simp only [memDefault, hr]

/-- The store with a range of its array erased. -/
def State.norErased (s : State) (a n : Nat) : State :=
  { s with mem := Tab.keep (fun b => !decide (norBase + a ≤ b ∧ b < norBase + a + n)) s.mem }

theorem State.rd_norErased (s : State) (a n b : Nat) : (s.norErased a n).rd b =
    if !decide (norBase + a ≤ b ∧ b < norBase + a + n) then s.rd b else memDefault b :=
  Tab.get_keep memDefault (fun b => !decide (norBase + a ≤ b ∧ b < norBase + a + n)) s.mem b

/-- Settles O46: the start of each operation, its checks and what it leaves in the array, then reads while an erase is in hand. -/
theorem norOperations : Obligations.NorOperations := by
  unfold Obligations.NorOperations
  intro s h44
  dsimp only
  refine ⟨fun ha h5 h0 => ⟨?_, ?_, fun p => ?_⟩, fun hl => ?_, fun p hl hn hc => ?_, s.norLocked_iff, fun h1 hblank => ?_,
    fun i h1 hi hbefore hd => ?_, fun h2 h3 => ?_, fun h3 h1 hlt => ?_, fun h5 h3 hv => ?_, fun addr hr => ⟨fun h3 => ?_, fun h3 => ?_⟩,
    fun h4 => ?_⟩
  · exact congrArg Host.Outcome.next (State.regCommand_norCmd ha h5 h44 h0 (by decide))
  · exact congrArg Host.Outcome.next (State.regCommand_norCmd ha h5 h44 h0 (by decide))
  · refine congrArg Host.Outcome.next ((State.regCommand_norCmd ha h5 h44 h0 (by cases p <;> decide)).trans ?_)
    cases p <;> rfl
  · rw [State.norStart]
    exact if_pos hl
  · have hfree : s.norLocked (s.reg (fk 0x40009000 0)) (s.norBuf (s.reg (fk 0x40009004 0))).length = false := by
      rw [s.length_norBuf]; exact hl
    exact (if_neg (by simp [NorOp.target, hfree])).trans (if_pos (by simp; omega))
  · have hnone : s.norDiffers s.norOp.target.1 s.norOp.target.2 (fun _ => 0xFF#8) = none := State.norDiffers_none hblank
    refine (if_neg (by simp [h44, h1])).trans ?_
    rw [hnone]
  · have hsome : s.norDiffers s.norOp.target.1 s.norOp.target.2 (fun _ => 0xFF#8) = some (i + s.norOp.target.1) :=
      State.norDiffers_some hi hbefore hd
    obtain ⟨hst, hres, hmem, hirq⟩ := s.norEnd_eq 1
    have hex : exec .norCheckDone s = .next ((s.norEnd 1).setReg kNorOff (i + s.norOp.target.1)) :=
      (if_neg (by simp [h44, h1])).trans (by rw [hsome])
    exact ⟨_, hex, hst, (State.reg_setReg_other _ _ _ _ (by decide)).trans hres, (State.reg_setReg _ _ _).trans (Nat.add_comm _ _),
      hmem, hirq⟩
  · have hex : exec (.norOperationDone none) s = .next ((s.wrBytes (norBase + s.norOp.addr) ((List.range s.norOp.data.length).map
        (fun i => s.rd (norBase + s.norOp.addr + i) &&& s.norOp.data.getD i 0#8))).setNor { s.norOp with state := 5 }) :=
      (if_neg (by simp [h44, h2])).trans (by rw [if_pos h3])
    refine ⟨_, hex, rfl, fun i hi => ?_, fun a ha => ?_⟩
    · exact (s.rd_wrBytes_inside _ i _ (by simpa using hi)).trans (by simp)
    · exact s.rd_wrBytes_outside _ a _ (by simpa using ha)
  · have ht : s.norOp.target = (s.norOp.addr / 4096 * 4096, 4096) := by simp [NorOp.target, h1]
    have hex : exec (.norOperationDone none) s = .next ((s.norErased (s.norOp.addr / 4096 * 4096) 4096).setNor
        { s.norOp with state := 5 }) := by
      refine (if_neg (by simp [h44, h3])).trans ?_
      rw [if_neg (by simp [h1]), ht] <;> rfl
    have hrd (a : Nat) : ((s.norErased (s.norOp.addr / 4096 * 4096) 4096).setNor { s.norOp with state := 5 }).rd a =
        if !decide (norBase + s.norOp.addr / 4096 * 4096 ≤ a ∧ a < norBase + s.norOp.addr / 4096 * 4096 + 4096) then s.rd a
        else memDefault a := s.rd_norErased _ _ a
    refine ⟨_, hex, rfl, fun a h1 h2 => ?_, fun a h => ?_⟩
    · rw [hrd, if_neg (by simp [h1, h2])]
      exact memDefault_nor (by simp only [norBase] at h1; omega) (by simp only [norBase] at h2; omega)
    · rw [hrd, if_pos]
      rw [Bool.not_eq_true', decide_eq_false_iff_not]
      omega
  · have ht : s.norOp.target = (s.norOp.addr, s.norOp.data.length) := by simp [NorOp.target, h3]
    have hnone : s.norDiffers s.norOp.target.1 s.norOp.target.2 (fun i => if s.norOp.op = 3 then s.norOp.data.getD i 0#8 else 0xFF#8) =
        none := by
      rw [ht]
      exact State.norDiffers_none (fun i hi => by rw [if_pos h3]; exact hv i hi)
    refine (if_neg (by simp [h44, h5])).trans ?_
    rw [hnone] <;> rfl
  · have hex : exec (.norWindowRead addr) s = .next ((s.setNor { s.norOp with state := 4 }).count (fk 0x40009020 0) 16 1) :=
      congrArg Host.Outcome.next ((if_pos (by simp [h44, hr])).trans (if_pos h3))
    exact ⟨_, hex, rfl, rfl, State.reg_setReg _ _ _⟩
  · exact congrArg Host.Outcome.next ((if_pos (by simp [h44, hr])).trans (if_neg h3))
  · exact congrArg Host.Outcome.next (if_pos (by simp [h44, h4]))

end Sys2Proof.Machine
end

section
/-! PROOFS. The service ports, JTAG and the trace port. -/
namespace Sys2Proof.Machine

/-! ### Leaving Reef 1 keeps what the ports read -/

theorem State.flag_reef1Leave (s : State) {k : Nat} (h : k ≠ kLevel) : s.reef1Leave.flag k = s.flag k := by
  simp [State.flag, s.reg_reef1Leave k h]

theorem kSgmIp_ne_kLevel (p : Nat) : kSgmIp p ≠ kLevel := Nat.ne_of_gt (by simp only [kSgmIp, sgmBase, kLevel, fk]; omega)

theorem kSgmLink_ne_kLevel (p : Nat) : kSgmLink p ≠ kLevel := Nat.ne_of_gt (by simp only [kSgmLink, sgmBase, kLevel, fk]; omega)

theorem kConsDrop_ne (p : Nat) : kConsDrop p ≠ kLevel ∧ kConsDrop p ≠ kHalStat :=
  ⟨Nat.ne_of_gt (by simp only [kConsDrop, kLevel, fk]; omega), Nat.ne_of_gt (by simp only [kConsDrop, kHalStat, fk]; omega)⟩

theorem State.isUp_reef1Leave (s : State) (d : Nat) : s.reef1Leave.isUp d = s.isUp d := by
  obtain e | ⟨_, e⟩ := s.reef1Leave_eq <;> rw [e] <;> rfl

theorem State.sgmUp_reef1Leave (s : State) (p : Nat) : s.reef1Leave.sgmUp p = s.sgmUp p := by
  simp only [State.sgmUp, s.isUp_reef1Leave, s.flag_reef1Leave (kSgmLink_ne_kLevel p),
    s.flag_reef1Leave (show kClkStat 3 ≠ kLevel by decide)]

theorem State.frameKinds_reef1Leave (s : State) (p : Nat) (f : List Byte) : s.reef1Leave.isArp p f = s.isArp p f ∧
    s.reef1Leave.isEcho p f = s.isEcho p f ∧ s.reef1Leave.isCommand p f = s.isCommand p f := by
  simp only [State.isArp, State.isEcho, State.isCommand, State.ipOk, s.reg_reef1Leave _ (kSgmIp_ne_kLevel p), and_self]

theorem State.consBuf_reef1Leave (s : State) (p : Nat) : s.reef1Leave.consBuf p = s.consBuf p := by
  obtain e | ⟨_, e⟩ := s.reef1Leave_eq <;> rw [e] <;> rfl

/-! ### Frames, console bytes and packets (R274, R390–R402) -/

/-- A kept frame that is none of those a port answers is counted. -/
theorem exec_ethernetFrame_other {port : Bool} {f : List Byte} {s : State} (hup : s.sgmUp (ofBool port) = true)
    (hk : frameKept (ofBool port) f = true) (ha : s.isArp (ofBool port) f = false) (he : s.isEcho (ofBool port) f = false)
    (hc : s.isCommand (ofBool port) f = false) :
    exec (.ethernetFrame port f) s = .next (s.reef1Leave.count (kSgmDrop (ofBool port)) 16 1) := by
  obtain ⟨ha', he', hc'⟩ := s.frameKinds_reef1Leave (ofBool port) f
  simp only [exec, execEthernetFrame, hup, hk, Bool.and_self, if_true, s.sgmUp_reef1Leave, ha', he', hc', ha, he, hc, Bool.not_true,
    Bool.or_self, Bool.and_false, Bool.false_eq_true, if_false]

/-- A byte that a console receives, where its buffer has room or not. -/
theorem exec_consoleByte {port : Bool} {b : Byte} {s : State} (hu : s.isUp 69 = true) (hrx : bit s.serv.consRx (ofBool port) = true)
    (hv : s.serv.io.vio33 = true) : exec (.consoleByte port b) s = .next (State.halyard (
      if ((s.consBuf (ofBool port)).filter (· < 256)).length < 2048 then
        s.reef1Leave.setCons (ofBool port) (s.consBuf (ofBool port) ++ [b.toNat])
      else (if (s.consBuf (ofBool port)).getLast? = some 256 then s.reef1Leave
        else s.reef1Leave.setCons (ofBool port) (s.consBuf (ofBool port) ++ [256])).count (kConsDrop (ofBool port)) 16 1) 14) := by
  refine (if_neg (by simp [hu, hrx, hv])).trans ?_
  simp only [s.consBuf_reef1Leave]

theorem exec_gpioEvent {pin : Fin 64} {s : State} (ball : Bool) (h5 : s.isUp 5 = true) : exec (.gpioEvent pin ball) s =
    .next { s with serv := { s.serv with
      gpioIn := setBit s.serv.gpioIn pin (ball && s.serv.io.vio33)
      gpioEvent := if bit (s.reg (fk (0x40012018 + 4 * (pin / 32)) 0)) (pin % 32) &&
        bit s.serv.gpioIn pin != (ball && s.serv.io.vio33) then setBit s.serv.gpioEvent pin true else s.serv.gpioEvent } } :=
  if_neg (by simp [h5])

/-- A command of the TAP, with AON powered, puts its instruction in force. -/
theorem State.jtag_eq {s : State} (ha : s.aon = true) (t : Tap) :
    s.jtag t = .next { s with serv := { s.serv with tap := t } } := by rw [State.jtag, if_pos ha]

/-- A packet that the trace port takes enters the FIFO behind the count of those dropped, or is dropped. -/
theorem exec_tracePacket {source : Fin 6} {kind : BitVec 5} {payload : List (BitVec 16)} {s : State} (hu : s.isUp 71 = true)
    (hd : s.debugLocked = false) (hw : traceWords kind.toNat = some payload.length) {new : List Nat}
    (hn : (if s.serv.traceDropped = 0 then [] else tracePkt source 31 [min s.serv.traceDropped 65535]) ++
      tracePkt source kind.toNat (payload.map (·.toNat)) = new) :
    exec (.tracePacket source kind payload) s = .next (if s.serv.trace.length + new.length ≤ 64
      then { s with serv := { s.serv with trace := s.serv.trace ++ new, traceDropped := 0 } }
      else { s with serv := { s.serv with traceDropped := s.serv.traceDropped + 1 } }) := by
  subst hn
  exact if_neg (by simp [hu, hd, hw])

/-- Settles O48: the branches of each port's events, then JTAG and trace. It rests on log entries 66 (a GPIO event on every change
of an enabled level), 68, and 155 (a frame that is kept and a console byte leave Reef 1). -/
theorem servicePortsJtagAndTrace : Obligations.ServicePortsJtagAndTrace := by
  unfold Obligations.ServicePortsJtagAndTrace
  refine ⟨fun port s => ?_, fun s ha => ?_⟩
  · dsimp only
    refine ⟨fun f hip hup => ?_, fun f hip => ?_, fun f hup hk => ?_, fun f hup hk ha he hc => ?_, fun f hup hk ha => ?_,
      fun f hup hk he => ?_, fun hu h3 => ?_, fun hu h3 hen => ?_, ⟨_, rfl, State.flag_setFlag _ _ _, rfl⟩, fun b hu hrx hv => ?_,
      fun pin l h5 hv => ?_, fun hv => ⟨fun b => ?_, fun fan => ?_, fun pin => ?_⟩, fun ha => ?_, fun ha => ?_, fun hal => ?_, ?_,
      fun v h5 => ?_, fun fan h5 hv => ?_⟩
    · simp only [State.ethSend, hip, hup, decide_false, Bool.not_true, Bool.or_self, Bool.false_eq_true, if_false, Tab.get_set_same]
    · exact if_pos (by simp [hip])
    · simp [exec, execEthernetFrame, hup, hk]
    · exact exec_ethernetFrame_other hup hk ha he hc
    · exact congrArg Host.Outcome.next (if_pos (by simp [hup, hk, ha]))
    · exact congrArg Host.Outcome.next (if_pos (by simp [hup, hk, he]))
    · exact (if_neg (by simp [hu, h3])).trans (if_neg (by simp))
    · exact (if_neg (by simp [hu, h3])).trans (if_pos (by simp [hen]))
    · refine ⟨fun hroom => ?_, fun hfull => ⟨_, exec_consoleByte hu hrx hv, ?_⟩⟩
      · rw [exec_consoleByte hu hrx hv, if_pos hroom]
      · obtain ⟨hl, hs⟩ := kConsDrop_ne (ofBool port)
        rw [if_neg (Nat.not_lt.2 hfull), State.reg_halyard _ _ _ hs hl, State.count, State.reg_setReg]
        have hreg : (if (s.consBuf (ofBool port)).getLast? = some 256 then s.reef1Leave else s.reef1Leave.setCons (ofBool port) (s.consBuf (ofBool port) ++ [256])).reg
            (kConsDrop (ofBool port)) = s.reg (kConsDrop (ofBool port)) := by
          split
          · exact s.reg_reef1Leave _ hl
          · exact s.reg_reef1Leave _ hl
        exact congrArg (fun v => min (v + 1) 65535) hreg
    · refine ⟨_, exec_gpioEvent l h5, rfl, ?_, fun hne hen => ?_⟩
      · simp [hv]
      · simp [hv, hen, hne]
    · exact if_pos (by simp [hv])
    · exact congrArg Host.Outcome.next (if_neg (by simp [hv]))
    · by_cases h5 : s.isUp 5 = true
      · rw [exec_gpioEvent _ h5, exec_gpioEvent _ h5]
        simp [hv]
      · exact (if_pos (by simpa using h5)).trans (if_pos (by simpa using h5)).symm
    · exact congrArg Host.Outcome.next (if_neg (by simp [ha]))
    · exact congrArg Host.Outcome.next (if_neg (by simp [ha]))
    · exact congrArg Host.Outcome.next (if_pos (by simp [hal]))
    · exact congrArg Host.Outcome.next (if_neg (by simp))
    · exact congrArg Host.Outcome.next (if_pos h5)
    · refine ⟨_, congrArg Host.Outcome.next (if_pos (by simp [h5, hv])), ?_, rfl, rfl⟩
      dsimp only
      rw [Tab.get_set_same]
  · intro tap force
    refine ⟨fun c v => ⟨State.jtag_eq ha _, State.jtag_eq ha _⟩, State.jtag_eq ha _, State.jtag_eq ha _, State.jtag_eq ha _,
      fun hd hu => ?_, fun h => ?_, fun code hc => ?_, State.jtag_eq ha _, fun source kind payload hu hd hw => ?_⟩
    · have hex : exec .jtagDebug s = (s.freeBits 32).2.jtag { s.serv.tap with
          ir := 0x10, dr := (s.freeBits 32).1, drive := false, hiz := false } := if_pos (by simp [hd, hu])
      have haon : (s.freeBits 32).2.aon = true := ha
      exact ⟨_, hex.trans (State.jtag_eq haon _), rfl, rfl, rfl, rfl, rfl⟩
    · refine (if_neg ?_).trans (State.jtag_eq ha _)
      obtain h | h := h <;> simp [h]
    · exact (if_neg (by simpa using hc)).trans (State.jtag_eq ha _)
    · intro o pkt
      have hpkt : tracePkt source kind.toNat (payload.map (·.toNat)) = pkt := by simp [tracePkt, pkt]
      refine ⟨fun h0 hroom => ?_, fun hfull => ?_⟩
      · refine (exec_tracePacket hu hd hw (new := pkt) (by rw [if_pos h0, hpkt, List.nil_append])).trans ?_
        rw [if_pos hroom]
      · refine (exec_tracePacket hu hd hw rfl).trans ?_
        rw [if_neg]
        rw [hpkt, List.length_append]
        omega

end Sys2Proof.Machine
end

section
/-! PROOFS. Command registers: a write of one whose fields all act at once and hold nothing is that block's action alone. -/
namespace Sys2Proof.Machine

/-- A field that holds nothing and takes every value at once. -/
def Fld.command (f : Fld) : Bool := decide (f.ty = .wo ∧ f.cls ≠ .frame ∧ f.cls ≠ .stopped ∧ f.rng = .any)

/-- `a` is the address of a register of block `b` that holds no common register, and whose fields are the commands `fl`. -/
def commandReg (a b : Nat) (fl : List Fld) : Bool :=
  decide (blockOf a = some b ∧ aliasAddr 0 a = a ∧ ¬(commonBase b ≤ a ∧ a < commonBase b + 0x30) ∧
    ¬(0x40000DF8 ≤ a ∧ a < 0x40000F00) ∧ crossesXt1 b = false ∧ regDef b (a - blockBase b) = some fl ∧
    blockBase b + (a - blockBase b) = a) &&
  fl.all (fun f => f.command && decide (fldOf (fk a f.lo) = some f ∧ f.mask &&& 0xFFFFFFFF ≠ 0))

/-- What a word written to a command register asks of its fields. -/
def commandWrites (a v : Nat) (fl : List Fld) : List (Key × Nat) := fl.map (fun f => (fk a f.lo, bits (v &&& 0xFFFFFFFF) f.lo f.w))

theorem State.checkField_command (s : State) {f : Fld} (hf : f.command = true) (ws : List (Key × Nat)) (b o v : Nat) :
    s.checkField ws b o f v = (some v, none) := by
  obtain ⟨hty, -, hcls, hrng⟩ := of_decide_eq_true hf
  simp [State.checkField, hty, hcls, hrng, Rng.check]

theorem foldl_adds {g : Checked → Fld → Checked} {w : Fld → Key × Nat} {fl : List Fld}
    (hg : ∀ f ∈ fl, ∀ c, g c f = { c with ws := c.ws ++ [w f] }) (c : Checked) :
    fl.foldl g c = { c with ws := c.ws ++ fl.map w } := by
  induction fl generalizing c with
  | nil => simp
  | cons f t ih =>
    rw [List.foldl_cons, hg f List.mem_cons_self, ih (fun f hf => hg f (List.mem_cons_of_mem _ hf))]
    simp

/-- The checks of a command register's word let every field through. -/
theorem State.checkWord_command (s : State) {a b v : Nat} {fl : List Fld} (hc : commandReg a b fl = true)
    (hr : reservedEntry b fl (v &&& 0xFFFFFFFF) = none) :
    s.checkWord b (a - blockBase b) v 0xFFFFFFFF = { ws := commandWrites a v fl } := by
  obtain ⟨hd, hall⟩ := Bool.and_eq_true_iff.mp hc
  obtain ⟨-, -, -, -, -, hreg, ha⟩ := of_decide_eq_true hd
  unfold State.checkWord
  simp only [hreg, Option.getD_some, hr]
  rw [foldl_adds (w := fun f => (fk a f.lo, bits (v &&& 0xFFFFFFFF) f.lo f.w))]
  · rfl
  · intro f hf c
    obtain ⟨hf, hd⟩ := Bool.and_eq_true_iff.mp (List.all_eq_true.mp hall f hf)
    have hty : f.ty = .wo := (of_decide_eq_true hf).1
    rw [if_neg (by simp [(of_decide_eq_true hd).2])]
    simp [State.checkInto, s.checkField_command hf, Checked.add, ha, hty]

theorem State.foldl_applyField_command (s : State) {a b : Nat} (v : Nat) {fl : List Fld} (hc : commandReg a b fl = true) :
    (commandWrites a v fl).foldl State.applyField s = s := by
  have hall : ∀ f ∈ fl, _ := List.all_eq_true.mp (Bool.and_eq_true_iff.mp hc).2
  unfold commandWrites
  clear hc
  induction fl with
  | nil => rfl
  | cons f t ih =>
    obtain ⟨hf, hd⟩ := Bool.and_eq_true_iff.mp (hall f List.mem_cons_self)
    obtain ⟨hty, hcls, -⟩ := of_decide_eq_true hf
    rw [List.map_cons, List.foldl_cons, s.applyField_wo _ (of_decide_eq_true hd).1 hty hcls]
    exact ih (fun g hg => hall g (List.mem_cons_of_mem _ hg))

/-- A write of a command register that reaches its block is the block's action. -/
theorem State.regCommand_command (s : State) {a b v : Nat} {fl : List Fld} (hc : commandReg a b fl = true)
    (hr : reservedEntry b fl (v &&& 0xFFFFFFFF) = none) (hon : s.addrOn a = true) (hreg : s.regOn a = true) (h5 : s.isUp 5 = true) :
    s.regCommand a v = s.blockAct s 0 b (a - blockBase b) (commandWrites a v fl) := by
  obtain ⟨hb, hal, h1, h2, hx, -⟩ := of_decide_eq_true (Bool.and_eq_true_iff.mp hc).1
  rw [s.regCommand_eq a v b hb hon hreg h5 hal h1 h2 hx, s.checkWord_command hc hr]
  exact congrArg (fun t : State => s.blockAct t 0 b (a - blockBase b) (commandWrites a v fl)) (s.foldl_applyField_command v hc)

end Sys2Proof.Machine
end

section
/-! PROOFS. Bay channels under their commands and events. -/
namespace Sys2Proof.Machine

theorem find?_eq_of_agree {α : Type} {p q : α → Bool} {l : List α} (h : ∀ x ∈ l, p x = q x) : l.find? p = l.find? q := by
  induction l with
  | nil => rfl
  | cons x t ih => simp only [List.find?_cons, h x List.mem_cons_self, ih (fun y hy => h y (List.mem_cons_of_mem _ hy))]

/-- What a field of a command register is asked, by its place. -/
theorem wroteAt_commandWrites (a v : Nat) {fl : List Fld} (lo : Nat) (h : ∀ f ∈ fl, f.lo < 32) :
    wroteAt (commandWrites a v fl) lo = (fl.find? (fun f => f.lo == lo)).map (fun f => bits (v &&& 0xFFFFFFFF) f.lo f.w) := by
  unfold wroteAt commandWrites
  rw [List.find?_map, Option.map_map]
  congr 1
  exact find?_eq_of_agree (fun f hf => by simp [keyLo_fk a (h f hf)])

/-- A value that fits in the bits that a register's fields cover reports nothing. -/
theorem reservedEntry_of_lt (b : Nat) {fl : List Fld} {v k : Nat} (hv : v < 2 ^ k)
    (h : ∀ i < k, fl.any (fun f => decide (f.lo ≤ i ∧ i < f.lo + f.w)) = true) (h32 : k ≤ 32) :
    reservedEntry b fl (v &&& 0xFFFFFFFF) = none := by
  have hand : v &&& 0xFFFFFFFF = v := (Nat.and_two_pow_sub_one_eq_mod v 32).trans
    (Nat.mod_eq_of_lt (Nat.lt_of_lt_of_le hv (Nat.pow_le_pow_right (by decide) h32)))
  have hnone : (List.range 32).find? (fun i => bit v i && !fl.any (fun f => decide (f.lo ≤ i ∧ i < f.lo + f.w))) = none := by
    refine List.find?_eq_none.mpr fun i _ => ?_
    by_cases hi : i < k
    · rw [h i hi]; simp
    · have hlt : v < 2 ^ i := Nat.lt_of_lt_of_le hv (Nat.pow_le_pow_right (by decide) (Nat.le_of_not_lt hi))
      simp [bit, Nat.div_eq_of_lt hlt]
  simp only [reservedEntry, hand, hnone]

/-! ### The commands' registers (R295) -/

def bayCmdFields : List Fld := [fV 0 1, fV 1 1, fV 2 1]

theorem commandReg_bay : ∀ n : Fin 128, commandReg (bayAddr n 8) 0x17 bayCmdFields = true ∧
    bayAddr n 8 - blockBase 0x17 = 0x100 * n + 8 := by decide

theorem State.blockOn_bay {s : State} {n : Nat} (ha : s.aon = true) (hn : n < 128) (hu : s.bayUp n = true) {b : Nat}
    (hb : b = 0x17 ∨ b = 0x18) : s.blockOn b = true := by
  have hd : blockDoms b = [55, 56, 57, 58, 59, 60, 61, 62] := by rcases hb with rfl | rfl <;> rfl
  have hm : 55 + n / 16 ∈ blockDoms b := by rw [hd]; simp only [List.mem_cons, List.not_mem_nil, or_false]; omega
  simp only [State.blockOn, ha, Bool.true_and, Bool.or_eq_true]
  exact .inr (List.any_eq_true.mpr ⟨_, hm, hu⟩)

/-- A command of a channel whose group is released. -/
theorem State.regCommand_bay {s : State} (chan : Fin 128) (ha : s.aon = true) (h5 : s.isUp 5 = true) (hu : s.bayUp chan = true)
    {v : Nat} (hv : v ∈ [1, 2, 4]) :
    s.regCommand (bayAddr chan 8) v = s.bayAct (0x100 * chan + 8) (commandWrites (bayAddr chan 8) v bayCmdFields) := by
  obtain ⟨hc, ho⟩ := commandReg_bay chan
  have hb : blockOf (bayAddr chan 8) = some 0x17 := (of_decide_eq_true (Bool.and_eq_true_iff.mp hc).1).1
  have hon := State.blockOn_bay ha chan.isLt hu (.inl rfl)
  have hres : ∀ v ∈ [1, 2, 4], reservedEntry 0x17 bayCmdFields (v &&& 0xFFFFFFFF) = none := by decide
  have hdom : 55 + (0x100 * chan.val + 8) / 0x1000 = 55 + chan.val / 16 := by omega
  have hreg : s.regOn (bayAddr chan 8) = true := by
    simp only [State.regOn, hb, hon, ho, hdom]
    have hg : s.isUp (55 + chan.val / 16) = true := hu
    simp [hg]
  rw [s.regCommand_command hc (hres v hv) (by simp [State.addrOn, hb, hon]) hreg h5, ho]
  rfl

theorem wrote1_bayCmd (n v lo : Nat) : wrote1 (commandWrites (bayAddr n 8) v bayCmdFields) lo =
    ((bayCmdFields.find? (fun f => f.lo == lo)).map (fun f => bits (v &&& 0xFFFFFFFF) f.lo f.w) == some 1) := by
  rw [wrote1, wroteAt_commandWrites _ _ _ (by decide)]

/-- The three commands of BAY_CHn_CMD. -/
theorem State.bayAct_cmd (s : State) (chan : Fin 128) {ws : List (Key × Nat)} {start stop restart : Bool} (h0 : wrote1 ws 0 = start)
    (h1 : wrote1 ws 1 = stop) (h2 : wrote1 ws 2 = restart) : s.bayAct (0x100 * chan + 8) ws =
      let s1 : State := { s with bay := { s.bay with lastBay := chan } }
      let s2 : State := if start then s1.setBayCh chan { s1.bayCh chan with startReq := true } else s1
      let s3 : State := if stop then s2.setBayCh chan { s2.bayCh chan with stopReq := true } else s2
      if restart then s3.bayRestart chan else s3 := by
  have hlow : 0x100 * chan.val + 8 < 0x8000 := by omega
  have hn : (0x100 * chan.val + 8) / 0x100 = chan := by omega
  have ho : (0x100 * chan.val + 8) % 0x100 = 8 := by omega
  unfold State.bayAct
  rw [if_pos hlow, hn, ho, h0, h1, h2] <;> rfl

/-! ### The gangs' commands (R295) -/

def gangCmdFields : List Fld := [fV 0 8, fV 8 8]

theorem State.bayAct_gang (s : State) (ws : List (Key × Nat)) : s.bayAct 0x8040 ws =
    { s with bay := { s.bay with gangStart := s.bay.gangStart ||| (wroteAt ws 0).getD 0,
                                 gangStop := s.bay.gangStop ||| (wroteAt ws 8).getD 0 } } := rfl

theorem State.regCommand_gang {s : State} {n : Nat} (hn : n < 128) (ha : s.aon = true) (h5 : s.isUp 5 = true)
    (hu : s.bayUp n = true) {v : Nat} (hv : v < 65536) : s.regCommand 0x40028040 v =
      { s with bay := { s.bay with gangStart := s.bay.gangStart ||| v % 256, gangStop := s.bay.gangStop ||| v / 256 } } := by
  have hc : commandReg 0x40028040 0x17 gangCmdFields = true := by decide
  have hb : blockOf 0x40028040 = some 0x17 := by decide
  have ho : 0x40028040 - blockBase 0x17 = 0x8040 := by decide
  have hon := State.blockOn_bay ha hn hu (.inl rfl)
  have hand : v &&& 0xFFFFFFFF = v := (Nat.and_two_pow_sub_one_eq_mod v 32).trans (Nat.mod_eq_of_lt (by omega))
  have hres := reservedEntry_of_lt 0x17 (fl := gangCmdFields) (v := v) (k := 16) hv (by decide) (by decide)
  have h0 : wroteAt (commandWrites 0x40028040 v gangCmdFields) 0 = some (v % 256) := by
    rw [wroteAt_commandWrites _ _ _ (by decide), hand]; simp [gangCmdFields, fV, bits]
  have h8 : wroteAt (commandWrites 0x40028040 v gangCmdFields) 8 = some (v / 256) := by
    rw [wroteAt_commandWrites _ _ _ (by decide), hand]; simp [gangCmdFields, fV, bits]; omega
  rw [s.regCommand_command hc hres (by simp [State.addrOn, hb, hon]) (by simp [State.regOn, hb, hon, ho]) h5, ho]
  exact (s.bayAct_gang _).trans (by rw [h0, h8]; rfl)

/-! ### Retries that fall due (R300, R303) -/

theorem chunksOf_single (b k n : Nat) : chunksOf b (k + 2) [n] = [[n]] := by
  obtain ⟨m, hm⟩ : ∃ m, max b 1 = m + 1 := ⟨max b 1 - 1, by omega⟩
  simp [chunksOf, hm]

theorem State.queueUnit_single (s : State) (n : Nat) :
    (s.queueUnit [n]).bay.units = s.bay.units ++ [[n]] ∧ (s.queueUnit [n]).bay.ch = s.bay.ch := by
  have hch : chunksOf (s.reg kBudget) 128 [n] = [[n]] := chunksOf_single _ 126 n
  unfold State.queueUnit
  rw [if_neg (by simp)]
  dsimp only
  rw [hch]
  split <;> exact ⟨rfl, rfl⟩

/-- Why a channel is left out of a unit depends on its inputs and on the registers alone. -/
theorem State.leftOut_setBayCh (s : State) (n : Nat) {c : BayCh} (h : c.prs = (s.bayCh n).prs) : (s.setBayCh n c).leftOut n = s.leftOut n := by
  have hp : (s.setBayCh n c).prsActive n = s.prsActive n := by
    rw [State.prsActive, State.bayCh_setBayCh, h]; rfl
  unfold State.leftOut State.absent
  rw [hp]
  rfl

theorem State.retryDue_none {s : State} {n : Nat} (h : s.leftOut n = none) :
    s.retryDue n = (some n, s.setBayCh n { s.bayCh n with backoff := none }) := by
  simp only [State.retryDue, s.leftOut_setBayCh n (c := { s.bayCh n with backoff := none }) rfl, h]

theorem State.retryDue_some {s : State} {n e : Nat} (h : s.leftOut n = some e) :
    s.retryDue n = (none, ((s.setBayCh n { s.bayCh n with backoff := none }).bayOff n).bayEvent n e) := by
  simp only [State.retryDue, s.leftOut_setBayCh n (c := { s.bayCh n with backoff := none }) rfl, h]

/-! ### Inputs (R307–R309) -/

@[simp] theorem State.bayCh_bayOff (s : State) (n : Nat) : (s.bayOff n).bayCh n = { s.bayCh n with st := 0, backoff := none } :=
  State.bayCh_setBayCh _ _ _

theorem BayIn.change_masks {i : BayIn} {l : Bool} (hm : i.masked = none) (hl : i.level ≠ some l) (hc : i.changes = 32) :
    i.change l = ({ i with level := some l, raw := some l, changes := 33, masked := some 64 }, false, true) := by
  simp [BayIn.change, hm, hl, hc]

theorem BayIn.change_counts {i : BayIn} {l : Bool} (hm : i.masked = none) (hl : i.level ≠ some l) (hc : i.changes < 32) :
    i.change l = ({ i with level := some l, raw := some l, changes := i.changes + 1 }, true, false) := by
  simp [BayIn.change, hm, hl, Nat.ne_of_lt hc]

section
variable {s : State} {chan : Fin 128} {i : BayIn}

/-- R309: the 33rd change of the presence input in a frame. -/
theorem State.execPrsChg_masked (hu : s.bayUp chan = true) (hr : s.bayRing chan = true)
    (hi : (s.bayCh chan).prs.change true = (i, false, true)) :
    execPrsChg chan true s = .next ((s.setBayCh chan { s.bayCh chan with prs := i }).bayEvent chan 4) := by
  simp [execPrsChg, hu, hr, hi]

/-- R307: a change of the presence input that counts; where presence is required, its loss stops the channel. -/
theorem State.execPrsChg_counted (hu : s.bayUp chan = true) (hr : s.bayRing chan = true)
    (hi : (s.bayCh chan).prs.change true = (i, true, false)) : ∃ t,
    execPrsChg chan true s = .next t ∧ t.flag (kBayCh chan 0x14 2) = true ∧ (t.bayCh chan).prs = i := by
  have hflag : ((s.setBayCh chan { s.bayCh chan with prs := i }).bayEvent chan 2).flag (kBayCh chan 0x14 2) = true :=
    State.flag_bayEvent _ _ _
  simp only [execPrsChg, hu, hr, hi, Bool.not_true, Bool.and_self, Bool.false_eq_true, if_false]
  split
  · exact ⟨_, rfl, hflag, by simp⟩
  · exact ⟨_, rfl, hflag, by simp⟩

/-- R308: a change of the fault input to its active level, in MODE 0. -/
theorem State.execFlt_active (hu : s.bayUp chan = true) (hr : s.bayRing chan = true) (hmode : s.flag (kBayu chan 0 1) = false)
    (hi : (s.bayCh chan).flt.change true = (i, true, false)) (hpol : i.active (s.flag (kBayIn (chan / 16) 1)) = true)
    (hst : (s.bayCh chan).st = 1 ∨ (s.bayCh chan).st = 2) :
    let t := (s.setBayCh chan { s.bayCh chan with flt := i }).bayEvent chan 3
    execFlt chan true s = .next (if s.reg (kBayCh chan 4 16) = 1 then t.bayTrip chan 2
      else if s.reg (kBayCh chan 4 16) = 2 then t.bayOff chan else t) := by
  have hact : (s.setBayCh chan { s.bayCh chan with flt := i }).fltActive chan = true := by
    have hm : (s.setBayCh chan { s.bayCh chan with flt := i }).flag (kBayu chan 0 1) = false := hmode
    simp only [State.fltActive, hm, State.bayCh_setBayCh]
    exact hpol
  have hreg : ((s.setBayCh chan { s.bayCh chan with flt := i }).bayEvent chan 3).reg (kBayCh chan 4 16) = s.reg (kBayCh chan 4 16) :=
    State.reg_bayEvent_other _ (by simp [kBayCh_inj])
  dsimp only
  simp [execFlt, hu, hr, hmode, hi, hact, hreg, hst]

end

/-- A trip of a channel leaves its FLT event as it was. -/
theorem State.flag_bayTrip_event (s : State) (n cause : Nat) {i : Nat} (h0 : i ≠ 0) (h1 : i ≠ 1) (hi : i < 32) :
    (s.bayTrip n cause).flag (kBayCh n 0x14 i) = s.flag (kBayCh n 0x14 i) := by
  have hne (o lo : Nat) (h : 0x14 * 32 + i ≠ o * 32 + lo) : kBayCh n 0x14 i ≠ kBayCh n o lo := by simpa [kBayCh_inj] using h
  rw [State.flag, State.reg_bayTrip _ _ _ (hne _ _ (by omega)), State.tripRecorded, State.reg_bayEvent_other _ (hne _ _ (by omega)),
    State.reg_setReg_other _ _ _ _ (hne _ _ (by omega)).symm, State.reg_setReg_other _ _ _ _ (hne _ _ (by omega)).symm]
  rfl

/-! ### The supply monitor (R302) -/

theorem State.queued_iff (s : State) (n : Nat) : s.queued n = true ↔ ∃ u ∈ s.bay.units, n ∈ u := by
  simp [State.queued]

/-- A channel that leaves its unit is in none; the others stay in theirs. -/
theorem State.queued_dequeue (s : State) (n m : Nat) : (s.dequeue n).queued m = true ↔ m ≠ n ∧ s.queued m = true := by
  simp only [State.queued_iff, State.dequeue, List.mem_filter, List.mem_map]
  constructor
  · rintro ⟨_, ⟨⟨u, hu, rfl⟩, -⟩, hm⟩
    obtain ⟨hmu, hne⟩ := List.mem_filter.mp hm
    exact ⟨by simpa using hne, u, hu, hmu⟩
  · rintro ⟨hne, u, hu, hm⟩
    have hmf : m ∈ u.filter (fun x => x != n) := List.mem_filter.mpr ⟨hm, by simpa using hne⟩
    exact ⟨_, ⟨⟨u, hu, rfl⟩, by simpa using ⟨m, hm, hne⟩⟩, hmf⟩

/-- What the fall of VBAY12 does to one channel of the group. -/
def State.uvChan (s : State) (n : Nat) : State :=
  let st := (s.bayCh n).st
  if st = 1 || st = 2 then ((s.bayOff n).bayEvent n 6).raise (bayRec 0 3 n 3 (s.bayCh n).retriesLeft)
  else if s.queued n then (if st = 3 then (s.bayOff n).bayEvent n 6 else s.dequeue n)
  else s

/-- A channel that the monitor's fall has dealt with: neither ramping nor on, and in no unit. -/
def State.uvDone (s : State) (m : Nat) : Prop := (s.bayCh m).st ≠ 1 ∧ (s.bayCh m).st ≠ 2 ∧ s.queued m = false

section
variable (s : State) (n : Nat)

theorem State.queued_raise (r : ErrRec) : (s.raise r).queued n = s.queued n := by simp [State.queued]

theorem State.queued_bayOff (m : Nat) : (s.bayOff n).queued m = (s.dequeue n).queued m := rfl

theorem State.queued_uvChan {m : Nat} (h : s.queued m = false) : (s.uvChan n).queued m = false := by
  have hd : (s.dequeue n).queued m = false := by
    rw [Bool.eq_false_iff]; exact fun hq => absurd ((s.queued_dequeue n m).mp hq).2 (by simp [h])
  unfold State.uvChan
  dsimp only
  split
  · rw [State.queued_raise]; exact hd
  · repeat' split
    · exact hd
    · exact hd
    · exact h

theorem State.bayCh_uvChan_other {m : Nat} (h : m ≠ n) : (s.uvChan n).bayCh m = s.bayCh m := by
  have ho : (s.bayOff n).bayCh m = s.bayCh m := State.bayCh_setBayCh_other _ _ _ _ h.symm
  unfold State.uvChan
  dsimp only
  split
  · rw [State.bayCh_raise]; exact ho
  · repeat' split
    · exact ho
    · rfl
    · rfl

theorem State.mem_uvChan : (s.uvChan n).mem = s.mem := by
  unfold State.uvChan
  dsimp only
  split
  · rw [State.raise_mem]; rfl
  · repeat' split
    all_goals rfl

theorem State.uvDone_uvChan : (s.uvChan n).uvDone n := by
  have hq : (s.dequeue n).queued n = false := by
    rw [Bool.eq_false_iff]; exact fun h => ((s.queued_dequeue n n).mp h).1 rfl
  have hoff : (s.bayOff n).uvDone n := by
    refine ⟨?_, ?_, hq⟩ <;> simp
  unfold State.uvChan
  dsimp only
  split
  · unfold State.uvDone
    rw [State.bayCh_raise, State.queued_raise]
    exact hoff
  case isFalse hst =>
    have hst : (s.bayCh n).st ≠ 1 ∧ (s.bayCh n).st ≠ 2 := by simpa using hst
    by_cases hin : s.queued n = true
    · rw [if_pos hin]
      split
      · exact hoff
      · exact ⟨hst.1, hst.2, hq⟩
    · rw [if_neg hin]
      exact ⟨hst.1, hst.2, by simpa using hin⟩

end

theorem State.uvDone_foldl (l : List Nat) (s : State) {m : Nat} (hm : m ∈ l ∨ s.uvDone m) : (l.foldl State.uvChan s).uvDone m := by
  induction l generalizing s with
  | nil => exact hm.resolve_left (List.not_mem_nil)
  | cons n t ih =>
    refine ih _ ?_
    by_cases h : m = n
    · exact .inr (h ▸ s.uvDone_uvChan n)
    · refine hm.imp (fun hm => (List.mem_cons.mp hm).resolve_left h) fun hd => ?_
      obtain ⟨h1, h2, hq⟩ := hd
      have hc := s.bayCh_uvChan_other n h
      exact ⟨hc ▸ h1, hc ▸ h2, s.queued_uvChan n hq⟩

theorem State.bayCh_foldl_uvChan (l : List Nat) (s : State) {m : Nat} (hm : m ∉ l) :
    (l.foldl State.uvChan s).bayCh m = s.bayCh m := by
  induction l generalizing s with
  | nil => rfl
  | cons n t ih =>
    obtain ⟨hne, ht⟩ := not_or.mp (fun h => hm (List.mem_cons.mpr h))
    rw [List.foldl_cons, ih _ ht, s.bayCh_uvChan_other n hne]

/-- Settles O42. That the first qualified level of an input counts as a change rests on log entry 149, that the 33rd takes no
action on entry 17, and that a retry is queued ahead of the latch edge on entry 159. -/
theorem bayCommandsAndEvents : Obligations.BayCommandsAndEvents := by
  unfold Obligations.BayCommandsAndEvents
  intro chan s
  dsimp only
  refine ⟨fun ha h5 hu => ⟨?_, ?_, ?_⟩, fun ha h5 hu gangs => ⟨?_, ?_⟩, fun hu h1 => ⟨?_, ?_⟩, fun hu h12 => ?_,
    fun hu hd h3 hb => ⟨fun hl => ?_, fun e hl => ?_⟩, fun hu hr => ⟨?_, ?_⟩, fun hu hr hm hl hc => ?_, fun hu hr hm hl hc => ?_,
    fun hu hr hmode hm hl hc hpol hst => ?_, fun hu hm => ?_, fun g hg => ?_, fun g hg hv => ?_⟩
  · exact congrArg Host.Outcome.next ((State.regCommand_bay chan ha h5 hu (by decide)).trans
      (s.bayAct_cmd chan (start := true) (stop := false) (restart := false) (wrote1_bayCmd _ _ _) (wrote1_bayCmd _ _ _) (wrote1_bayCmd _ _ _)))
  · exact congrArg Host.Outcome.next ((State.regCommand_bay chan ha h5 hu (by decide)).trans
      (s.bayAct_cmd chan (start := false) (stop := true) (restart := false) (wrote1_bayCmd _ _ _) (wrote1_bayCmd _ _ _) (wrote1_bayCmd _ _ _)))
  · exact congrArg Host.Outcome.next ((State.regCommand_bay chan ha h5 hu (by decide)).trans
      (s.bayAct_cmd chan (start := false) (stop := false) (restart := true) (wrote1_bayCmd _ _ _) (wrote1_bayCmd _ _ _) (wrote1_bayCmd _ _ _)))
  · have hg := gangs.isLt
    have h := State.regCommand_gang chan.isLt ha h5 hu (v := gangs.toNat) (by omega)
    rw [Nat.mod_eq_of_lt hg, Nat.div_eq_of_lt hg, Nat.or_zero] at h
    exact congrArg Host.Outcome.next h
  · have hg := gangs.isLt
    have h := State.regCommand_gang chan.isLt ha h5 hu (v := gangs.toNat * 256) (by omega)
    rw [Nat.mul_mod_left, Nat.mul_div_cancel _ (by decide), Nat.or_zero] at h
    exact congrArg Host.Outcome.next h
  · exact congrArg Host.Outcome.next (if_pos (by simp [hu, h1]))
  · exact congrArg Host.Outcome.next (if_pos (by simp [hu, h1]))
  · exact congrArg Host.Outcome.next (if_pos (by simpa [hu] using h12))
  · have hq := (s.setBayCh chan { s.bayCh chan with backoff := none }).queueUnit_single chan
    have hex : exec (.backoffExpiry chan) s = .next ((s.setBayCh chan { s.bayCh chan with backoff := none }).queueUnit [chan.val]) := by
      refine congrArg Host.Outcome.next ((if_pos (by simp [hu, hd, h3, hb])).trans ?_)
      rw [State.backoffExpiry, State.retryDue_none hl]
    refine ⟨_, hex, hq.1, ?_⟩
    rw [State.bayCh, hq.2]
    exact State.bayCh_setBayCh _ _ _
  · have hex : exec (.backoffExpiry chan) s =
        .next (((s.setBayCh chan { s.bayCh chan with backoff := none }).bayOff chan).bayEvent chan e) := by
      refine congrArg Host.Outcome.next ((if_pos (by simp [hu, hd, h3, hb])).trans ?_)
      rw [State.backoffExpiry, State.retryDue_some hl]
    exact ⟨_, hex, by simp, State.flag_bayEvent _ _ _⟩
  · show execPrsChg chan true s = execPrsChg chan false s
    rw [execPrsChg, execPrsChg, hr]
    rfl
  · show execFlt chan true s = execFlt chan false s
    rw [execFlt, execFlt, hr]
    rfl
  · exact State.execPrsChg_counted hu hr (BayIn.change_counts hm hl hc)
  · have hex := State.execPrsChg_masked hu hr (BayIn.change_masks hm hl hc)
    exact ⟨_, hex, State.flag_bayEvent _ _ _, by simp, by simp⟩
  · have hex := State.execFlt_active hu hr hmode (BayIn.change_counts hm hl hc) (by simp [BayIn.active, hpol]) hst
    refine ⟨_, hex, ?_, fun hact => ?_, fun hact => ?_, fun hact => ?_⟩
    · split
      · rw [State.flag_bayTrip_event _ _ _ (by decide) (by decide) (by decide)]
        exact State.flag_bayEvent _ _ _
      · split <;> exact State.flag_bayEvent _ _ _
    · simp [hact]
    · rw [if_pos hact, State.bayCh_bayTrip]
      simp only [State.bayCh_bayEvent, State.bayCh_setBayCh, BayCh.tripped]
      split <;> rfl
    · simp [hact]
  · exact (if_neg (by simp [hu, hm])).trans rfl
  · exact congrArg Host.Outcome.next (if_pos hg)
  · have hex : exec (.bayUv g) s = .next (((List.range 16).map (· + 16 * g.val)).foldl State.uvChan
        (s.setReg kVb12 (setBit (s.reg kVb12) g false))) := if_neg (by simp [hg, hv])
    refine ⟨_, hex, ?_, fun m hm => State.uvDone_foldl _ _ (.inl ?_), fun m hm => ?_⟩
    · exact foldl_leaves State.mem _ State.mem_uvChan _ _
    · exact List.mem_map.mpr ⟨m % 16, by simp; omega, by omega⟩
    · refine (State.bayCh_foldl_uvChan _ _ fun h => hm ?_).trans rfl
      obtain ⟨i, hi, rfl⟩ := List.mem_map.mp h
      have hi := List.mem_range.mp hi
      omega

end Sys2Proof.Machine
end

section
/-! PROOFS. The snoop hub: what a request does to the copies of a line. -/
namespace Sys2Proof.Machine

/-! ### Regions by lines -/

theorem spar_bounds {a n : Nat} (h : regionOf a = .spar n) :
    0x10000000 ≤ a ∧ a < 0x10800000 ∧ n = (a - 0x10000000) / 0x80000 := by
  unfold regionOf at h
  split at h <;> try contradiction
  split at h <;> try contradiction
  split at h
  · next hs => exact ⟨hs.1, hs.2, by simpa using h.symm⟩
  · repeat' split at h
    all_goals contradiction

theorem spar_of_line {a : Nat} (h : 0x10000000 ≤ a) : (a / 32 * 32 - 0x10000000) / 0x80000 = (a - 0x10000000) / 0x80000 := by
  omega

/-- The region of a spar bank is made of whole lines. -/
theorem regionOf_lineOf_spar {a n : Nat} (h : regionOf a = .spar n) : regionOf (lineOf a) = .spar n := by
  obtain ⟨h1, h2, rfl⟩ := spar_bounds h
  unfold regionOf lineOf
  rw [if_neg (by omega), if_neg (by omega), if_pos (by omega), spar_of_line h1]

/-! ### Lines of one core -/

theorem Core.line_putLine (c : Core) (l : Line) : (c.putLine l).line l.addr = some l := by
  simp [Core.line, Core.putLine]

theorem Core.line_dropLine (c : Core) (la : Nat) : (c.dropLine la).line la = none := by
  simp [Core.line, Core.dropLine, List.find?_eq_none]

theorem Core.addr_of_line {c : Core} {la : Nat} {l : Line} (h : c.line la = some l) : l.addr = la := by
  simpa using List.find?_some h

@[simp] theorem State.core_wrBytes (s : State) (a : Nat) (l : List Byte) (d : Nat) : (s.wrBytes a l).core d = s.core d :=
  (congrArg (fun t : State => t.core d) (s.wrBytes_eq a l)).trans rfl

@[simp] theorem State.core_writeBack (s : State) (l : Line) (d : Nat) : (s.writeBack l).core d = s.core d :=
  s.core_wrBytes _ _ d

/-! ### The eviction buffers -/

section
variable (s : State) (c la : Nat)

/-- A notice changes the eviction buffer of its own core and no cache. -/
theorem State.dc_notice (d : Nat) : ((s.notice c la).core d).dc = (s.core d).dc := by
  unfold State.notice
  split
  · rfl
  · by_cases h : c = d
    · subst h; simp
    · rw [State.core_setCore_other _ _ _ _ h, State.core_writeBack]

theorem State.core_notice_other {d : Nat} (h : c ≠ d) : (s.notice c la).core d = s.core d := by
  unfold State.notice
  split
  · rfl
  · rw [State.core_setCore_other _ _ _ _ h, State.core_writeBack]

theorem State.dc_snoopEb (d : Nat) : ((s.snoopEb c la).core d).dc = (s.core d).dc := by
  unfold State.snoopEb
  split
  · exact s.dc_notice c la d
  · rfl

theorem State.dc_foldl_snoopEb (l : List Nat) (d : Nat) : ((l.foldl (fun s k => s.snoopEb k la) s).core d).dc = (s.core d).dc :=
  foldl_leaves (fun s => (s.core d).dc) _ (fun s k => s.dc_snoopEb k la d) l s

/-! ### Snoops -/

/-- What a snoop leaves of a line in a core that it meets. -/
def Core.snooped (inval : Bool) (la : Nat) (x : Core) : Prop :=
  (inval = true → x.line la = none) ∧ (x.line la).elim false (·.dirty) = false

theorem Core.snooped_of_dc {inval : Bool} {la : Nat} {x y : Core} (h : x.dc = y.dc) (hy : y.snooped inval la) : x.snooped inval la := by
  unfold Core.snooped Core.line at *
  rwa [h]

theorem Core.snooped_of_none {inval : Bool} {la : Nat} {x : Core} (h : x.line la = none) : x.snooped inval la :=
  ⟨fun _ => h, by rw [h]; rfl⟩

theorem Core.line_shared (x : Core) (la : Nat) :
    ((({ x with dc := x.dc.map (fun l => if l.addr = la then { l with dirty := false } else l) } : Core)).line la).elim false (·.dirty) =
      false := by
  simp only [Core.line]
  induction x.dc with
  | nil => rfl
  | cons l t ih =>
    rw [List.map_cons, List.find?_cons]
    by_cases h : l.addr = la
    · simp [h]
    · have hl : (l.addr == la) = false := by simpa using h
      simp only [h, if_false, hl]
      exact ih

theorem State.snooped_snoop (inval : Bool) : ((s.snoop inval la c).core c).snooped inval la := by
  unfold State.snoop
  split
  · next h => exact Core.snooped_of_none h
  · cases inval with
    | true => simpa using Core.snooped_of_none (Core.line_dropLine _ _)
    | false => simpa [Core.snooped] using Core.line_shared _ _

theorem State.core_snoop_other (inval : Bool) {d : Nat} (h : c ≠ d) : (s.snoop inval la c).core d = s.core d := by
  unfold State.snoop
  split
  · rfl
  · rw [State.core_setCore_other _ _ _ _ h]
    split
    · exact State.core_writeBack _ _ _
    · rfl

/-- After its snoops no core but the requester holds more than they leave. -/
theorem State.snooped_foldl (inval : Bool) (l : List Nat) {d : Nat} (h : d ∈ l ∨ (s.core d).snooped inval la) :
    ((l.foldl (fun s k => (s.snoopEb k la).snoop inval la k) s).core d).snooped inval la := by
  induction l generalizing s with
  | nil => exact h.resolve_left List.not_mem_nil
  | cons k t ih =>
    refine ih _ ?_
    by_cases hk : k = d
    · exact .inr (hk ▸ State.snooped_snoop _ _ _ _)
    · refine h.imp (fun h => (List.mem_cons.mp h).resolve_left (Ne.symm hk)) fun h => ?_
      rw [State.core_snoop_other _ _ _ _ hk]
      exact Core.snooped_of_dc (s.dc_snoopEb k la d) h

theorem mem_otherCores {c d : Nat} : d ∈ otherCores c ↔ d < 5 ∧ d ≠ c := by simp [otherCores]

theorem State.snooped_snoopAll (inval : Bool) {d : Nat} (hd : d < 5) (hc : d ≠ c) : ((s.snoopAll inval c la).core d).snooped inval la :=
  s.snooped_foldl la inval _ (.inl (mem_otherCores.mpr ⟨hd, hc⟩))

/-- Where no core has the line or anything to evict, the snoops find nothing. -/
theorem State.snoopAll_absent (inval : Bool) (h : ∀ d, d < 5 → (s.core d).line la = none ∧ (s.core d).eb = []) :
    s.snoopAll inval c la = s := by
  have hstep (k : Nat) (hk : k < 5) : (s.snoopEb k la).snoop inval la k = s := by
    obtain ⟨hl, he⟩ := h k hk
    simp [State.snoopEb, State.snoop, he, hl]
  have hfold (l : List Nat) (hl : ∀ k ∈ l, k < 5) : l.foldl (fun s k => (s.snoopEb k la).snoop inval la k) s = s := by
    induction l with
    | nil => rfl
    | cons k t ih =>
      rw [List.foldl_cons, hstep k (hl k List.mem_cons_self)]
      exact ih (fun j hj => hl j (List.mem_cons_of_mem _ hj))
  exact hfold _ (fun k hk => (mem_otherCores.mp hk).1)

/-! ### A line enters a cache -/

theorem State.core_ebRoom_other {d : Nat} (h : c ≠ d) : (s.ebRoom c).core d = s.core d := by
  unfold State.ebRoom
  split
  · exact s.core_notice_other _ _ h
  · rfl

theorem State.core_install_other (l : Line) {d : Nat} (h : c ≠ d) : (s.install c l).core d = s.core d := by
  unfold State.install
  dsimp only
  split
  · split
    · exact State.core_setCore_other _ _ _ _ h
    · rw [State.core_setCore_other _ _ _ _ h]
      split
      · exact s.core_ebRoom_other c h
      · rfl
  · exact State.core_setCore_other _ _ _ _ h

theorem State.line_install (l : Line) : ((s.install c l).core c).line l.addr = some l := by
  unfold State.install
  dsimp only
  split
  · split
    · simpa using Core.line_putLine _ _
    · simpa using Core.line_putLine _ _
  · simpa using Core.line_putLine _ _

end

/-! ### The requests of Table 9-2 -/

theorem lineOf_lineOf (a : Nat) : lineOf (lineOf a) = lineOf a := by unfold lineOf; omega

section
variable (s : State) (c la : Nat)

theorem State.readMiss_spar {n : Nat} (h : regionOf la = .spar n) : s.readMiss c la =
    let s1 := ((s.countC2C c la).snoopAll false c la).notice c la
    s1.install c { addr := la, dirty := false, data := s1.rdBytes la 32 } := by
  simp only [State.readMiss, h]

theorem State.ncRead_spar {a : Nat} (k : Nat) {n : Nat} (h : regionOf a = .spar n) :
    s.ncRead a k = ((s.snoopAll false noCore (lineOf a)).rdBytes a k, s.snoopAll false noCore (lineOf a)) := by
  simp only [State.ncRead, h]

theorem State.ncWrite_spar {a : Nat} (bs : List Byte) {n : Nat} (h : regionOf a = .spar n) :
    s.ncWrite a bs = (s.snoopAll true noCore (lineOf a)).wrBytes a bs := by
  simp only [State.ncWrite, h]

end

/-- OWN drops the line from every other cache. -/
theorem State.core_dropAll (l : List Nat) (s : State) {la d : Nat} (h : d ∈ l ∨ (s.core d).line la = none) :
    ((l.foldl (fun s k => s.setCore k ((s.core k).dropLine la)) s).core d).line la = none := by
  induction l generalizing s with
  | nil => exact h.resolve_left List.not_mem_nil
  | cons k t ih =>
    refine ih _ ?_
    by_cases hk : k = d
    · subst hk; exact .inr (by simpa using Core.line_dropLine _ _)
    · refine h.imp (fun h => (List.mem_cons.mp h).resolve_left (Ne.symm hk)) fun h => ?_
      rwa [State.core_setCore_other _ _ _ _ hk]

theorem State.own_owner (s : State) (c la : Nat) : ∃ l, ((s.own c la).core c).line la = some l ∧ l.dirty = true := by
  unfold State.own
  dsimp only
  split
  · next l hl =>
    obtain rfl := Core.addr_of_line hl
    exact ⟨_, by rw [State.core_setCore]; exact Core.line_putLine _ { l with dirty := true }, rfl⟩
  · exact ⟨_, State.line_install _ _ _, rfl⟩

theorem State.own_other (s : State) {c d : Nat} (la : Nat) (hd : d < 5) (hc : d ≠ c) : ((s.own c la).core d).line la = none := by
  unfold State.own
  dsimp only
  split
  · rw [State.core_setCore_other _ _ _ _ hc.symm]
    exact State.core_dropAll _ _ (.inl (mem_otherCores.mpr ⟨hd, hc⟩))
  · rw [State.core_install_other _ _ _ hc.symm]
    exact State.core_dropAll _ _ (.inl (mem_otherCores.mpr ⟨hd, hc⟩))

theorem State.readMiss_owner (s : State) (c : Nat) {la n : Nat} (h : regionOf la = .spar n) :
    ∃ l, ((s.readMiss c la).core c).line la = some l ∧ l.dirty = false := by
  rw [s.readMiss_spar c la h]
  exact ⟨_, State.line_install _ _ _, rfl⟩

theorem State.readMiss_other (s : State) {c d la n : Nat} (h : regionOf la = .spar n) (hd : d < 5) (hc : d ≠ c) :
    (((s.readMiss c la).core d).line la).elim false (·.dirty) = false := by
  rw [s.readMiss_spar c la h]
  dsimp only
  rw [State.core_install_other _ _ _ hc.symm, State.core_notice_other _ _ _ hc.symm]
  exact (State.snooped_snoopAll _ _ _ _ hd hc).2

theorem State.writeThrough_other (s : State) {c d : Nat} (a : Nat) (bs : List Byte) (hd : d < 5) (hc : d ≠ c) :
    ((s.writeThrough c a bs).core d).line (lineOf a) = none := by
  have hsn : (((s.snoopAll true c (lineOf a)).notice c (lineOf a)).core d).line (lineOf a) = none := by
    rw [State.core_notice_other _ _ _ hc.symm]
    exact (State.snooped_snoopAll _ _ _ _ hd hc).1 rfl
  unfold State.writeThrough
  dsimp only
  rw [State.core_wrBytes]
  split
  · rwa [State.core_setCore_other _ _ _ _ hc.symm]
  · exact hsn

/-- The bytes of a write are there afterwards. -/
theorem State.rd_wrBytes_getD (s : State) (a : Nat) (l : List Byte) {i : Nat} (h : i < l.length) :
    (s.wrBytes a l).rd (a + i) = l.getD i 0#8 := by
  rw [s.rd_wrBytes_inside a i l h]
  simp [h]

/-- A notice with one entry to evict writes it. -/
theorem State.notice_single {s : State} {c : Nat} {l : Line} (h : (s.core c).eb = [l]) :
    s.notice c l.addr = (s.writeBack l).setCore c { s.core c with eb := [] } := by
  simp [State.notice, h]

/-- A region of a spar bank, from the check that its bank is powered. -/
theorem State.spar_of_sparOk {s : State} {a : Nat} (h : s.sparOk a = true) : ∃ n, regionOf a = .spar n := by
  unfold State.sparOk at h
  split at h
  · exact ⟨_, by assumption⟩
  · contradiction

theorem State.spar_of_hubOk {s : State} {c a : Nat} (h : s.hubOk c a = true) : ∃ n, regionOf a = .spar n :=
  State.spar_of_sparOk (s := s) (Bool.and_eq_true_iff.mp h).2

/-- Settles O34: what each request leaves of a line in the requester, in the other cores and in the bank. -/
theorem hubRequestsKeepOneOwner : Obligations.HubRequestsKeepOneOwner := by
  unfold Obligations.HubRequestsKeepOneOwner
  intro core addr s
  dsimp only
  refine ⟨fun hok => ?_, fun hok => ?_, fun data hok hlen => ?_, fun hok => ?_, fun data hok hlen => ?_, fun l hok heb hl => ?_⟩
  · obtain ⟨l, hl, hd⟩ := s.own_owner core (lineOf addr.toNat)
    exact ⟨_, l, congrArg Host.Outcome.next (if_pos hok), hl, hd, fun d hd hc => s.own_other _ hd hc⟩
  · obtain ⟨n, hn⟩ := State.spar_of_hubOk hok
    have hla := regionOf_lineOf_spar hn
    obtain ⟨l, hl, hd⟩ := s.readMiss_owner core hla
    exact ⟨_, l, congrArg Host.Outcome.next (if_pos hok), hl, hd, fun d hd hc => s.readMiss_other hla hd hc⟩
  · refine ⟨_, congrArg Host.Outcome.next (if_pos (by simpa [hok] using hlen)), fun i hi => State.rd_wrBytes_getD _ _ _ hi,
      fun d hd hc => s.writeThrough_other _ _ hd hc⟩
  · obtain ⟨n, hn⟩ := State.spar_of_sparOk hok
    have hex : exec (.nonCachingRead addr) s = .next (s.ncRead addr.toNat 8).2 := congrArg Host.Outcome.next (if_pos hok)
    have hread : (s.ncRead addr.toNat 8).2 = s.snoopAll false noCore (lineOf addr.toNat) := by rw [s.ncRead_spar 8 hn]
    rw [hread] at hex
    exact ⟨_, hex, fun d hd => (s.snooped_snoopAll noCore (lineOf addr.toNat) false hd (Nat.ne_of_lt hd)).2⟩
  · obtain ⟨n, hn⟩ := State.spar_of_sparOk hok
    have hex : exec (.nonCachingWrite addr data) s = .next (s.ncWrite addr.toNat data) :=
      congrArg Host.Outcome.next (if_pos (by simpa [hok] using hlen))
    rw [s.ncWrite_spar data hn] at hex
    refine ⟨_, hex, fun i hi => State.rd_wrBytes_getD _ _ _ hi, fun d hd => ?_, fun hno b hb => ?_⟩
    · rw [State.core_wrBytes]
      exact (s.snooped_snoopAll noCore (lineOf addr.toNat) true hd (Nat.ne_of_lt hd)).1 rfl
    · rw [s.snoopAll_absent noCore _ true hno, s.rd_wrBytes_outside _ _ _ hb]
  · have hex : exec (.evictionNotice core addr) s = .next ((s.writeBack l).setCore core { s.core core with eb := [] }) :=
      congrArg Host.Outcome.next ((if_pos hok).trans (hl ▸ State.notice_single heb))
    rw [← hl]
    refine ⟨_, hex, by simp, fun i hi => State.rd_wrBytes_getD _ _ _ hi, fun b hb => s.rd_wrBytes_outside _ _ _ hb, ?_⟩
    exact (congrArg State.regs (s.wrBytes_eq l.addr l.data)).trans rfl

end Sys2Proof.Machine
end

section
/-! PROOFS. The bay serial ports. -/
namespace Sys2Proof.Machine

/-- A write of a master without a cache to a spar bank lands. -/
theorem State.rdBytes_memWrite_spar {s : State} {a : Nat} (bs : List Byte) (h : s.sparOk a = true) :
    ∀ u : State, (u.memWrite a bs).rdBytes a bs.length = bs := by
  intro u
  obtain ⟨n, hn⟩ := State.spar_of_sparOk h
  have hw : u.memWrite a bs = u.ncWrite a bs := by simp only [State.memWrite, hn]
  rw [hw, u.ncWrite_spar bs hn, State.rdBytes_wrBytes]

theorem commandReg_bayuTx : ∀ n : Fin 128, commandReg (0x40030014 + 0x100 * n) 0x18 [fV 0 8] = true ∧
    0x40030014 + 0x100 * n - blockBase 0x18 = 0x100 * n.val + 0x14 := by decide

/-- R311: a write to the transmit register of a port whose group is released. -/
theorem State.regCommand_bayuTx {s : State} (chan : Fin 128) (ha : s.aon = true) (h5 : s.isUp 5 = true) (hu : s.bayUp chan = true)
    (data : Byte) : s.regCommand (0x40030014 + 0x100 * chan) data.toNat =
      ({ s with bay := { s.bay with lastBayu := chan } } : State).portTx chan data.toNat := by
  obtain ⟨hc, ho⟩ := commandReg_bayuTx chan
  have hb : blockOf (0x40030014 + 0x100 * chan) = some 0x18 := (of_decide_eq_true (Bool.and_eq_true_iff.mp hc).1).1
  have hon := State.blockOn_bay ha chan.isLt hu (.inr rfl)
  have hr := reservedEntry_of_lt 0x18 (fl := [fV 0 8]) (v := data.toNat) (k := 8) data.isLt (by decide) (by decide)
  have hand : data.toNat &&& 0xFFFFFFFF = data.toNat := (Nat.and_two_pow_sub_one_eq_mod _ 32).trans (Nat.mod_eq_of_lt (by omega))
  have hdom : 55 + (0x100 * chan.val + 0x14) / 0x1000 = 55 + chan.val / 16 := by omega
  have hreg : s.regOn (0x40030014 + 0x100 * chan) = true := by
    simp only [State.regOn, hb, hon, ho, hdom]
    have hg : s.isUp (55 + chan.val / 16) = true := hu
    simp [hg]
  have hw : wroteAt (commandWrites (0x40030014 + 0x100 * chan) data.toNat [fV 0 8]) 0 = some data.toNat := by
    rw [wroteAt_commandWrites _ _ _ (by decide)]
    rw [hand]
    simp [fV, bits]
    omega
  have hlow : 0x100 * chan.val + 0x14 < 0x8000 := by omega
  have hn : (0x100 * chan.val + 0x14) / 0x100 = chan := by omega
  have hm : (0x100 * chan.val + 0x14) % 0x100 = 0x14 := by omega
  rw [s.regCommand_command hc hr (by simp [State.addrOn, hb, hon]) hreg h5, ho]
  refine (show _ = s.bayuAct _ _ from rfl).trans ?_
  unfold State.bayuAct
  rw [if_pos hlow, hn, hm, hw] <;> rfl

/-- A read of a port's receive register takes the oldest word. -/
theorem State.busRead_bayuRx (s : State) (chan : Fin 128) : s.busRead 0 (0x40030010 + 0x100 * chan) = s.portRx chan := by
  have ha : ∀ chan : Fin 128, aliasAddr 0 (0x40030010 + 0x100 * chan) = 0x40030010 + 0x100 * chan.val ∧
      blockOf (0x40030010 + 0x100 * chan) = some 0x18 := by decide
  obtain ⟨hal, hb⟩ := ha chan
  have hx : crossesXt1 0x18 = false := rfl
  have h1 : 0x40030010 + 0x100 * chan.val - 0x40030000 < 0x8000 := by omega
  have h2 : (0x40030010 + 0x100 * chan.val) % 0x100 = 0x10 := by omega
  have h3 : (0x40030010 + 0x100 * chan.val - 0x40030000) / 0x100 = chan := by omega
  simp [State.busRead, hal, hb, hx, h1, h2, h3]

theorem State.portRx_cons {s : State} {n w : Nat} {rest : List Nat} (h : (s.port n).rx = w :: rest) :
    s.portRx n = (w, s.setPort n { s.port n with rx := rest }) := by
  simp only [State.portRx, h]

theorem State.portRx_nil {s : State} {n : Nat} (h : (s.port n).rx = []) : s.portRx n = (0x80000000, s) := by
  simp only [State.portRx, h]

/-- R311: a clean character's word is the character. -/
theorem rxWord_clean (fmt data : Nat) : rxWord fmt data false false = data := by simp [rxWord, ofBool]

/-- R310: an idle transmitter with an empty FIFO stays idle. -/
theorem BayuCh.take_nil {p : BayuCh} (en : Bool) (h : p.tx = []) : p.take en = p := by
  unfold BayuCh.take
  split
  · next hc => rw [h] at hc; contradiction
  · rfl

theorem BayuCh.take_cons {p : BayuCh} {w : Nat} {rest : List Nat} (h : p.tx = w :: rest) (hs : p.shifting = none) :
    p.take true = { p with shifting := some w, tx := rest } := by
  simp [BayuCh.take, h, hs]

/-- R311, R313: a clean character at an enabled port whose receiver takes it. -/
theorem exec_characterReceived {s : State} {chan : Fin 128} (hu : s.bayUp chan = true) (hen : s.flag (kBayu chan 0 0) = true)
    (hr : s.bayRing chan = true) (hm : s.flag (kBayu chan 0 1) = false ∨ (s.port chan).shifting.isSome = true) (data : Byte) :
    exec (.characterReceived chan data false false) s = .next (
      if s.rxAdmitted chan then
        if 16 ≤ (s.port chan).rx.length then s.count (kBayu chan 0x1C 0) 8 1
        else s.setPort chan { s.port chan with rx := (s.port chan).rx ++ [data.toNat] }
      else s.count (fk (0x40038010 + 4 * (chan.val / 16)) 0) 16 1) := by
  refine (if_neg ?_).trans ?_
  · rcases hm with hm | hm
    · simp [hu, hen, hr, hm]
    · simp [hu, hen, hr, hm]
  · by_cases had : s.rxAdmitted chan = true
    · rw [if_pos had]
      refine (if_neg (by simp [had])).trans (congrArg Host.Outcome.next ?_)
      simp only [hr, if_true, rxWord_clean, ite_self, Bool.and_false, Bool.false_eq_true, if_false]
    · rw [if_neg had]
      exact if_pos (by simpa using had)

/-- R314: a received word that the ring has room for, with the bank powered and granted. -/
theorem State.execBayuRingMove_moves {s u : State} {chan : Fin 128} {w : Nat} {rest : List Nat} (hp : (s.port chan).rx = w :: rest)
    (hu : s.bayUp chan = true) (hl : s.reg (kBayu chan 4 0) ≠ 0) (hg : s.reef1Leave.useArb 19 (plainReq 1 1) = some u)
    (hroom : ((s.port chan).head + 65536 - s.reg (kBayu chan 8 0)) % 65536 < 2 ^ s.reg (kBayu chan 4 0))
    (hok : s.sparOk (s.reg (kBayu chan 4 6) * 64 + 2 * ((s.port chan).head % 2 ^ s.reg (kBayu chan 4 0))) = true) :
    execBayuRingMove chan s = .next
      ((u.memWrite (s.reg (kBayu chan 4 6) * 64 + 2 * ((s.port chan).head % 2 ^ s.reg (kBayu chan 4 0))) (leBytes w 2)).setPort chan
        { s.port chan with rx := rest, head := ((s.port chan).head + 1) % 65536 }) := by
  unfold execBayuRingMove
  dsimp only
  rw [hp, hg]
  exact if_neg (by simp [hu, hl, hroom, hok])

theorem State.addrOn_bayu {s : State} (chan : Fin 128) (ha : s.aon = true) (hu : s.bayUp chan = true) :
    s.addrOn (0x40030010 + 0x100 * chan) = true := by
  have hb : ∀ chan : Fin 128, blockOf (0x40030010 + 0x100 * chan) = some 0x18 := by decide
  simp [State.addrOn, hb chan, State.blockOn_bay ha chan.isLt hu (.inr rfl)]

/-- Settles O43: each command and event of a port on its FIFOs, its counters and its ring. -/
theorem baySerialPorts : Obligations.BaySerialPorts := by
  unfold Obligations.BaySerialPorts
  intro chan s
  dsimp only
  refine ⟨fun ha h5 hu data => ⟨fun hl => ?_, fun hl => ?_⟩, fun ha hu => ⟨fun w rest hp => ?_, fun hp => ?_⟩,
    fun hu hen hr hm data => ⟨fun had hl => ?_, fun had hl => ?_, fun had => ?_⟩, fun hr hm => ⟨fun data pe fe => ?_, ?_⟩,
    fun hu hr hen hm had => ?_, fun ch hu hsh => ⟨fun ht => ?_, fun w rest ht hen => ?_⟩, fun w rest u hp hu hl hg hroom hok => ?_,
    fun g hg => ?_⟩
  · refine congrArg Host.Outcome.next ((State.regCommand_bayuTx chan ha h5 hu data).trans ((if_neg (Nat.not_le.mpr hl)).trans ?_))
    rw [Nat.mod_eq_of_lt data.isLt]
    rfl
  · exact congrArg Host.Outcome.next ((State.regCommand_bayuTx chan ha h5 hu data).trans (if_pos hl))
  · refine congrArg Host.Outcome.next ((if_pos (State.addrOn_bayu chan ha hu)).trans ?_)
    rw [s.busRead_bayuRx, State.portRx_cons hp]
  · refine congrArg Host.Outcome.next ((if_pos (State.addrOn_bayu chan ha hu)).trans ?_)
    rw [s.busRead_bayuRx, State.portRx_nil hp]
  · rw [exec_characterReceived hu hen hr hm, if_pos had, if_neg (Nat.not_le.mpr hl)]
  · rw [exec_characterReceived hu hen hr hm, if_pos had, if_pos hl]
  · rw [exec_characterReceived hu hen hr hm, if_neg (by simp [had])]
  · exact if_pos (by simp [hr, hm])
  · exact congrArg Host.Outcome.next (if_neg (by simp [hr]))
  · exact congrArg Host.Outcome.next (if_pos (by simp [hu, hr, hen, hm, had]))
  · exact congrArg Host.Outcome.next ((if_pos (by simp [hu, hsh])).trans (congrArg _ (BayuCh.take_nil _ ht)))
  · refine congrArg Host.Outcome.next ((if_pos (by simp [hu, hsh])).trans (congrArg _ ?_))
    rw [hen]
    exact BayuCh.take_cons (p := { s.port chan with shifting := none }) ht rfl
  · have hex : exec (.bayuRingMove chan) s = .next ((u.memWrite _ (leBytes w 2)).setPort chan
        { s.port chan with rx := rest, head := ((s.port chan).head + 1) % 65536 }) := State.execBayuRingMove_moves hp hu hl hg hroom hok
    refine ⟨_, hex, ?_, by simp, by simp⟩
    exact (State.rdBytes_memWrite_spar (leBytes w 2) hok u)
  · exact congrArg Host.Outcome.next (if_pos hg)

end Sys2Proof.Machine
end

section
/-! PROOFS. Registers of LIVE fields: a word written to one sets each field that its range lets through. -/
namespace Sys2Proof.Machine

/-- A read-write field that takes effect at once and whose range is its own. -/
def Fld.atOnce (f : Fld) : Bool := decide (f.ty = .rw ∧ f.cls ≠ .frame ∧ f.cls ≠ .stopped ∧ f.rng ≠ .dep ∧ f.lo + f.w ≤ 32 ∧ f.lo < 32 ∧
  f.mask &&& 0xFFFFFFFF ≠ 0)

/-- What a word asks of one such field, if its range lets anything through. -/
def fieldWrite (a v : Nat) (f : Fld) : List (Key × Nat) := (f.rng.check (bits v f.lo f.w)).1.elim [] (fun x => [(fk a f.lo, x)])

/-- A field below bit 32 does not see what stands above it. -/
theorem bits_add_high {v n lo w : Nat} (h : lo + w ≤ 32) : bits (v + n * 2 ^ 32) lo w = bits v lo w := by
  obtain ⟨k, hk⟩ : ∃ k, n * 2 ^ 32 = k * 2 ^ (lo + w) :=
    ⟨n * 2 ^ (32 - (lo + w)), by rw [Nat.mul_assoc, ← Nat.pow_add, Nat.sub_add_cancel h]⟩
  unfold bits
  rw [hk, Nat.pow_add, ← Nat.mul_assoc, Nat.mul_right_comm, Nat.add_mul_div_right _ _ (Nat.two_pow_pos lo), Nat.add_mul_mod_self_right]

theorem checkField_atOnce (s : State) {f : Fld} (hf : f.atOnce = true) (ws : List (Key × Nat)) (b o v : Nat) :
    s.checkField ws b o f v = f.rng.check v := by
  obtain ⟨hty, -, hcls, hrng, -⟩ := of_decide_eq_true hf
  exact State.checkField_range (.inl hty) (fun h => hcls h.1) rfl hrng

theorem fldOf_fk {a b lo : Nat} {fl : List Fld} (hb : blockOf a = some b) (hreg : regDef b (a - blockBase b) = some fl) (hlo : lo < 32) :
    fldOf (fk a lo) = fl.find? (fun f => f.lo = lo) := by
  have ha : keyAddr (fk a lo) = a := by simp only [keyAddr, fk]; omega
  simp only [fldOf, fldsAt, ha, hb, hreg, Option.getD_some, keyLo_fk a hlo]

/-- The checks of a word written to a register of such fields. -/
theorem State.checkWord_atOnce (s : State) {a b v : Nat} {fl : List Fld} (hreg : regDef b (a - blockBase b) = some fl)
    (ha : blockBase b + (a - blockBase b) = a) (hall : ∀ f ∈ fl, f.atOnce = true) (hv : v < 2 ^ 32) :
    (s.checkWord b (a - blockBase b) v 0xFFFFFFFF).ws = fl.flatMap (fieldWrite a v) := by
  have hmask : v &&& 0xFFFFFFFF = v := (Nat.and_two_pow_sub_one_eq_mod v 32).trans (Nat.mod_eq_of_lt hv)
  have hold (n : Nat) : n - (n &&& 0xFFFFFFFF) = n / 2 ^ 32 * 2 ^ 32 := by
    rw [show n &&& 0xFFFFFFFF = n % 2 ^ 32 from Nat.and_two_pow_sub_one_eq_mod n 32]
    omega
  have hadd (g : Checked → Fld → Checked) (hg : ∀ f ∈ fl, ∀ c, (g c f).ws = c.ws ++ fieldWrite a v f) (c : Checked) :
      (fl.foldl g c).ws = c.ws ++ fl.flatMap (fieldWrite a v) := by
    clear hreg hall
    induction fl generalizing c with
    | nil => simp
    | cons f t ih =>
      rw [List.foldl_cons, ih (fun f hf => hg f (List.mem_cons_of_mem _ hf)), hg f List.mem_cons_self]
      simp
  unfold State.checkWord
  simp only [hreg, Option.getD_some]
  refine (hadd _ (fun f hf c => ?_) {}).trans (List.nil_append _)
  have hf := hall f hf
  obtain ⟨-, -, -, -, hw, -, hm⟩ := of_decide_eq_true hf
  rw [if_neg (by simp [hm]), State.checkInto_ws, checkField_atOnce s hf, hmask, hold, bits_add_high hw, ha]
  rfl

theorem State.foldl_fieldWrite (s : State) {a : Nat} {f : Fld} (v : Nat) (hf : f.atOnce = true) (ho : fldOf (fk a f.lo) = some f) :
    (fieldWrite a v f).foldl State.applyField s =
      (f.rng.check (bits v f.lo f.w)).1.elim s (fun x => s.setReg (fk a f.lo) x) := by
  obtain ⟨hty, hcls, -⟩ := of_decide_eq_true hf
  unfold fieldWrite
  cases (f.rng.check (bits v f.lo f.w)).1 with
  | none => rfl
  | some x => simp [State.applyField, ho, hty, hcls]

theorem key_of_fieldWrite {a v : Nat} {f : Fld} {w : Key × Nat} (hw : w ∈ fieldWrite a v f) : w.1 = fk a f.lo := by
  unfold fieldWrite at hw
  cases hx : (f.rng.check (bits v f.lo f.w)).1 with
  | none => rw [hx] at hw; contradiction
  | some x =>
    rw [hx] at hw
    obtain rfl : w = (fk a f.lo, x) := by simpa using hw
    rfl

/-- Each field of the register then holds what its range let through, or what it held. -/
theorem State.reg_foldl_fieldWrite (fl : List Fld) (s : State) {a v : Nat} (hall : ∀ f ∈ fl, f.atOnce = true ∧ fldOf (fk a f.lo) = some f)
    (hd : (fl.map (·.lo)).Nodup) {f : Fld} (hf : f ∈ fl) :
    ((fl.flatMap (fieldWrite a v)).foldl State.applyField s).reg (fk a f.lo) =
      (f.rng.check (bits v f.lo f.w)).1.getD (s.reg (fk a f.lo)) := by
  have hother (g h : Fld) (hne : g.lo ≠ h.lo) : ∀ w ∈ fieldWrite a v g, w.1 ≠ fk a h.lo := by
    intro w hw
    rw [key_of_fieldWrite hw]
    simp only [fk, ne_eq, Nat.add_left_cancel_iff]
    exact hne
  induction fl generalizing s with
  | nil => contradiction
  | cons g t ih =>
    obtain ⟨hg, hog⟩ := hall g List.mem_cons_self
    obtain ⟨hnot, hdt⟩ := List.nodup_cons.mp hd
    rw [List.flatMap_cons, List.foldl_append]
    rcases List.mem_cons.mp hf with rfl | hf
    · rw [(State.foldl_applyField _ _).2 _ (fun w hw => ?_), s.foldl_fieldWrite v hg hog]
      · cases (f.rng.check (bits v f.lo f.w)).1 with
        | none => rfl
        | some x => exact State.reg_setReg _ _ _
      · obtain ⟨h, hh, hw⟩ := List.mem_flatMap.mp hw
        exact hother h f (fun he => hnot (List.mem_map.mpr ⟨h, hh, he⟩)) w hw
    · rw [ih _ (fun h hh => hall h (List.mem_cons_of_mem _ hh)) hdt hf, (State.foldl_applyField _ _).2 _ (hother g f fun he =>
        hnot (List.mem_map.mpr ⟨f, hf, he.symm⟩))]

theorem State.foldl_applyField_eq (s : State) (ws : List (Key × Nat)) :
    ∃ r h, ws.foldl State.applyField s = { s with regs := r, shadow := h } := by
  induction ws generalizing s with
  | nil => exact ⟨_, _, rfl⟩
  | cons w ws ih =>
    obtain ⟨r, h, e⟩ := s.applyField_eq w
    obtain ⟨r', h', e'⟩ := ih (s.applyField w)
    rw [List.foldl_cons, e', e]
    exact ⟨_, _, rfl⟩

end Sys2Proof.Machine
end

section
/-! PROOFS. Analogue conversion: sequencers, results, the FIFOs and the rings. -/
namespace Sys2Proof.Machine

theorem State.conv_setConv_other (s : State) (c d : Nat) (x : Conv) (h : c ≠ d) : (s.setConv c x).conv d = s.conv d := by
  simp [State.conv, State.setConv, Tab.get_set_other _ _ _ _ _ h]

/-! ### The result of a conversion (R321, R326–R329) -/

/-- Table 14-1: of the inputs beside the pins and the bays, ground is the eleventh. -/
theorem adcInput_own (k : Nat) : [AdcInput.vstore, .vstby, .vcore, .vret, .vmram, .vio33, .vio18, .vbak, .dieTemperature,
    .halfReference, .ground][k]? = some .ground ↔ k = 10 := by
  have hall : ∀ i : Fin 11, [AdcInput.vstore, .vstby, .vcore, .vret, .vmram, .vio33, .vio18, .vbak, .dieTemperature,
    .halfReference, .ground][i.val]? = some .ground ↔ i.val = 10 := by decide
  by_cases h : k < 11
  · exact hall ⟨k, h⟩
  · rw [List.getElem?_eq_none (Nat.not_lt.mp h)]
    exact ⟨nofun, fun hk => by omega⟩

/-- Analogue ground reads 0 V. -/
theorem Conv.code_seen {x : Conv} (c : Nat) (uv : Int) : adcCode (x.seen c uv) =
    if bits x.w0 0 8 = 0x2A then 0 else min 4095 ((uv + 250).toNat / 500) := by
  have hground : adcInput c (bits x.w0 0 8) = some .ground ↔ bits x.w0 0 8 = 0x2A := by
    generalize bits x.w0 0 8 = v
    unfold adcInput
    split
    · simp; omega
    · split
      · simp; omega
      · split
        · simp; omega
        · rw [adcInput_own]; omega
  unfold Conv.seen
  by_cases h : bits x.w0 0 8 = 0x2A
  · rw [if_pos (hground.mpr h), if_pos h]; rfl
  · rw [if_neg (fun hg => h (hground.mp hg)), if_neg h]; rfl

section
variable {s : State} {c word ring : Nat}

theorem State.putResult_full (h : 8 ≤ (s.adc.fifo.filter (fun f => f.1 == c)).length) :
    s.putResult c word ring = (s.count (fk (0x40010028 + 0x10 * c) 0) 16 1).setConv c { s.conv c with lostBefore := true } :=
  if_pos h

theorem State.putResult_room (h : (s.adc.fifo.filter (fun f => f.1 == c)).length < 8) :
    (s.putResult c word ring).adc.fifo = s.adc.fifo ++ [(c, ring, word + ofBool (s.conv c).lostBefore * 2 ^ 30)] ∧
    (s.putResult c word ring).conv c = { s.conv c with lostBefore := false } ∧
    (s.putResult c word ring).regs = s.regs ∧ (s.putResult c word ring).mem = s.mem := by
  rw [State.putResult, if_neg (Nat.not_le.mpr h)]
  refine ⟨rfl, ?_, rfl, rfl⟩
  rw [State.conv_setConv]
  rfl

end

theorem State.conv_freeBits (s : State) (w c : Nat) : (s.freeBits w).2.conv c = s.conv c := rfl

/-- R323, R326: the end of an entry's conversion that averages nothing, follows none of its result, and is not the entry's last. -/
theorem State.conversion_single {s : State} {c : Nat} (uv : Int) (ha : bits (s.conv c).w0 16 3 = 0) (ht : (s.conv c).taken = 0)
    (hs : (s.conv c).sum = 0) (hst : (s.conv c).stopping = false) (hr : (s.conv c).results ≠ bits (s.conv c).w0 8 8) :
    let x := s.conv c
    let uns := x.unsettled || !s.isUp 54 || !x.beganOk
    ∃ (u : State) (code : Nat), s.conversion c uv =
      u.putResult c (code + x.entry * 4096 + c * 2 ^ 18 + ofBool uns * 2 ^ 31) (bits x.w0 20 2) ∧
      u.adc.fifo = s.adc.fifo ∧ u.regs = s.regs ∧ u.mem = s.mem ∧ (u.conv c).results = x.results + 1 ∧
      (u.conv c).lostBefore = x.lostBefore ∧
      ((uns && s.isUp 54) = false → code = if s.isUp 54 then adcCode (x.seen c uv) else 0) := by
  dsimp only
  have hon : (!!s.isUp 54 || (s.conv c).taken != 0 && (s.conv c).refOn) = s.isUp 54 := by simp [ht]
  have hlt : ¬(s.conv c).taken + 1 < 2 ^ bits (s.conv c).w0 16 3 := by simp [ht, ha]
  have hhalf (n : Nat) : (n + 2 ^ bits (s.conv c).w0 16 3 / 2) / 2 ^ bits (s.conv c).w0 16 3 = n := by simp [ha]
  unfold State.conversion
  simp only [hon, hlt, hst, hr, hhalf, hs, Nat.zero_add, if_false, Bool.false_eq_true]
  generalize hu : ((s.conv c).unsettled || !s.isUp 54 || !(s.conv c).beganOk) = uns
  by_cases hf : (uns && s.isUp 54) = true
  · simp only [hf, if_true]
    exact ⟨_, _, rfl, rfl, rfl, rfl, by simp, by simp [State.conv_freeBits], by simp⟩
  · simp only [hf, if_false, Bool.false_eq_true]
    exact ⟨_, _, rfl, rfl, rfl, rfl, by simp, by simp, by cases s.isUp 54 <;> simp⟩

theorem State.reg_of_regs {s u : State} (h : u.regs = s.regs) (k : Key) : u.reg k = s.reg k := by
  unfold State.reg
  rw [h]

/-! ### Starts and rings (R324, R328) -/

/-- A converter that runs alone starts at entry 0. -/
theorem State.startGroup_single {s : State} {c : Nat} (h : s.lockGroup c = [c]) :
    s.startGroup c = (s.setConv c { s.conv c with stopping := false }).startEntry c 0 := by
  rw [State.startGroup, h]
  rfl

/-- R328: a waiting word that its ring has room for, with the bank powered and granted. -/
theorem State.execAdcRingMove_moves {s u : State} {k r w : Nat} {rest : List (Nat × Nat × Nat)} (hf : s.adc.fifo = (k, r, w) :: rest)
    (hg : s.reef1Leave.useArb 19 (plainReq 0 1) = some u)
    (hroom : (s.reg (fk (0x40010100 + 0x10 * r + 0xC) 0) + 65536 - s.reg (fk (0x40010100 + 0x10 * r + 8) 0)) % 65536 <
      2 ^ s.reg (fk (0x40010100 + 0x10 * r + 4) 0))
    (hok : s.sparOk (s.reg (fk (0x40010100 + 0x10 * r) 6) * 64 +
      4 * (s.reg (fk (0x40010100 + 0x10 * r + 0xC) 0) % 2 ^ s.reg (fk (0x40010100 + 0x10 * r + 4) 0))) = true) :
    execAdcRingMove s = .next
      (let s1 : State := (u.memWrite (s.reg (fk (0x40010100 + 0x10 * r) 6) * 64 +
          4 * (s.reg (fk (0x40010100 + 0x10 * r + 0xC) 0) % 2 ^ s.reg (fk (0x40010100 + 0x10 * r + 4) 0))) (leBytes w 4)).setReg
          (fk (0x40010100 + 0x10 * r + 0xC) 0) ((s.reg (fk (0x40010100 + 0x10 * r + 0xC) 0) + 1) % 65536)
       { s1 with adc := { s1.adc with fifo := rest } }) := by
  unfold execAdcRingMove
  rw [hf]
  dsimp only
  rw [hg]
  exact if_neg (by simp [hroom, hok])

/-! ### A sequencer's word 0 (R322) -/

theorem seqAddr_place : ∀ c : Fin 4, ∀ e : Fin 64, blockOf (seqAddr c e) = some 0x10 ∧ aliasAddr 0 (seqAddr c e) = seqAddr c e := by
  decide

/-- The fields of a sequencer entry's word 0. -/
def seqFields (c e : Nat) : List Fld := [fL 0 8 (512 + 2 * (64 * c + e)) 0x2A (.enumOf adcInputs), fX 8 8 0,
  fL 16 3 (513 + 2 * (64 * c + e)) 0 (.enumOf [0, 1, 2, 3, 4]), fX 20 2 c]

theorem atOnce_enumOf {lo w : Nat} (no reset : Nat) (l : List Nat) (h : lo + w ≤ 32 ∧ lo < 32 ∧ (2 ^ w - 1) * 2 ^ lo &&& 0xFFFFFFFF ≠ 0) :
    (fL lo w no reset (.enumOf l)).atOnce = true := by
  simpa [Fld.atOnce, fL, Fld.mask] using h

theorem atOnce_fX {lo w : Nat} (reset : Nat) (h : lo + w ≤ 32 ∧ lo < 32 ∧ (2 ^ w - 1) * 2 ^ lo &&& 0xFFFFFFFF ≠ 0) :
    (fX lo w reset).atOnce = true := by
  simpa [Fld.atOnce, fX, Fld.mask] using h

theorem seqFields_atOnce (c e : Nat) : ∀ f ∈ seqFields c e, f.atOnce = true := by
  intro f hf
  simp only [seqFields, List.mem_cons, List.not_mem_nil, or_false] at hf
  rcases hf with rfl | rfl | rfl | rfl
  · exact atOnce_enumOf _ _ _ (by decide)
  · exact atOnce_fX _ (by decide)
  · exact atOnce_enumOf _ _ _ (by decide)
  · exact atOnce_fX _ (by decide)

theorem regDef_seqWord {o c e : Nat} (h : 0x400 ≤ o ∧ o < 0xC00) (hc : (o - 0x400) / 0x200 = c) (he : (o - 0x400) % 0x200 / 8 = e)
    (h0 : o % 8 = 0) : regDef 0x10 o = some (seqFields c e) := by
  have hr : regDef 0x10 o = adcRegs o := rfl
  simp only [hr, adcRegs, if_pos h, hc, he, h0, seqFields]

theorem regDef_seq (c : Fin 4) (e : Fin 64) : regDef 0x10 (seqAddr c e - blockBase 0x10) = some (seqFields c e) ∧
    seqAddr c e - blockBase 0x10 = 0x400 + 0x200 * c + 8 * e ∧ blockBase 0x10 + (seqAddr c e - blockBase 0x10) = seqAddr c e := by
  have hbase : blockBase 0x10 = 0x40010000 := by decide
  have ho : seqAddr c e - blockBase 0x10 = 0x400 + 0x200 * c + 8 * e := by rw [hbase, seqAddr]; omega
  refine ⟨?_, ho, by rw [hbase, seqAddr]; omega⟩
  have hc : (0x400 + 0x200 * c.val + 8 * e.val - 0x400) / 0x200 = c := by omega
  have he : (0x400 + 0x200 * c.val + 8 * e.val - 0x400) % 0x200 / 8 = e := by omega
  have h0 : (0x400 + 0x200 * c.val + 8 * e.val) % 8 = 0 := by omega
  rw [ho]
  exact regDef_seqWord (by omega) hc he h0

/-- What a write of word 0 does beside setting its fields: the DELAY staged for the entry takes effect. -/
theorem State.adcAct_seq (s0 s : State) (c : Fin 4) (e : Fin 64) (ws : List (Key × Nat)) :
    s0.adcAct s (0x400 + 0x200 * c + 8 * e) ws = (s.stagedDelay c e).elim s (fun v => s.setReg (fk (seqAddr c e + 4) 0) v) := by
  have hc : (0x400 + 0x200 * c.val + 8 * e.val - 0x400) / 0x200 = c := by omega
  have he : (0x400 + 0x200 * c.val + 8 * e.val - 0x400) % 0x200 / 8 = e := by omega
  have h0 : (0x400 + 0x200 * c.val + 8 * e.val) % 8 = 0 := by omega
  have hne : ¬(decide (0x400 + 0x200 * c.val + 8 * e.val = 0x014) && wrote1 ws 0) = true := by simp; omega
  unfold State.adcAct
  rw [if_neg hne, if_neg (by omega), if_pos (by omega), hc, he, h0] <;> rfl

/-- The converter whose registers were written last. -/
def State.adcLast (s : State) (o : Nat) : State :=
  { s with adc := { s.adc with
      last := if 0x020 ≤ o ∧ o < 0x060 then (o - 0x20) / 0x10 else if 0x400 ≤ o ∧ o < 0xC00 then (o - 0x400) / 0x200 else 4 } }

theorem State.blockAct_adc (s0 s : State) (o : Nat) (ws : List (Key × Nat)) :
    s0.blockAct s 0 0x10 o ws = s0.adcAct (s.adcLast o) o ws := rfl

theorem State.takeWrite_seq (s : State) (c : Fin 4) (e : Fin 64) (ws : List (Key × Nat)) :
    s.takeWrite 0 0x10 (seqAddr c e) ws = (s.stagedDelay c e).elim ((ws.foldl State.applyField s).adcLast (0x400 + 0x200 * c + 8 * e))
      (fun v => ((ws.foldl State.applyField s).adcLast (0x400 + 0x200 * c + 8 * e)).setReg (fk (seqAddr c e + 4) 0) v) := by
  obtain ⟨-, ho, -⟩ := regDef_seq c e
  have hstaged : ((ws.foldl State.applyField s).adcLast (0x400 + 0x200 * c + 8 * e)).stagedDelay c e = s.stagedDelay c e := by
    obtain ⟨r, h, hf⟩ := s.foldl_applyField_eq ws
    rw [hf]
    rfl
  rw [State.takeWrite, ho, State.blockAct_adc, State.adcAct_seq, hstaged]

theorem State.elim_setReg (o : Option Nat) (s : State) (k : Key) :
    (o.elim s (fun v => s.setReg k v)).reg k = o.getD (s.reg k) ∧ (o.elim s (fun v => s.setReg k v)).mem = s.mem ∧
    (o.elim s (fun v => s.setReg k v)).adc = s.adc ∧ ∀ j, k ≠ j → (o.elim s (fun v => s.setReg k v)).reg j = s.reg j := by
  cases o with
  | none => exact ⟨rfl, rfl, rfl, fun _ _ => rfl⟩
  | some v => exact ⟨State.reg_setReg _ _ _, rfl, rfl, fun _ h => State.reg_setReg_other _ _ _ _ h⟩

theorem Rng.getD_check_enumOf (l : List Nat) (v d : Nat) : ((Rng.enumOf l).check v).1.getD d = if v ∈ l then v else d := by
  by_cases h : v ∈ l
  · rw [Rng.check_enumOf_of_mem h, if_pos h]; rfl
  · rw [Rng.check_enumOf_of_not_mem h, if_neg h]; rfl

/-- R322: a write of a sequencer's word 0 sets its fields, and the DELAY staged for the entry takes effect with them. -/
theorem State.regCommand_seq {s : State} (c : Fin 4) (e : Fin 64) (v : Word) (ha : s.aon = true) (h5 : s.isUp 5 = true)
    (hc : s.isUp (50 + c) = true) : ∃ u : State,
    s.regCommand (seqAddr c e) v.toNat = (s.stagedDelay c e).elim u (fun d => u.setReg (fk (seqAddr c e + 4) 0) d) ∧
    u.adc.conv = s.adc.conv ∧ u.mem = s.mem ∧ u.reg (fk (seqAddr c e + 4) 0) = s.reg (fk (seqAddr c e + 4) 0) ∧
    ∀ f ∈ seqFields c e, u.reg (fk (seqAddr c e) f.lo) = (f.rng.check (bits v.toNat f.lo f.w)).1.getD (s.reg (fk (seqAddr c e) f.lo)) := by
  obtain ⟨hb, hal⟩ := seqAddr_place c e
  obtain ⟨hreg, ho, hbase⟩ := regDef_seq c e
  have hon : s.blockOn 0x10 = true := by
    have hm : 50 + c.val ∈ blockDoms 0x10 := by
      rw [show blockDoms 0x10 = [50, 51, 52, 53, 54] from rfl]
      simp only [List.mem_cons, List.not_mem_nil, or_false]
      omega
    simp only [State.blockOn, ha, Bool.true_and, Bool.or_eq_true]
    exact .inr (List.any_eq_true.mpr ⟨_, hm, hc⟩)
  have hdom : (0x400 + 0x200 * c.val + 8 * e.val - 0x400) / 0x200 = c := by omega
  have hin : 0x400 ≤ 0x400 + 0x200 * c.val + 8 * e.val ∧ 0x400 + 0x200 * c.val + 8 * e.val < 0xC00 := by omega
  have hron : s.regOn (seqAddr c e) = true := by
    have hlow : ¬(0x020 ≤ 0x400 + 0x200 * c.val + 8 * e.val ∧ 0x400 + 0x200 * c.val + 8 * e.val < 0x060) := by omega
    simp [State.regOn, hb, hon, ho, hlow, hin, hdom, hc]
  have hcommon : ¬(commonBase 0x10 ≤ seqAddr c e ∧ seqAddr c e < commonBase 0x10 + 0x30) := by
    rw [show commonBase 0x10 = 0x40010F80 by decide, seqAddr]
    omega
  have hws := s.checkWord_atOnce hreg hbase (seqFields_atOnce c e) v.isLt
  have hflds : ∀ f ∈ seqFields c e, f.atOnce = true ∧ fldOf (fk (seqAddr c e) f.lo) = some f := by
    intro f hf
    refine ⟨seqFields_atOnce c e f hf, ?_⟩
    simp only [seqFields, List.mem_cons, List.not_mem_nil, or_false] at hf
    rcases hf with rfl | rfl | rfl | rfl <;> exact fldOf_fk hb hreg (of_decide_eq_true rfl)
  have hnodup : ((seqFields c e).map (·.lo)).Nodup := by
    rw [show (seqFields c e).map (·.lo) = [0, 8, 16, 20] from rfl]; decide
  have hother : ∀ w ∈ (seqFields c e).flatMap (fieldWrite (seqAddr c e) v.toNat), w.1 ≠ fk (seqAddr c e + 4) 0 := by
    intro w hw
    obtain ⟨f, hf, hw⟩ := List.mem_flatMap.mp hw
    have hlt : f.lo < 32 := (of_decide_eq_true (hflds f hf).1).2.2.2.2.2.1
    rw [key_of_fieldWrite hw]
    unfold fk Key
    omega
  have hbus := s.regCommand_eq (seqAddr c e) v.toNat 0x10 hb (by simp [State.addrOn, hb, hon]) hron h5 hal hcommon
    (by rw [seqAddr]; omega) rfl
  obtain ⟨r, g, hrep⟩ := s.reportAll_eq 0x10 (s.checkWord 0x10 (seqAddr c e - blockBase 0x10) v.toNat 0xFFFFFFFF).entries
  rw [hbus, hws, State.takeWrite_seq, hrep]
  obtain ⟨r', h', hfold⟩ := State.foldl_applyField_eq ({ s with rings := r, gring := g } : State)
    ((seqFields c e).flatMap (fieldWrite (seqAddr c e) v.toNat))
  refine ⟨_, rfl, ?_, ?_, (State.foldl_applyField _ _).2 _ hother, fun f hf => State.reg_foldl_fieldWrite _ _ hflds hnodup hf⟩
  · exact (congrArg (fun t : State => t.adc.conv) hfold).trans rfl
  · exact (congrArg State.mem hfold).trans rfl

/-- Settles O44: a start, the result of a conversion, the two moves, and the write of a sequencer's word 0. -/
theorem adcSequencersAndResults : Obligations.AdcSequencersAndResults := by
  unfold Obligations.AdcSequencersAndResults
  intro conv s
  dsimp only
  refine ⟨fun hr ht hrun hl => ?_, fun uv hu hrun hw hst ha ht hs hres => ⟨fun hf h54 huns hbeg => ?_, fun hf h54 => ?_, fun hf => ?_⟩,
    fun k r w rest u hf hg hroom hok => ?_, fun h54 => ?_, fun e v ha h5 hc => ?_⟩
  · have hex : exec (.converterStart conv) s = .next ((s.setConv conv { s.conv conv with stopping := false }).startEntry conv 0) := by
      refine congrArg Host.Outcome.next ((if_pos ?_).trans (State.startGroup_single hl))
      simp [hr, ht, State.groupIdle, hl, hrun]
    refine ⟨_, hex, by simp [State.startEntry], by simp [State.startEntry], by simp [State.startEntry], fun d hd => ?_, rfl, rfl⟩
    rw [State.startEntry, State.conv_setConv_other _ _ _ _ hd.symm, State.conv_setConv_other _ _ _ _ hd.symm]
  · obtain ⟨u, code, hconv, hfifo, hregs, hmem, hres', hlost, hcode⟩ := State.conversion_single (c := conv) uv ha ht hs hst hres
    obtain ⟨hput, hput2, hput3, hput4⟩ := State.putResult_room (s := u) (c := conv) (word := code + (s.conv conv).entry * 4096 +
      conv * 2 ^ 18 + ofBool ((s.conv conv).unsettled || !s.isUp 54 || !(s.conv conv).beganOk) * 2 ^ 31)
      (ring := bits (s.conv conv).w0 20 2) (by rw [hfifo]; exact hf)
    have hex : exec (.conversionDone conv uv) s = .next (s.conversion conv uv) :=
      congrArg Host.Outcome.next (if_pos (by simp [hu, hrun, hw]))
    rw [hconv] at hex
    have hc : code = _ := hcode (by simp [h54, huns, hbeg])
    refine ⟨_, hex, hput.trans ?_, by rw [hput2]; exact hres', hput3.trans hregs, hput4.trans hmem⟩
    rw [hfifo, hlost, hc, h54, huns, hbeg, if_pos rfl, Conv.code_seen]
    simp [ofBool, Nat.add_assoc]
  · obtain ⟨u, code, hconv, hfifo, hregs, hmem, hres', hlost, hcode⟩ := State.conversion_single (c := conv) uv ha ht hs hst hres
    obtain ⟨hput, -⟩ := State.putResult_room (s := u) (c := conv) (word := code + (s.conv conv).entry * 4096 +
      conv * 2 ^ 18 + ofBool ((s.conv conv).unsettled || !s.isUp 54 || !(s.conv conv).beganOk) * 2 ^ 31)
      (ring := bits (s.conv conv).w0 20 2) (by rw [hfifo]; exact hf)
    have hex : exec (.conversionDone conv uv) s = .next (s.conversion conv uv) :=
      congrArg Host.Outcome.next (if_pos (by simp [hu, hrun, hw]))
    rw [hconv] at hex
    have hc : code = _ := hcode (by simp [h54])
    refine ⟨_, hex, hput.trans ?_⟩
    rw [hfifo, hlost, hc, h54]
    simp [ofBool]
    omega
  · obtain ⟨u, code, hconv, hfifo, hregs, hmem, hres', hlost, hcode⟩ := State.conversion_single (c := conv) uv ha ht hs hst hres
    have hex : exec (.conversionDone conv uv) s = .next (s.conversion conv uv) :=
      congrArg Host.Outcome.next (if_pos (by simp [hu, hrun, hw]))
    rw [hconv, State.putResult_full (by rw [hfifo]; exact hf)] at hex
    refine ⟨_, hex, hfifo, by simp, ?_⟩
    refine (State.reg_setReg _ _ _).trans ?_
    rw [State.reg_of_regs hregs]
    rfl
  · have hex := State.execAdcRingMove_moves hf hg hroom hok
    refine ⟨_, hex, rfl, State.rdBytes_memWrite_spar (leBytes w 4) hok u, State.reg_setReg _ _ _⟩
  · exact congrArg Host.Outcome.next (if_pos h54)
  · obtain ⟨u, hcmd, hconv, hmem, hdelay, hfld⟩ := State.regCommand_seq conv e v ha h5 hc
    obtain ⟨hreg, hm, hadc, hother⟩ := State.elim_setReg (s.stagedDelay conv e) u (fk (seqAddr conv e + 4) 0)
    have hne (lo : Nat) (hlo : lo < 32) : fk (seqAddr conv e + 4) 0 ≠ fk (seqAddr conv e) lo := by
      unfold fk Key
      omega
    refine ⟨_, congrArg Host.Outcome.next hcmd, (congrArg Adc.conv hadc).trans hconv, hm.trans hmem, ?_, ?_, ?_, ?_,
      hreg.trans (by rw [hdelay])⟩
    · refine (hother _ (hne 0 (by decide))).trans ((hfld _ (.head _)).trans ?_)
      exact Rng.getD_check_enumOf _ _ _
    · exact (hother _ (hne 8 (by decide))).trans (hfld _ (.tail _ (.head _)))
    · exact (hother _ (hne 20 (by decide))).trans (hfld _ (.tail _ (.tail _ (.tail _ (.head _)))))
    · refine (hother _ (hne 16 (by decide))).trans
        ((hfld _ (.tail _ (.tail _ (.head _)))).trans ?_)
      refine (Rng.getD_check_enumOf _ _ _).trans ?_
      have hmem : bits v.toNat 16 3 ∈ [0, 1, 2, 3, 4] ↔ bits v.toNat 16 3 ≤ 4 := by
        simp only [List.mem_cons, List.not_mem_nil, or_false]
        omega
      by_cases h4 : bits v.toNat 16 3 ≤ 4
      · exact (if_pos (hmem.2 h4)).trans (if_pos h4).symm
      · exact (if_neg fun hm => h4 (hmem.1 hm)).trans (if_neg h4).symm

end Sys2Proof.Machine
end

section
/-! PROOFS. The statistics unit: jobs, table writes, row operations and NORM's k. -/
namespace Sys2Proof.Machine

/-! ### What an access through the hub leaves alone -/

/-- One state is another but for its memory, its cores and its registers. -/
def HubOnly (s t : State) : Prop := ∃ m c r, t = { s with mem := m, cores := c, regs := r }

theorem HubOnly.refl (s : State) : HubOnly s s := ⟨_, _, _, rfl⟩
theorem HubOnly.trans {s t u : State} (h : HubOnly s t) (k : HubOnly t u) : HubOnly s u := by
  obtain ⟨m, c, r, rfl⟩ := h
  obtain ⟨m', c', r', rfl⟩ := k
  exact ⟨m', c', r', rfl⟩

theorem HubOnly.wrBytes (s : State) (a : Nat) (bs : List Byte) : HubOnly s (s.wrBytes a bs) := ⟨_, _, _, s.wrBytes_eq a bs⟩
theorem HubOnly.setCore (s : State) (c : Nat) (x : Core) : HubOnly s (s.setCore c x) := ⟨_, _, _, rfl⟩
theorem HubOnly.count (s : State) (k : Key) (w n : Nat) : HubOnly s (s.count k w n) := ⟨_, _, _, rfl⟩

theorem HubOnly.foldl {α : Type} {f : State → α → State} (hf : ∀ s a, HubOnly s (f s a)) (l : List α) (s : State) :
    HubOnly s (l.foldl f s) := by
  induction l generalizing s with
  | nil => exact .refl s
  | cons a t ih => exact (hf s a).trans (ih _)

theorem HubOnly.notice (s : State) (c la : Nat) : HubOnly s (s.notice c la) := by
  unfold State.notice
  split
  · exact .refl s
  · exact (HubOnly.wrBytes _ _ _).trans (.setCore _ _ _)

theorem HubOnly.snoopEb (s : State) (c la : Nat) : HubOnly s (s.snoopEb c la) := by
  unfold State.snoopEb
  split
  · exact (HubOnly.notice _ _ _).trans (.count _ _ _ _)
  · exact .refl s

theorem HubOnly.snoop (s : State) (inval : Bool) (la c : Nat) : HubOnly s (s.snoop inval la c) := by
  unfold State.snoop
  split
  · exact .refl s
  · refine HubOnly.trans ?_ (.setCore _ _ _)
    split
    · exact .wrBytes _ _ _
    · exact .refl s

theorem HubOnly.snoopAll (s : State) (inval : Bool) (c la : Nat) : HubOnly s (s.snoopAll inval c la) :=
  .foldl (fun _ _ => (HubOnly.snoopEb _ _ _).trans (.snoop _ _ _ _)) _ _

theorem HubOnly.ncRead (s : State) (a n : Nat) : HubOnly s (s.ncRead a n).2 := by
  unfold State.ncRead
  split
  · dsimp only
    exact .snoopAll _ _ _ _
  · dsimp only
    exact .refl s

theorem HubOnly.ncReadN (s : State) (a n : Nat) : HubOnly s (s.ncReadN a n).2 := .foldl (fun s l => .ncRead s l 32) _ _

/-- A write of a master without a cache to a spar bank lands, and leaves all but memory, caches and the hub's counters. -/
theorem State.ncWriteN_spar {s : State} {a n : Nat} (bs : List Byte) (h : regionOf a = .spar n) :
    (s.ncWriteN a bs).rdBytes a bs.length = bs ∧ HubOnly s (s.ncWriteN a bs) := by
  have hw : s.ncWriteN a bs = ((linesOf a bs.length).foldl (fun s l => s.snoopAll true noCore l) s).wrBytes a bs := by
    simp only [State.ncWriteN, h]
  rw [hw]
  exact ⟨State.rdBytes_wrBytes _ _ _, (HubOnly.foldl (fun s l => .snoopAll s true noCore l) _ _).trans (.wrBytes _ _ _)⟩

/-! ### Row operations (R338–R343) -/

theorem sumI_eq (l : List Int) : sumI l = l.sum := List.sum_eq_foldl.symm

/-- Going through a row keeps an element than which none seen is better. -/
theorem foldl_best {better : Int → Int → Bool} (hirr : ∀ x, better x x = false)
    (htr : ∀ x y z, better x y = true → better y z = true → better x z = true) (l seen : List Int) (m : Int)
    (hm : m ∈ seen) (hb : ∀ y ∈ seen, better y m = false) :
    l.foldl (fun m x => if better x m then x else m) m ∈ seen ++ l ∧
    ∀ y ∈ seen ++ l, better y (l.foldl (fun m x => if better x m then x else m) m) = false := by
  induction l generalizing seen m with
  | nil => simpa using ⟨hm, hb⟩
  | cons x t ih =>
    rw [show seen ++ x :: t = seen ++ [x] ++ t by simp, List.foldl_cons]
    by_cases hx : better x m = true
    · rw [if_pos hx]
      refine ih _ x (by simp) fun y hy => ?_
      rcases List.mem_append.mp hy with hy | hy
      · rw [Bool.eq_false_iff]
        exact fun h => absurd (htr y x m h hx) (by simp [hb y hy])
      · obtain rfl : y = x := by simpa using hy
        exact hirr y
    · rw [if_neg hx]
      refine ih _ m (by simp [hm]) fun y hy => ?_
      rcases List.mem_append.mp hy with hy | hy
      · exact hb y hy
      · obtain rfl : y = x := by simpa using hy
        simpa using hx

/-- R338: the first of the elements that none is better than. -/
theorem extreme_spec {better : Int → Int → Bool} (hirr : ∀ x, better x x = false)
    (htr : ∀ x y z, better x y = true → better y z = true → better x z = true) {l : List Int} (hl : l ≠ []) :
    l[(extreme better l).2]? = some (extreme better l).1 ∧
    (∀ i, i < (extreme better l).2 → l[i]? ≠ some (extreme better l).1) ∧ ∀ y ∈ l, better y (extreme better l).1 = false := by
  obtain ⟨x, t, rfl⟩ := List.exists_cons_of_ne_nil hl
  obtain ⟨hmem, hbest⟩ := foldl_best hirr htr (x :: t) [x] x (by simp) (by simp [hirr])
  obtain ⟨m, hm⟩ : ∃ m, (x :: t).foldl (fun m x => if better x m then x else m) x = m := ⟨_, rfl⟩
  have hex : extreme better (x :: t) = (m, (x :: t).findIdx (fun y => y == m)) := by rw [← hm]; rfl
  rw [hm] at hmem hbest
  have hml : m ∈ x :: t := (List.mem_append.mp hmem).elim (fun h => List.mem_cons.mpr (.inl (List.mem_singleton.mp h))) id
  have hlt : (x :: t).findIdx (fun y => y == m) < (x :: t).length := List.findIdx_lt_length_of_exists ⟨m, hml, by simp⟩
  rw [hex]
  refine ⟨?_, fun i hi => ?_, fun y hy => hbest y (List.mem_append.mpr (.inr hy))⟩
  · rw [List.getElem?_eq_getElem hlt]
    exact congrArg some (by simpa using List.findIdx_getElem (w := hlt))
  · have hn := List.not_of_lt_findIdx hi
    rw [List.getElem?_eq_getElem (Nat.lt_trans hi hlt)]
    exact fun h => absurd (Option.some.inj h) (by simpa using hn)

/-! ### NORM's k (R342) -/

theorem normShift_spec {v : Int} (h1 : 1 ≤ v) (h2 : v ≤ 32767) : (normShift v).1 ≤ 6 ∧ -1 ≤ (normShift v).1 ∧
    2048 ≤ (normShift v).2 ∧ (normShift v).2 ≤ 8191 ∧
    (normShift v).2 = if (normShift v).1 = -1 then v / 4 else v * 4 ^ (normShift v).1.toNat := by
  unfold normShift
  by_cases hbig : 8192 ≤ v
  · rw [if_pos hbig]
    have hlo : 2048 ≤ v / 4 := by omega
    have hhi : v / 4 ≤ 8191 := by omega
    simpa using ⟨hlo, hhi⟩
  · rw [if_neg hbig]
    dsimp only
    cases hf : (List.range 7).find? (fun k => decide (2048 ≤ v * 4 ^ k ∧ v * 4 ^ k ≤ 8191)) with
    | some k =>
      have hk := List.mem_range.mp (List.mem_of_find?_eq_some hf)
      obtain ⟨hlo, hhi⟩ : 2048 ≤ v * 4 ^ k ∧ v * 4 ^ k ≤ 8191 := by
        simpa using List.find?_some (p := fun k => decide (2048 ≤ v * 4 ^ k ∧ v * 4 ^ k ≤ 8191)) hf
      simp only [Option.getD_some]
      refine ⟨by omega, by omega, hlo, hhi, ?_⟩
      rw [if_neg (by omega), Int.toNat_natCast]
    | none =>
      have hnone (k : Nat) (hk : k < 7) : ¬(2048 ≤ v * 4 ^ k ∧ v * 4 ^ k ≤ 8191) := by
        simpa using List.find?_eq_none.mp hf k (List.mem_range.mpr hk)
      have h0 := hnone 0 (by decide)
      have h1 := hnone 1 (by decide)
      have h2 := hnone 2 (by decide)
      have h3 := hnone 3 (by decide)
      have h4 := hnone 4 (by decide)
      have h5 := hnone 5 (by decide)
      have h6 := hnone 6 (by decide)
      omega

theorem State.rdBytes_of_mem {s u : State} (h : u.mem = s.mem) (a n : Nat) : u.rdBytes a n = s.rdBytes a n := by
  unfold State.rdBytes State.rd
  rw [h]

/-! ### A job's end (R337) -/

/-- What the end of a job does once its outcome is recorded: its place frees and its issuer, the CC, is told. -/
def State.jobFreed (s : State) (p : Nat) (j : Job) (word : Nat) : State :=
  (((s.count (fk 0x4000F004 0) 16 1).sfuTell j word).unstand 17 p |>.sfuFree p).event 64 2

theorem State.jobFreed_eq (s : State) (p : Nat) (j : Job) (word : Nat) : (s.jobFreed p j word).mem = s.mem ∧
    (s.jobFreed p j word).tabWait = s.tabWait ∧ ((s.jobFreed p j word).job p).busy = false := by
  have htell : ∃ c, (s.count (fk 0x4000F004 0) 16 1).sfuTell j word = { s.count (fk 0x4000F004 0) 16 1 with cyn := c } := by
    unfold State.sfuTell
    split
    · exact ⟨_, rfl⟩
    · exact ⟨_, rfl⟩
  obtain ⟨c, htell⟩ := htell
  rw [State.jobFreed, htell]
  refine ⟨rfl, rfl, ?_⟩
  exact congrArg Job.busy (State.job_setJob _ _ _)

/-- With no table write waiting there is none to be done. -/
theorem State.flushTable_nil {s : State} (h : s.tabWait = []) : s.flushTable = s := by
  have he : s.flushTable = { s with tabWait := [] } := by
    unfold State.flushTable
    rw [h]
    rfl
  rw [he, ← h]

/-- The end of a job of the CC with an outcome, whose record goes to a spar bank. -/
theorem State.jobEnd_cc {s : State} {p n : Nat} (value : Int) (index : Nat) (hctx : (s.job p).ctx = 64) (ht : s.tabWait = [])
    (hr : regionOf ((s.job p).addr (jobDesc (s.job p).desc).dstSeg (jobDesc (s.job p).desc).res) = .spar n) :
    ((s.jobEnd p value index 0).job p).busy = false ∧ bit (s.jobEnd p value index 0).irqEdge 4 = true ∧
    (s.jobEnd p value index 0).rdBytes ((s.job p).addr (jobDesc (s.job p).desc).dstSeg (jobDesc (s.job p).desc).res) 16 =
      jobRecord value index 0 (s.job p).tag (s.job p).ticks := by
  obtain ⟨hw, hub⟩ := State.ncWriteN_spar (s := s) (jobRecord value index 0 (s.job p).tag (s.job p).ticks) hr
  have hlen : (jobRecord value index 0 (s.job p).tag (s.job p).ticks).length = 16 := by
    simp [jobRecord, length_leBytes]
  rw [hlen] at hw
  generalize hu : s.ncWriteN _ _ = u at hw hub
  obtain ⟨m, c, r, hub⟩ := hub
  have htw : u.tabWait = [] := by rw [hub]; exact ht
  obtain ⟨hfm, hft, hfb⟩ := u.jobFreed_eq p (s.job p) (0 + (s.job p).ticks * 65536)
  have hend : s.jobEnd p value index 0 = (u.jobFreed p (s.job p) (0 + (s.job p).ticks * 65536)).irq 4 := by
    have he : s.jobEnd p value index 0 = (if (s.job p).ctx = 64 then
        (((((u.count (fk 0x4000F004 0) 16 1).sfuTell (s.job p) (0 + (s.job p).ticks * 65536)).unstand 17 p).sfuFree p).event
          (s.job p).ctx 2).flushTable.irq 4
        else (((((u.count (fk 0x4000F004 0) 16 1).sfuTell (s.job p) (0 + (s.job p).ticks * 65536)).unstand 17 p).sfuFree p).event
          (s.job p).ctx 2).flushTable) := by
      rw [← hu]
      rfl
    rw [he, if_pos hctx, hctx]
    exact congrArg (fun t : State => t.irq 4) (State.flushTable_nil (hft.trans htw))
  rw [hend]
  refine ⟨by rw [State.job_of_irq]; exact hfb, State.bit_irqEdge_irq _ _, ?_⟩
  rw [← hw]
  exact State.rdBytes_of_mem ((State.irq_mem _ _).trans hfm) _ _

theorem State.granted_sfu {s : State} {place : Fin 6} (h46 : s.isUp 46 = true) (hb : (s.job place).busy = true)
    (hs : (s.job place).started = false) (hg : s.granted 17 place = true) (hstd : s.flag kStdReady = true) :
    ¬(!(s.isUp 46 && (s.job place).busy && !(s.job place).started && s.granted 17 place && s.flag kStdReady)) = true := by
  simp [h46, hb, hs, hg, hstd]

/-- R338: the end of a job that sums its row. -/
theorem State.execSfuJobEnd_sum {s : State} {place : Fin 6} (h46 : s.isUp 46 = true) (hb : (s.job place).busy = true)
    (hs : (s.job place).started = true) (hst : (s.arb 17).standing = []) (hop : (jobDesc (s.job place).desc).op = 0) :
    let j := s.job place
    let d := jobDesc j.desc
    let r := s.ncReadN (j.addr d.srcSeg d.src) (2 * d.n)
    execSfuJobEnd place s =
      .next (r.2.jobEnd place (sumI ((List.range d.n).map (fun i => sval 16 (leAt r.1 (2 * i) 2)))) 0 0) := by
  dsimp only
  unfold execSfuJobEnd
  dsimp only
  rw [if_neg (by simp [h46, hb, hs, hst]), hop]
  rfl

/-- Settles O45. That a job reads its row and writes its record at its end rests on log entry 32. -/
theorem sfuJobsAndRows : Obligations.SfuJobsAndRows := by
  unfold Obligations.SfuJobsAndRows
  refine ⟨fun place s => ?jobs, fun addr value s h46 hw => ⟨fun hu => ?_, fun hu => ?_⟩, fun s h => congrArg Host.Outcome.next (if_pos h),
    fun s slot eps l hl => ⟨sumI_eq l, ?_, fun op hop => ?_, ?_, ?_⟩, fun v h1 h2 => normShift_spec h1 h2⟩
  case jobs =>
    dsimp only
    refine ⟨fun h46 hb hs hg hstd => ⟨fun hc => ?_, fun st hc => ?_⟩, fun hstd => ?_, fun h46 hb hs hst hctx ht hop hr => ?_⟩
    · refine (if_neg (State.granted_sfu h46 hb hs hg hstd)).trans ?_
      simp only [hc]
    · refine (if_neg (State.granted_sfu h46 hb hs hg hstd)).trans ?_
      simp only [hc]
    · exact if_pos (by simp [hstd])
    · obtain ⟨b, hr⟩ := hr
      obtain ⟨m, c, r, hub⟩ := HubOnly.ncReadN s ((s.job place).addr (jobDesc (s.job place).desc).srcSeg (jobDesc (s.job place).desc).src)
        (2 * (jobDesc (s.job place).desc).n)
      have hjob : ((s.ncReadN ((s.job place).addr (jobDesc (s.job place).desc).srcSeg (jobDesc (s.job place).desc).src)
          (2 * (jobDesc (s.job place).desc).n)).2).job place = s.job place := by rw [hub]; rfl
      have htw : ((s.ncReadN ((s.job place).addr (jobDesc (s.job place).desc).srcSeg (jobDesc (s.job place).desc).src)
          (2 * (jobDesc (s.job place).desc).n)).2).tabWait = [] := by rw [hub]; exact ht
      have hex := State.execSfuJobEnd_sum h46 hb hs hst hop
      obtain ⟨hbusy, hirq, hrec⟩ := State.jobEnd_cc (sumI ((List.range (jobDesc (s.job place).desc).n).map (fun i => sval 16 (leAt
        (s.ncReadN ((s.job place).addr (jobDesc (s.job place).desc).srcSeg (jobDesc (s.job place).desc).src)
          (2 * (jobDesc (s.job place).desc).n)).1 (2 * i) 2)))) 0 (hjob ▸ hctx) htw (hjob ▸ hr)
      rw [hjob] at hrec
      exact ⟨_, hex, hbusy, hrec, hirq⟩
  · have hex : exec (.tableWrite addr value) s = .next (s.wrBytes addr.toNat (leBytes value.toNat 4)) :=
      congrArg Host.Outcome.next ((if_pos (by simp [h46, hw])).trans (if_neg (by simp [hu])))
    exact ⟨_, hex, s.rdBytes_wrBytes addr.toNat (leBytes value.toNat 4), fun b hb => s.rd_wrBytes_outside _ _ _ hb⟩
  · exact congrArg Host.Outcome.next ((if_pos (by simp [h46, hw])).trans (if_pos hu))
  · show rdiv (sumI l) l.length = _
    rw [sumI_eq, rdiv]
  · rcases List.mem_cons.mp hop with rfl | hop
    · obtain ⟨hat, hfirst, hbest⟩ := extreme_spec (better := fun a b => decide (b < a)) (by simp) (by simp; omega) hl
      exact ⟨hat, hfirst, fun y hy => Int.not_lt.mp (of_decide_eq_false (hbest y hy))⟩
    · obtain rfl := List.mem_singleton.mp hop
      obtain ⟨hat, hfirst, hbest⟩ := extreme_spec (better := fun a b => decide (a < b)) (by simp) (by simp; omega) hl
      exact ⟨hat, hfirst, fun y hy => Int.not_lt.mp (of_decide_eq_false (hbest y hy))⟩
  · show 0 ≤ clampI 0 32767 _ ∧ clampI 0 32767 _ ≤ 32767
    unfold clampI
    omega
  · show some ((l.map (s.lookup slot)).map (·.1)) = _
    rw [List.map_map]
    rfl

end Sys2Proof.Machine
end

section
/-! PROOFS. The DMA engine: GO, the start, the beats and the end of a transfer. -/
namespace Sys2Proof.Machine

/-- A core's write of a command register that reaches its block is the block's action. -/
theorem State.busWrite_command (s : State) {core a b v : Nat} {fl : List Fld} (hc : commandReg a b fl = true)
    (hal : aliasAddr core a = a) (hr : reservedEntry b fl (v &&& 0xFFFFFFFF) = none) (hon : s.addrOn a = true)
    (hreg : s.regOn a = true) (h5 : s.isUp 5 = true) :
    s.busWrite core a v = s.blockAct s core b (a - blockBase b) (commandWrites a v fl) := by
  obtain ⟨hb, -, h1, h2, hx, -⟩ := of_decide_eq_true (Bool.and_eq_true_iff.mp hc).1
  have hbus : s.busWrite core a v = (s.reportAll b (s.checkWord b (a - blockBase b) v 0xFFFFFFFF).entries).takeWrite core b a
      (s.checkWord b (a - blockBase b) v 0xFFFFFFFF).ws := by
    simp [State.busWrite, State.busWriteMask, hal, hb, hon, hreg, h5, s.commonWrite_none b a _ h1 h2, hx]
  rw [hbus, s.checkWord_command hc hr]
  exact congrArg (fun t : State => s.blockAct t core b (a - blockBase b) (commandWrites a v fl)) (s.foldl_applyField_command v hc)

@[simp] theorem State.place_setPlace (s : State) (p : Nat) (x : Place) : (s.setPlace p x).place p = x := by
  simp [State.place, State.setPlace]

/-! ### GO (R202) -/

theorem commandReg_go : ∀ p : Fin 5, commandReg (placePage p + 0x20) 0x0E [fV 0 1] = true ∧
    placePage p + 0x20 - blockBase 0x0E = 0x120 + 0x40 * p ∧ ∀ core : Fin 5, aliasAddr core (placePage p + 0x20) = placePage p + 0x20 := by
  decide

theorem State.exec_go {s : State} (core place : Fin 5) (ha : s.aon = true) (h47 : s.isUp 47 = true) (h5 : s.isUp 5 = true) :
    exec (.go core place) s = .next (s.dmaGo core place) := by
  obtain ⟨hc, ho, hal⟩ := commandReg_go place
  have hb : blockOf (placePage place + 0x20) = some 0x0E := (of_decide_eq_true (Bool.and_eq_true_iff.mp hc).1).1
  have hon : s.blockOn 0x0E = true := by simp [State.blockOn, blockDoms, ha, h47]
  have hw : wrote1 (commandWrites (placePage place + 0x20) 1 [fV 0 1]) 0 = true := by
    rw [wrote1, wroteAt_commandWrites _ _ _ (by decide)]
    rfl
  have hp : (0x120 + 0x40 * place.val - 0x100) / 0x40 = place := by omega
  have h20 : (0x120 + 0x40 * place.val - 0x100) % 0x40 = 0x20 := by omega
  refine congrArg Host.Outcome.next ((s.busWrite_command hc (hal core) (by decide) (by simp [State.addrOn, hb, hon])
    (by simp [State.regOn, hb, hon]) h5).trans ?_)
  rw [ho]
  refine (show _ = s.dmaAct _ _ _ from rfl).trans ?_
  rw [State.dmaAct, if_neg (by simp; omega), if_pos ⟨by omega, by omega, h20, hw⟩, hp]

/-- R218: what a refused try request shows fits in 20 bits, and asking for it moves the free values alone. -/
theorem State.turnHint_eq (s : State) (i k : Nat) :
    (s.turnHint i k).1.1 ≤ 0xFFFF ∧ (s.turnHint i k).1.2 ≤ 15 ∧ ∃ f, (s.turnHint i k).2 = { s with fresh := f } := by
  unfold State.turnHint
  split
  · exact ⟨Nat.le_refl _, Nat.le_refl _, _, rfl⟩
  · exact ⟨Nat.min_le_right _ _, Nat.min_le_right _ _, _, rfl⟩

theorem State.tryRefuse_eq (s : State) (i k : Nat) : (s.tryRefuse i k).1 < 2 ^ 20 ∧
    ∃ f, (s.tryRefuse i k).2 = ({ s with fresh := f } : State).count (kArb i 0x14 16) 16 1 := by
  obtain ⟨h1, h2, f, hf⟩ := s.turnHint_eq i k
  refine ⟨?_, f, by rw [State.tryRefuse, hf]⟩
  show (s.turnHint i k).1.1 + (s.turnHint i k).1.2 * 65536 < 2 ^ 20
  omega

section
variable {s : State} {core p : Nat}

theorem State.dmaGo_refused (h : (s.place p).busy = true ∨ s.placeFree 19 (dmaReq core) = false ∨ s.arbFrozen 19 = true ∨
    s.fenced (s.ctxOf core) = true) : s.dmaGo core p =
    (s.tryRefuse 19 (dmaReq core)).2.setReg (fk (placePage p + 0x24) 0) (s.tryRefuse 19 (dmaReq core)).1 := by
  refine if_pos ?_
  rcases h with h | h | h | h <;> simp [h]

/-- R202: the transfer that GO puts into a free place. -/
def State.dmaNew (s : State) (core p : Nat) : Place :=
  { busy := true, req := dmaReq core, tag := placeTag (dmaReq core) (s.place p).count, count := ((s.place p).count + 1) % 8192,
    desc := (List.range 8).flatMap (fun w => leBytes (s.reg (fk (placePage p + 4 * w) 0)) 4),
    segs := if (s.core core).tmode then (s.core core).tset else (s.core core).mset, tenant := s.ctxTenant (s.ctxOf core),
    ctx := s.ctxOf core, tmode := (s.core core).tmode, prio := s.effPrio (s.ctxOf core) }

theorem State.dmaGo_accepted (hb : (s.place p).busy = false) (hf : s.placeFree 19 (dmaReq core) = true)
    (hz : s.arbFrozen 19 = false) (hn : s.fenced (s.ctxOf core) = false) :
    s.dmaGo core p = ((s.setPlace p (s.dmaNew core p)).stand 19
      { k := dmaReq core, beats := max 1 ((dmaDesc (s.dmaNew core p).desc).len / 8), prio := s.effPrio (s.ctxOf core),
        tenant := s.tagOf (s.ctxOf core) }).setReg (fk (placePage p + 0x24) 0) (2 ^ 31 + placeTag (dmaReq core) (s.place p).count) :=
  if_neg (by simp [hb, hf, hz, hn])

end

@[simp] theorem State.arb_setArb (s : State) (i : Nat) (a : Arb) : (s.setArb i a).arb i = a := by simp [State.arb, State.setArb]

/-- What stands up stands. -/
theorem State.stands_stand (s : State) (i : Nat) (r : ArbReq) : (s.stand i r).stands i r.k = true := by
  simp [State.stands, State.stand]

/-! ### Beats and the end (R203, R204) -/

/-- A write of eight bytes to XRAM above the doorbells. -/
theorem State.dmaWrites_xram {s : State} (x : Place) {a : Nat} {bs : List Byte} (hx : regionOf a = .xram) (h27 : s.isUp 27 = true)
    (ha : 0x11008000 ≤ a) (hl : bs.length = 8) : s.dmaWrites x a bs = some (true, s.wrBytes a bs) := by
  have hon : s.regionOn .xram = true := h27
  have hw : s.memWrite a bs = s.wrBytes a bs := by
    simp only [State.memWrite, hx, State.doorbell]
    rw [if_neg (by simp; omega)]
  have hd : s.dmaWrite x a bs = (.accepted, s.wrBytes a bs) := by
    simp only [State.dmaWrite, hx, hon, hw, if_true]
  have ht : (bs.drop (8 * 0)).take 8 = bs := by rw [Nat.mul_zero, List.drop_zero, List.take_of_length_le (Nat.le_of_eq hl)]
  have hd : s.dmaWrite x (a + 8 * 0) ((bs.drop (8 * 0)).take 8) = (.accepted, s.wrBytes a bs) := by
    rw [ht, Nat.mul_zero, Nat.add_zero, hd]
  have hn : List.range ((bs.length + 7) / 8) = [0] := by rw [hl]; rfl
  unfold State.dmaWrites
  dsimp only
  rw [hn, List.foldl_cons, List.foldl_nil]
  simp only [hd]

section
variable (u : State) (p : Nat) (x : Place) (b : Option (Nat × Nat))

/-- What the end of a beat changes: its place and the burst in hand. -/
def State.beaten : State :=
  ((u.setPlace p x).setPlace p { (u.setPlace p x).place p with half := false }).setArb 19 { (u.setPlace p x).arb 19 with burst := b }

theorem State.beaten_place : (u.beaten p x b).place p = { x with half := false } := by
  refine (State.place_setPlace (u.setPlace p x) p _).trans ?_
  rw [State.place_setPlace]
theorem State.beaten_mem : (u.beaten p x b).mem = u.mem := rfl
theorem State.beaten_regs : (u.beaten p x b).regs = u.regs := rfl

end

/-- R204: a beat of eight bytes that the transfer's move does not have to wait for. -/
theorem State.dmaBeat_moves {s u : State} {p n : Nat} {x : Place} (hop : (dmaDesc (s.place p).desc).op = 1)
    (hh : (s.place p).half = false) (hb : (s.arb 19).burst = some ((s.place p).req, n + 1)) (hm : s.dmaMove p = some (u.setPlace p x)) :
    s.dmaBeat p = u.beaten p x (if n = 0 then none else some ((s.place p).req, n)) := by
  unfold State.dmaBeat State.beaten
  simp [hop, hh, hb, hm, ofBool]

/-- R204: the move of a FILL to XRAM, short of the transfer's last. -/
theorem State.dmaMove_fill {s : State} {p : Nat} (hop : (dmaDesc (s.place p).desc).op = 1)
    (hx : regionOf ((dmaDesc (s.place p).desc).dstAddr (s.place p) + (s.place p).moved) = .xram) (h27 : s.isUp 27 = true)
    (ha : 0x11008000 ≤ (dmaDesc (s.place p).desc).dstAddr (s.place p) + (s.place p).moved)
    (hl : (s.place p).moved + 8 < (dmaDesc (s.place p).desc).len) :
    s.dmaMove p = some ((s.wrBytes ((dmaDesc (s.place p).desc).dstAddr (s.place p) + (s.place p).moved)
      (leBytes (dmaDesc (s.place p).desc).arg 4 ++ leBytes (dmaDesc (s.place p).desc).arg 4)).setPlace p
      { s.place p with moved := (s.place p).moved + 8, status := none }) := by
  have hlen : (leBytes (dmaDesc (s.place p).desc).arg 4 ++ leBytes (dmaDesc (s.place p).desc).arg 4).length = 8 := by
    simp [length_leBytes]
  have hput := State.dmaWrites_xram (s := s) (s.place p) hx h27 ha hlen
  unfold State.dmaMove
  simp [hop, hput, hl]

theorem State.rd_of_mem {s u : State} (h : u.mem = s.mem) (a : Nat) : u.rd a = s.rd a := by
  unfold State.rd
  rw [h]

theorem State.place_of_dma {s u : State} (h : u.dma = s.dma) (p : Nat) : u.place p = s.place p := by
  unfold State.place
  rw [h]

/-- R204: the end of a transfer records its status, its tag and its count; of the other registers only DMA_CNT may change. -/
theorem State.reg_dmaEnd (s : State) (p st : Nat) {k : Key} (h0 : k ≠ fk 0x4000E004 0) (h16 : k ≠ fk 0x4000E004 16) :
    (s.dmaEnd p st).reg k = (((s.setReg (fk (placePage p + 0x28) 0) st).setReg (fk (placePage p + 0x28) 16) (s.place p).tag).setReg
      (fk (placePage p + 0x2C) 0) (s.place p).moved).reg k := by
  refine State.reg_setReg_other _ _ _ _ ?_
  split
  · exact h0.symm
  · exact h16.symm

/-- Settles O37: GO with its two answers, the start, a beat of a FILL, and the end. -/
theorem dmaTransfersFollowTheirPlace : Obligations.DmaTransfersFollowTheirPlace := by
  unfold Obligations.DmaTransfersFollowTheirPlace
  intro place s
  dsimp only
  refine ⟨fun core ha h47 h5 => State.exec_go core place ha h47 h5, fun core hb hf hz hn => ?_, fun core h => ?_,
    fun h47 hb hs hg => congrArg Host.Outcome.next (if_pos (by simp [h47, hb, hs, hg])),
    fun h47 hb hs hst => ⟨fun hg => congrArg Host.Outcome.next (if_neg (by simp [hg])), fun n harb hop hh hx h27 ha hl => ?_⟩,
    fun st h47 hb hst => ⟨_, ?_, rfl, fun hp => ?_⟩⟩
  · rw [State.dmaGo_accepted hb hf hz hn]
    have hplace (u : State) (r : ArbReq) (k : Key) (v : Nat) :
        (((u.setPlace place (s.dmaNew core place)).stand 19 r).setReg k v).place place = s.dmaNew core place :=
      State.place_setPlace u place (s.dmaNew core place)
    rw [hplace]
    exact ⟨rfl, rfl, rfl, rfl, rfl, rfl, State.reg_setReg _ _ _, State.stands_stand _ _ _⟩
  · rw [State.dmaGo_refused h]
    obtain ⟨hlt, f, hf⟩ := s.tryRefuse_eq 19 (dmaReq core)
    rw [hf]
    exact ⟨rfl, rfl, rfl, by rw [State.reg_setReg]; exact hlt⟩
  · have hmove := State.dmaMove_fill hop hx h27 ha hl
    have hex : exec (.dmaBeat place) s = .next (s.dmaBeat place) :=
      congrArg Host.Outcome.next (if_pos (by simp [h47, hb, hs, hst, State.granted, harb]))
    rw [State.dmaBeat_moves hop hh harb hmove] at hex
    have hlen : (leBytes (dmaDesc (s.place place).desc).arg 4 ++ leBytes (dmaDesc (s.place place).desc).arg 4).length = 8 := by
      simp [length_leBytes]
    generalize leBytes (dmaDesc (s.place place).desc).arg 4 ++ leBytes (dmaDesc (s.place place).desc).arg 4 = bs at hex hlen ⊢
    generalize (dmaDesc (s.place place).desc).dstAddr (s.place place) + (s.place place).moved = a at hex ⊢
    refine ⟨_, hex, ?_, ?_, fun b hb => ?_, ?_, ?_⟩
    · exact (congrArg Place.moved (State.beaten_place _ _ _ _)).trans rfl
    · rw [State.rdBytes_of_mem (State.beaten_mem _ _ _ _), ← hlen, s.rdBytes_wrBytes]
    · rw [State.rd_of_mem (State.beaten_mem _ _ _ _), s.rd_wrBytes_outside _ _ _ (by rw [hlen]; exact hb)]
    · exact (State.beaten_regs _ _ _ _).trans ((congrArg State.regs (s.wrBytes_eq _ _)).trans rfl)
    · exact congrArg Arb.burst (State.arb_setArb _ _ _)
  · simp only [exec, execDmaEnd, hst]
    exact congrArg Host.Outcome.next (if_pos (by simp [h47, hb]))
  · rw [State.dmaTell, if_pos hp, hp]
    have hreg (k : Key) (h0 : k ≠ fk 0x4000E004 0) (h16 : k ≠ fk 0x4000E004 16) (hlev : k ≠ kLevel) :=
      (State.reg_irq (s.dmaEnd 0 st) 5 k hlev).trans (s.reg_dmaEnd 0 st h0 h16)
    refine ⟨?_, ?_, ?_, ?_, ?_, State.bit_irqEdge_irq _ _⟩
    · refine (congrArg Place.busy (State.place_of_dma (State.irq_dma _ _) 0)).trans ?_
      exact congrArg Place.busy (State.place_setPlace _ _ _)
    · rw [hreg _ (by decide) (by decide) (by decide), State.reg_setReg_other _ _ _ _ (by decide),
        State.reg_setReg_other _ _ _ _ (by decide)]
      exact State.reg_setReg _ _ _
    · rw [hreg _ (by decide) (by decide) (by decide), State.reg_setReg_other _ _ _ _ (by decide)]
      exact State.reg_setReg _ _ _
    · rw [hreg _ (by decide) (by decide) (by decide)]
      exact State.reg_setReg _ _ _
    · exact State.irq_mem _ _

end Sys2Proof.Machine
end

section
/-! PROOFS. The crypt engine's operations for the CC. -/
namespace Sys2Proof.Machine

/-- A word whose set bits all lie in a register's fields reports nothing. -/
theorem reservedEntry_of_bits (b : Nat) {fl : List Fld} {v : Nat}
    (h : ∀ i < 32, fl.any (fun f => decide (f.lo ≤ i ∧ i < f.lo + f.w)) = true ∨ bit v i = false) : reservedEntry b fl v = none := by
  have hnone : (List.range 32).find? (fun i => bit v i && !fl.any (fun f => decide (f.lo ≤ i ∧ i < f.lo + f.w))) = none := by
    refine List.find?_eq_none.mpr fun i hi => ?_
    rcases h i (List.mem_range.mp hi) with h | h <;> simp only [h] <;> simp
  simp only [reservedEntry, hnone]

theorem bit_false_of_mod {v i : Nat} (h : v / 2 ^ i % 2 = 0) : bit v i = false := by simp [bit, h]

/-! ### Commands (R207, R208) -/

def cryptCmdFields : List Fld := [fV 0 4, fV 8 6, fV 16 10]

theorem reservedEntry_cryptCmd {op slot len : Nat} (hop : op < 16) (hslot : slot < 64) (hlen : len < 1024) :
    reservedEntry 0x16 cryptCmdFields (op + slot * 256 + len * 65536) = none := by
  refine reservedEntry_of_bits _ fun i hi => ?_
  by_cases hc : cryptCmdFields.any (fun f => decide (f.lo ≤ i ∧ i < f.lo + f.w)) = true
  · exact .inl hc
  · right
    have hi : i ∈ [4, 5, 6, 7, 14, 15, 26, 27, 28, 29, 30, 31] := by
      simp only [cryptCmdFields, fV, List.any_cons, List.any_nil, Bool.or_false, Bool.or_eq_true, decide_eq_true_eq] at hc
      simp only [List.mem_cons, List.not_mem_nil, or_false]
      omega
    have hall : ∀ i ∈ [4, 5, 6, 7, 14, 15, 26, 27, 28, 29, 30, 31], (op + slot * 256 + len * 65536) / 2 ^ i % 2 = 0 := by
      simp only [List.forall_mem_cons, List.not_mem_nil, false_imp_iff, implies_true, and_true]
      refine ⟨?_, ?_, ?_, ?_, ?_, ?_, ?_, ?_, ?_, ?_, ?_, ?_⟩ <;> omega
    exact bit_false_of_mod (hall i hi)

theorem State.regCommand_crypt {s : State} (ha : s.aon = true) (h49 : s.isUp 49 = true) (h5 : s.isUp 5 = true) {op slot len : Nat}
    (hop : op < 16) (hslot : slot < 64) (hlen : len < 1024) :
    s.regCommand 0x40016004 (op + slot * 256 + len * 65536) = s.cryptCmd op slot len := by
  have hc : commandReg 0x40016004 0x16 cryptCmdFields = true := by decide
  have hb : blockOf 0x40016004 = some 0x16 := by decide
  have ho : 0x40016004 - blockBase 0x16 = 0x004 := by decide
  have hon : s.blockOn 0x16 = true := by simp [State.blockOn, blockDoms, ha, h49]
  have hand : (op + slot * 256 + len * 65536) &&& 0xFFFFFFFF = op + slot * 256 + len * 65536 :=
    (Nat.and_two_pow_sub_one_eq_mod _ 32).trans (Nat.mod_eq_of_lt (by omega))
  have hw (lo : Nat) := wroteAt_commandWrites 0x40016004 (op + slot * 256 + len * 65536) (fl := cryptCmdFields) lo (by decide)
  have h0 : wroteAt (commandWrites 0x40016004 (op + slot * 256 + len * 65536) cryptCmdFields) 0 = some op := by
    rw [hw, hand]; simp [cryptCmdFields, fV, bits]; omega
  have h8 : wroteAt (commandWrites 0x40016004 (op + slot * 256 + len * 65536) cryptCmdFields) 8 = some slot := by
    rw [hw, hand]; simp [cryptCmdFields, fV, bits]; omega
  have h16 : wroteAt (commandWrites 0x40016004 (op + slot * 256 + len * 65536) cryptCmdFields) 16 = some len := by
    rw [hw, hand]; simp [cryptCmdFields, fV, bits]; omega
  have hact (ws : List (Key × Nat)) : s.blockAct s 0 0x16 0x004 ws =
      (wroteAt ws 0).elim s (fun op => s.cryptCmd op ((wroteAt ws 8).getD 0) ((wroteAt ws 16).getD 0)) := rfl
  rw [s.regCommand_command hc (by rw [hand]; exact reservedEntry_cryptCmd hop hslot hlen) (by simp [State.addrOn, hb, hon])
    (by simp [State.regOn, hb, hon]) h5, ho, hact, h0, h8, h16]
  rfl

/-! ### Results (R208) -/

/-- Free bytes move the free values alone. -/
theorem State.freeBytes_fresh (s : State) (n : Nat) : ∃ f, (s.freeBytes n).2 = { s with fresh := f } := by
  induction n generalizing s with
  | zero => exact ⟨_, rfl⟩
  | succ n ih =>
    obtain ⟨f, hf⟩ := ih (s.freeBits 8).2
    exact ⟨f, hf⟩

/-- Working out an operation's answer moves the free values and the count of signatures alone. -/
theorem State.cryptResult_eq (s : State) (op slot len tag : Nat) : (s.cryptResult op slot len tag).1.tag = tag ∧
    ∃ f n, (s.cryptResult op slot len tag).2 = { s with fresh := f, crypt := { s.crypt with signs := n } } := by
  unfold State.cryptResult
  dsimp only
  split
  · exact ⟨rfl, s.fresh, s.crypt.signs, rfl⟩
  · split
    case h_6 => exact ⟨rfl, s.fresh, s.crypt.signs + 1, rfl⟩
    case h_7 =>
      obtain ⟨f, hf⟩ := s.freeBytes_fresh 32
      refine ⟨rfl, f, s.crypt.signs, ?_⟩
      dsimp only
      rw [hf]
    all_goals repeat' split
    all_goals exact ⟨rfl, s.fresh, s.crypt.signs, rfl⟩

/-! ### The try request and the end (R207–R209) -/

section
variable {s : State}

theorem State.cryptCmd_refused (h : s.placeFree 18 1 = false ∨ s.arbFrozen 18 = true) (op slot len : Nat) :
    s.cryptCmd op slot len = (s.tryRefuse 18 1).2.setReg (fk 0x40016008 0) (s.tryRefuse 18 1).1 :=
  if_pos (by rcases h with h | h <;> simp [h])

/-- An accepted operation: in hand with its tag, and standing for its blocks if it is UNWRAP. -/
theorem State.cryptCmd_accepted (hf : s.placeFree 18 1 = true) (hz : s.arbFrozen 18 = false) (op slot len : Nat) : ∃ f n,
    s.cryptCmd op slot len =
      let u : State := { s with
        fresh := f
        crypt := { s.crypt with signs := n, op := some (s.cryptResult op slot len (placeTag 0 s.crypt.count)).1,
                                count := (s.crypt.count + 1) % 8192 } }
      (if op = 1 then u.stand 18 cryptReq else u).setReg (fk 0x40016008 0) (2 ^ 31 + placeTag 0 s.crypt.count) := by
  obtain ⟨-, f, n, hr⟩ := s.cryptResult_eq op slot len (placeTag 0 s.crypt.count)
  refine ⟨f, n, (if_neg (by simp [hf, hz])).trans ?_⟩
  dsimp only
  rw [hr]

/-- A free place has nothing standing. -/
theorem State.stands_of_placeFree {i k : Nat} (h : s.placeFree i k = true) : s.stands i k = false := by
  simp only [State.placeFree, Bool.and_eq_true, Bool.not_eq_true'] at h
  exact h.1.1

end

/-- The key slots after an operation. -/
def CryptOp.keys (o : CryptOp) (keys : Tab (Option Nat)) : Tab (Option Nat) :=
  match o.slot with
  | some (t, k) => Tab.set (fun _ => none) keys t k
  | none => keys

theorem CryptOp.keys_none (o : CryptOp) (h : o.slot = none) (keys : Tab (Option Nat)) : o.keys keys = keys := by
  simp only [CryptOp.keys, h]

theorem CryptOp.keys_some (o : CryptOp) {n : Nat} {k : Option Nat} (h : o.slot = some (n, k)) (keys : Tab (Option Nat)) :
    o.keys keys = Tab.set (fun _ => none) keys n k := by
  simp only [CryptOp.keys, h]

theorem State.cryptEnd_eq (s : State) (o : CryptOp) :
    (s.cryptEnd o).crypt = { s.crypt with op := none, buf := o.buf.getD s.crypt.buf, keys := o.keys s.crypt.keys } ∧
    (s.cryptEnd o).mem = s.mem ∧ (s.cryptEnd o).reg (fk 0x4001600C 0) = o.status ∧ (s.cryptEnd o).reg (fk 0x4001600C 16) = o.tag ∧
    bit (s.cryptEnd o).irqEdge 6 = true := by
  have hcnt (lo : Nat) (hlo : lo = 0 ∨ lo = 16) : fk 0x40016040 (if o.status = 0 then 0 else 16) ≠ fk 0x4001600C lo := by
    rcases hlo with rfl | rfl <;> split <;> decide
  refine ⟨State.irq_crypt _ _, State.irq_mem _ _, ?_, ?_, State.bit_irqEdge_irq _ _⟩
  · refine (State.reg_irq _ _ _ (by decide)).trans ((State.reg_setReg_other _ _ _ _ (hcnt 0 (.inl rfl))).trans ?_)
    rw [State.reg_setReg_other _ _ _ _ (by decide)]
    exact State.reg_setReg _ _ _
  · refine (State.reg_irq _ _ _ (by decide)).trans ((State.reg_setReg_other _ _ _ _ (hcnt 16 (.inr rfl))).trans ?_)
    exact State.reg_setReg _ _ _

/-- Settles O38. That an operation of number 3 or above with a SLOT other than 0 is a bad command rests on log entry 144, that an
answer is worked out when its operation is accepted on entry 33. -/
theorem cryptOperationsAnswer : Obligations.CryptOperationsAnswer := by
  unfold Obligations.CryptOperationsAnswer
  intro s ha h49 h5
  have hcmd (op slot len : Nat) (hop : op < 16) (hslot : slot < 64) (hlen : len < 1024) :
      s.regCommand 0x40016004 (op + slot * 256 + len * 65536) = s.cryptCmd op slot len := State.regCommand_crypt ha h49 h5 hop hslot hlen
  refine ⟨fun hf hz => ⟨fun c n slot len hm => ?_, fun slot => ⟨?_, ?_⟩, fun len => ?_, fun op slot len => ?_⟩, fun h op slot len => ?_,
    fun o ho hst => ?_, fun o ho hst => ?_, fun n tag => ?_, fun slot n tag => rfl, fun op slot n tag hop hs => ?_, fun slot n tag hk => ?_⟩
  · simp only [List.mem_cons, List.not_mem_nil, or_false, Prod.mk.injEq] at hm
    rcases hm with ⟨rfl, rfl, rfl, rfl⟩ | ⟨rfl, rfl, rfl, rfl⟩ | ⟨rfl, rfl, rfl, rfl⟩ | ⟨rfl, rfl, rfl, rfl⟩ | ⟨rfl, rfl, rfl, rfl⟩
    all_goals exact congrArg Host.Outcome.next (hcmd _ 0 0 (by decide) (by decide) (by decide))
  · exact congrArg Host.Outcome.next (hcmd 1 slot 0 (by decide) slot.isLt (by decide))
  · exact congrArg Host.Outcome.next (hcmd 2 slot 0 (by decide) slot.isLt (by decide))
  · exact congrArg Host.Outcome.next (hcmd 3 0 len (by decide) (by decide) len.isLt)
  · obtain ⟨f, n, h⟩ := State.cryptCmd_accepted hf hz op slot len
    have htag := (s.cryptResult_eq op slot len (placeTag 0 s.crypt.count)).1
    have hst := State.stands_of_placeFree hf
    rw [h]
    generalize (s.cryptResult op slot len (placeTag 0 s.crypt.count)).1 = r at htag ⊢
    by_cases hop : op = 1
    · dsimp only
      rw [if_pos hop]
      exact ⟨congrArg some htag, rfl, rfl, rfl, State.reg_setReg _ _ _, (State.stands_stand _ _ cryptReq).trans (by simp [hop])⟩
    · dsimp only
      rw [if_neg hop]
      exact ⟨congrArg some htag, rfl, rfl, rfl, State.reg_setReg _ _ _, (hst.trans (by simp [hop]) : s.stands 18 1 = _)⟩
  · obtain ⟨hlt, f, hr⟩ := s.tryRefuse_eq 18 1
    rw [State.cryptCmd_refused h, hr]
    exact ⟨rfl, by rw [State.reg_setReg]; exact hlt⟩
  · simp only [exec, execCryptOperationEnd, ho]
    exact congrArg Host.Outcome.next (if_neg (by rw [State.stands] at hst; simp [hst]))
  · have hex : exec .cryptOperationEnd s = .next (s.cryptEnd o) := by
      simp only [exec, execCryptOperationEnd, ho]
      exact congrArg Host.Outcome.next (if_pos (by rw [State.stands] at hst; simp [h49, hst]))
    obtain ⟨hcrypt, hmem, hst, htag, hirq⟩ := s.cryptEnd_eq o
    refine ⟨_, hex, by rw [hcrypt], by rw [hcrypt], hst, htag, hirq, hmem, fun hs => ?_, fun n k hs => ?_⟩
    · rw [hcrypt]
      exact o.keys_none hs _
    have hkeys : (s.cryptEnd o).crypt.keys = Tab.set (fun _ => none) s.crypt.keys n k := by rw [hcrypt]; exact o.keys_some hs _
    rw [hkeys]
    exact ⟨Tab.get_set_same _ _ _ _, fun m hm => Tab.get_set_other _ _ _ _ _ hm.symm⟩
  · by_cases h : 512 < n
    · simp [State.cryptResult, h]
    · simp [State.cryptResult, h]
  · simp [State.cryptResult, hop, hs]
  · simp [State.cryptResult, hk]

end Sys2Proof.Machine
end

section
/-! PROOFS. What a granted access changes: the arbiter's own state and its counters. -/
namespace Sys2Proof.Machine

/-- One state is another but for its arbiters, and for registers other than those that `i` may count in. -/
def ArbOnly (i : Nat) (s t : State) : Prop :=
  (∃ a r, t = { s with arbs := a, regs := r }) ∧ (i < 20 → ∀ k, k ≠ kArb i 0x14 0 → t.reg k = s.reg k)

theorem ArbOnly.refl (i : Nat) (s : State) : ArbOnly i s s := ⟨⟨_, _, rfl⟩, fun _ _ _ => rfl⟩

theorem ArbOnly.trans {i : Nat} {s t u : State} (h : ArbOnly i s t) (k : ArbOnly i t u) : ArbOnly i s u := by
  obtain ⟨⟨a, r, rfl⟩, h⟩ := h
  obtain ⟨⟨a', r', rfl⟩, k⟩ := k
  exact ⟨⟨a', r', rfl⟩, fun hi j hj => (k hi j hj).trans (h hi j hj)⟩

theorem ArbOnly.setArb (i : Nat) (s : State) (j : Nat) (a : Arb) : ArbOnly i s (s.setArb j a) := ⟨⟨_, _, rfl⟩, fun _ _ _ => rfl⟩

theorem ArbOnly.arbDecide (s : State) (i : Nat) : ArbOnly i s (s.arbDecide i) := by
  unfold State.arbDecide
  dsimp only
  split
  · exact .setArb i s i _
  · split
    · split
      · exact ⟨⟨_, _, rfl⟩, fun _ k hk => State.reg_setReg_other _ _ _ _ hk.symm⟩
      · exact .setArb i s i _
    · next hi =>
      refine ⟨?_, fun h => absurd h hi⟩
      split
      · split <;> exact ⟨_, _, rfl⟩
      · split <;> exact ⟨_, _, rfl⟩

theorem ArbOnly.serve {i k n : Nat} {s t : State} (h : s.serve i k n = some t) : ArbOnly i s t := by
  induction n generalizing s with
  | zero => contradiction
  | succ n ih =>
    unfold State.serve at h
    split at h
    · contradiction
    · split at h
      · obtain rfl := Option.some.inj h
        exact .setArb i s i _
      · split at h
        · exact (ArbOnly.arbDecide s i).trans (ih h)
        · contradiction

theorem ArbOnly.useArb {i : Nat} {r : ArbReq} {s t : State} (h : s.useArb i r = some t) : ArbOnly i s t := by
  unfold State.useArb at h
  split at h
  · contradiction
  · dsimp only at h
    split at h
    · exact ArbOnly.serve h
    · exact (ArbOnly.setArb i s i _).trans (ArbOnly.serve h)

section
variable {i : Nat} {s t : State} (h : ArbOnly i s t)
include h

theorem ArbOnly.mem : t.mem = s.mem := by obtain ⟨⟨a, r, rfl⟩, -⟩ := h; rfl
theorem ArbOnly.cat : t.cat = s.cat := by obtain ⟨⟨a, r, rfl⟩, -⟩ := h; rfl
theorem ArbOnly.ten : t.ten = s.ten := by obtain ⟨⟨a, r, rfl⟩, -⟩ := h; rfl
theorem ArbOnly.pmu : t.pmu = s.pmu := by obtain ⟨⟨a, r, rfl⟩, -⟩ := h; rfl
theorem ArbOnly.flag (hi : i < 20) {k : Key} (hk : k ≠ kArb i 0x14 0) : t.flag k = s.flag k := by
  unfold State.flag
  rw [h.2 hi k hk]

end

theorem kArb_ne {i lo a : Nat} (hi : i < 20) (ha : 0x40005280 ≤ a) : fk a lo ≠ kArb i 0x14 0 := by
  unfold kArb fk Key
  omega

end Sys2Proof.Machine
end

section
/-! PROOFS. The catalog: posted writes and attempts, reads, the summary and the scrubber. -/
namespace Sys2Proof.Machine

/-! ### Writes are refused, wait or post (R188, R189) -/

section
variable {s : State} {w : Writer} {off : Nat}

theorem State.wbAccept_refused {r : WbRes} (bs : List Byte) (e : WbEnt) (h : s.wbRefusal w off = some (r, none)) :
    s.wbAccept w off bs e = (r, s.count kCatRefused 16 1) := by
  simp only [State.wbAccept, h]
  rfl

theorem State.wbAccept_full (bs : List Byte) (e : WbEnt) (h : s.wbRefusal w off = none) (hl : s.cat.wb.length = 32) :
    s.wbAccept w off bs e = (.full, s) := by
  simp only [State.wbAccept, h]
  exact if_pos (Nat.le_of_eq hl.symm)

/-- A posted write goes to the end of the buffer, in the word or block that it lies in. -/
theorem State.wbAccept_posted (bs : List Byte) (e : WbEnt) (h : s.wbRefusal w off = none) (hl : s.cat.wb.length < 32) :
    ∃ l x, (s.wbAccept w off bs e).2 = { s with cat := { s.cat with wb := l ++ [x] } } ∧
      x.off ≤ off ∧ off < x.off + 16 ∧ x.origin = e.origin ∧ x.attempts = e.attempts := by
  simp only [State.wbAccept, h]
  rw [if_neg (Nat.not_le.mpr hl)]
  have hunit : ∀ b : Bool, 0 < (if b then 16 else 8) ∧ (if b then 16 else 8) ≤ 16 := by decide
  obtain ⟨hpos, hle⟩ := hunit (if off < catTop then s.recOwner off else none).isSome
  exact ⟨_, _, rfl, Nat.div_mul_le_self _ _, Nat.lt_of_lt_of_le (Nat.lt_div_mul_add hpos) (Nat.add_le_add_left hle _), rfl, rfl⟩

theorem State.wbRefusal_unpowered (w : Writer) (h : s.isUp (catDom off) = false) : s.wbRefusal w off = some (.busErr, none) := by
  simp [State.wbRefusal, h]

theorem State.wbRefusal_reserved (h : s.isUp (catDom off) = true) (ht : catTop ≤ off) (hs : w ≠ .scrub) (hc : w ≠ .cc ∨ off < snapOff) :
    s.wbRefusal w off = some (.busErr, none) := by
  simp [State.wbRefusal, h, ht, hs, hc]

theorem State.wbRefusal_low (w : Writer) (h : s.isUp (catDom off) = true) (ht : off < catTop) (hl : s.allow < 4 ∨ s.storeLow = true) :
    s.wbRefusal w off = some (.refused, some 0x500) := by
  simp [State.wbRefusal, h, Nat.not_le.mpr ht, hl]

theorem State.wbRefusal_key (w : Writer) {t : Nat} (h : s.isUp (catDom off) = true) (ht : off < catTop) (ha : 4 ≤ s.allow)
    (hl : s.storeLow = false) (ho : s.recOwner off = some t) (hk : s.keyLoaded t = false) :
    s.wbRefusal w off = some (.refused, some 6) := by
  simp [State.wbRefusal, h, Nat.not_le.mpr ht, Nat.not_lt.mpr ha, hl, ho, hk]

end

/-! ### The poison check beside a write to the array (R187, R194–R196) -/

/-- What memory holds below the array does not follow a write to it. -/
theorem State.rdLe_of_agree {s u : State} {a n : Nat} (h : ∀ i, i < n → u.rd (a + i) = s.rd (a + i)) : u.rdLe a n = s.rdLe a n := by
  have hb : u.rdBytes a n = s.rdBytes a n := by
    simp only [State.rdBytes]
    exact List.map_congr_left fun i hi => h i (List.mem_range.mp hi)
  simp only [State.rdLe, hb]

/-- A word of the array is poisoned by its map word, the summary and the list alone. -/
theorem State.poisoned_of_agree {s u : State} {off : Nat} (hf : off < catTop → u.flag kSummaryValid = s.flag kSummaryValid)
    (h : ∀ a, a < catAddr off ∨ catAddr off + 8 ≤ a → u.rd a = s.rd a) : u.poisoned off = s.poisoned off := by
  by_cases ht : off < catTop
  · have hsum : u.summaryBit (mapIdx off) = s.summaryBit (mapIdx off) := by
      unfold State.summaryBit
      rw [h _ (by unfold catAddr mapIdx catTop at *; omega)]
    have hmap : u.mapBit off = s.mapBit off := by
      unfold State.mapBit
      rw [h _ (by unfold catAddr mapByte catTop at *; omega)]
    have hfail (i : Nat) (hi : i < 8) : u.mapFail i = s.mapFail i := by
      unfold State.mapFail
      rw [State.rdLe_of_agree fun j hj => h _ (by unfold catAddr mapFailAddr; omega)]
    have hlist : u.mapListed (mapIdx off) = s.mapListed (mapIdx off) := by
      refine Bool.eq_iff_iff.mpr ?_
      simp only [State.mapListed, List.any_eq_true]
      exact exists_congr fun i => and_congr_right fun hi => by rw [hfail i (List.mem_range.mp hi)]
    rw [State.poisoned, State.poisoned, hf ht, hsum, hmap, hlist]
  · simp [State.poisoned, ht]

/-! ### Attempts (R190–R193) -/

section
variable {s u : State} {e : WbEnt} {rest : List WbEnt}

theorem WbEnt.words_single (h : e.record = false) : e.words = [e.off] := by simp [WbEnt.words, h]

/-- With no switch-off waiting and no tenant being reset, an entry retires alone. -/
theorem State.retire_eq (hwb : s.cat.wb = e :: rest) (hr : s.ten.reset = none) (ho : s.pmu.offHold = []) (p : Bool) :
    s.retire p = { s with cat := { s.cat with wb := rest } } := by
  have hrel (v : State) (hv : v.pmu.offHold = []) : v.releaseHeld = v := by
    have he : v.releaseHeld = { v with pmu := { v.pmu with offHold := [] } } := by
      unfold State.releaseHeld
      rw [hv]
      rfl
    rw [he, ← hv]
  unfold State.retire
  rw [hwb]
  dsimp only
  rw [hr]
  exact hrel _ ho

/-- One word still to verify: the attempt asks for one beat, and stores the word or leaves it. -/
theorem State.attempt_single (hl : e.left = 1) (hg : s.useArb (catInst e.off) (plainReq 2 1) = some u) (fail : Bool) :
    s.attempt e rest fail false = some ((if fail then u else (u.wrBytes (catAddr e.off) (e.merged.take 8)).setEcc e.off 0).attemptEnd
      { e with left := ofBool fail, attempts := e.attempts + 1 } rest) := by
  have hb0 : bit e.left 0 = true := by rw [hl]; decide
  have hb1 : bit e.left 1 = false := by rw [hl]; decide
  have hset : ∀ f : Bool, setBit (setBit 1 0 f) 1 false = ofBool f := by decide
  have hbeats : ofBool true + ofBool false = 1 := rfl
  unfold State.attempt
  rw [hb0, hb1, hbeats, hg, hl]
  cases fail
  · simp [hset]
  · simp [hset]

/-- An entry whose words are all verified, and were not poisoned, retires. -/
theorem State.attemptEnd_done (hrec : e.record = false) (hl : e.left = 0) (hp : s.poisoned e.off = false) (hr : s.ten.reset = none)
    (ho : s.pmu.offHold = []) : s.attemptEnd e rest = { s with cat := { s.cat with wb := rest } } := by
  have hp' : ({ s with cat := { s.cat with wb := e :: rest } } : State).poisoned e.off = false := hp
  unfold State.attemptEnd
  dsimp only
  rw [if_pos hl, e.words_single hrec, List.filter_cons_of_neg (by rw [hp']; exact Bool.false_ne_true)]
  exact State.retire_eq (s := { s with cat := { s.cat with wb := e :: rest } }) rfl hr ho false

/-- R192: the fourth failure of a word below the reserved area makes its map update due. -/
theorem State.attemptEnd_poisons (hrec : e.record = false) (hl : e.left ≠ 0) (ha : e.attempts = 4) (ht : e.off < catTop) :
    s.attemptEnd e rest = ({ s with cat := { s.cat with wb := e :: rest } } : State).poisonWords [e.off]
      (catRec 1 e.tenant e.seq e.off e.toff e.seg 4 e.origin) true false := by
  unfold State.attemptEnd
  dsimp only
  rw [if_neg hl, if_neg (by omega), if_neg (Nat.not_le.mpr ht), e.words_single hrec]

theorem State.length_freeBytes (s : State) (n : Nat) : (s.freeBytes n).1.length = n := by
  induction n generalizing s with
  | zero => rfl
  | succ n ih => exact congrArg (· + 1) (ih _)

/-- A map update falls due behind those there. -/
def State.addDue (s : State) (d : MapDue) : State := { s with cat := { s.cat with mapDue := s.cat.mapDue ++ [d] } }

/-- R192: a word that fails leaves its content free, its summary bit set and its map update due. -/
theorem State.poisonWords_single (s : State) (off : Nat) (r : ErrRec) (ht : off < catTop) :
    (s.poisonWords [off] r true false).cat.mapDue =
      s.cat.mapDue ++ [{ offs := [off], poison := true, report := some r, retires := true }] ∧
    ∀ a, a < 0x12000000 ∨ 0x12010000 ≤ a → a < catAddr off ∨ catAddr off + 8 ≤ a → (s.poisonWords [off] r true false).rd a = s.rd a := by
  obtain ⟨f, hf⟩ := s.freeBytes_fresh 8
  have hlen := s.length_freeBytes 8
  have heq : s.poisonWords [off] r true false =
      (((s.freeBytes 8).2.wrBytes (catAddr off) (s.freeBytes 8).1).setSummary (mapIdx off) true).addDue
        { offs := [off], poison := true, report := some r, retires := true } := rfl
  rw [heq, hf]
  generalize (s.freeBytes 8).1 = bs at hlen ⊢
  refine ⟨?_, fun a hs ha => ?_⟩
  · exact (congrArg (fun u : State => u.cat.mapDue ++ [_]) (State.wrBytes_eq { s with fresh := f } (catAddr off) bs)).trans rfl
  · have hne : 0x12000000 + mapIdx off / 8 ≠ a := by
      unfold mapIdx
      unfold catTop at ht
      omega
    refine (State.rd_wr_at _ _ _ _).trans ((if_neg hne).trans ?_)
    exact State.rd_wrBytes_outside { s with fresh := f } _ _ _ (by rw [hlen]; exact ha)

/-- A word stored in the array, its ECC clean. -/
theorem State.stored_eq (off : Nat) (bs : List Byte) :
    ((u.wrBytes (catAddr off) bs).setEcc off 0).regs = u.regs ∧ ((u.wrBytes (catAddr off) bs).setEcc off 0).ten = u.ten ∧
    ((u.wrBytes (catAddr off) bs).setEcc off 0).pmu = u.pmu ∧ ((u.wrBytes (catAddr off) bs).setEcc off 0).cat.mapDue = u.cat.mapDue ∧
    ((u.wrBytes (catAddr off) bs).setEcc off 0).mem = (u.wrBytes (catAddr off) bs).mem := by
  have h := u.wrBytes_eq (catAddr off) bs
  refine ⟨?_, ?_, ?_, ?_, rfl⟩
  · exact (congrArg State.regs h).trans rfl
  · exact (congrArg State.ten h).trans rfl
  · exact (congrArg State.pmu h).trans rfl
  · exact (congrArg (fun t : State => t.cat.mapDue) h).trans rfl

/-- A whole word needs no read before its first attempt. -/
theorem State.prepare_word (err : Nat) (hrec : e.record = false) (hm : e.mask = 255) :
    s.prepare e err = some ({ e with started := true, merged := e.data }, s) :=
  if_pos (by simp [hrec, hm])

end

/-! ### Map updates (R192, R195) -/

/-- What a map update that is reported leaves behind the change of the map. -/
def State.mapReported (v : State) (d : MapDue) (r : ErrRec) : State :=
  let v1 := ((v.count kCatPoisons 24 d.offs.length).setReg (fk 0x40008020 0) (d.offs.getLastD 0)).raise r
  if d.retires then v1.retire d.poison else v1

theorem State.mapUpdate_eq {s u : State} {d : MapDue} {rest : List MapDue} {r : ErrRec} (hd : s.cat.mapDue = d :: rest)
    (hr : d.report = some r)
    (hg : (({ s with cat := { s.cat with mapDue := rest } } : State).power15).useArb 15 (plainReq 1 2) = some u)
    (hk : (u.eccKind (catTop + 8 * mapIdx (d.offs.headD 0))).1 ≠ 1) (fails : Bool) :
    s.mapUpdate fails = (if fails then u.mapWordFails (mapIdx (d.offs.headD 0)) 4
      else if (u.eccKind (catTop + 8 * mapIdx (d.offs.headD 0))).1 = 2 then u.mapWordFails (mapIdx (d.offs.headD 0)) 0
      else u.mapApply d.offs d.poison).mapReported d r := by
  unfold State.mapUpdate
  rw [hd]
  dsimp only
  rw [hg]
  dsimp only
  rw [if_neg hk, hr]
  rfl

/-- Settles O35. That a two-bit error in the map word of an update is a failed map word rests on log entry 142. -/
theorem catalogWritesAndAttempts : Obligations.CatalogWritesAndAttempts := by
  unfold Obligations.CatalogWritesAndAttempts
  refine ⟨⟨fun addr data s k h5 hk => ?_, fun s w off => ⟨fun hu => State.wbRefusal_unpowered w hu,
      fun hu h1 h2 hs => State.wbRefusal_reserved hu h1 hs (.inr h2), fun hu ht hl => State.wbRefusal_low w hu ht hl,
      fun hu ht hs hc => State.wbRefusal_reserved hu (Nat.le_trans (by decide) ht) hs (.inl hc),
      fun t hu ht ha hl ho hk => State.wbRefusal_key w hu ht ha hl ho hk⟩⟩,
    fun s e rest hwb hu => ⟨fun hrec hst hm hl hlen hcut hrst hdue hp hr ho m u hg => ?_,
      fun hrec hst hl hatt ht hdue m u hg => ?_, fun d hd => ?_⟩,
    fun s d rest r u hd hr hg => ⟨fun h0 => ⟨?_, ?_⟩, fun h2 => ?_⟩, fun s hd f => ?_⟩
  · dsimp only
    intro h1 h8
    have hex : exec (.catalogWrite addr data) s =
        .next (s.wbAccept .cc (addr.toNat - 0x20000000) data (s.ccTag (addr.toNat - 0x20000000))).2 := by
      simp only [exec, execCatalogWrite, hk]
      exact if_pos (by simp [h5, h1, h8])
    refine ⟨fun r hr => ?_, fun hn hl => ?_, fun hn hl => ?_⟩
    · rw [hex, State.wbAccept_refused _ _ hr]
    · rw [hex, State.wbAccept_full _ _ hn hl]
    · obtain ⟨l, x, hs, hlo, hhi, horg, hatt⟩ := State.wbAccept_posted data (s.ccTag (addr.toNat - 0x20000000)) hn hl
      rw [hs] at hex
      exact ⟨_, x, hex, rfl, rfl, ⟨l, rfl⟩, hlo, hhi, horg, hatt⟩
  · have hab := ArbOnly.useArb hg
    have hex : exec (.writeAttempt false false m) s =
        .next ((s.attempt { e with started := true, merged := e.data } rest false false).getD s) := by
      simp only [exec, execWriteAttempt, hwb]
      rw [if_neg (by simp [hdue, hst, hcut, hrst, hu]), hst, if_neg Bool.false_ne_true, State.prepare_word _ hrec hm]
      rfl
    rw [State.attempt_single (e := { e with started := true, merged := e.data }) hl hg false] at hex
    have hstored := State.stored_eq (u := u) e.off (e.data.take 8)
    obtain ⟨hreg, hten, hpmu, hcat, hmem⟩ := hstored
    have htake : e.data.take 8 = e.data := List.take_of_length_le (Nat.le_of_eq hlen)
    have hout (a : Nat) (ha : a < catAddr e.off ∨ catAddr e.off + 8 ≤ a) :
        ((u.wrBytes (catAddr e.off) (e.data.take 8)).setEcc e.off 0).rd a = s.rd a := by
      rw [State.rd_of_mem hmem, u.rd_wrBytes_outside _ _ _ (by rw [htake, hlen]; exact ha), State.rd_of_mem hab.mem]
    have hpois : ((u.wrBytes (catAddr e.off) (e.data.take 8)).setEcc e.off 0).poisoned e.off = false := by
      rw [← hp]
      refine State.poisoned_of_agree (fun ht => ?_) hout
      have hi : catInst e.off < 20 := by unfold catInst catTop at *; omega
      rw [← hab.flag hi (k := kSummaryValid) (kArb_ne hi (by decide))]
      unfold State.flag
      rw [State.reg_of_regs hreg]
    have hend := State.attemptEnd_done (s := (u.wrBytes (catAddr e.off) (e.data.take 8)).setEcc e.off 0)
      (e := { e with started := true, merged := e.data, left := ofBool false, attempts := e.attempts + 1 }) (rest := rest) hrec rfl hpois
      (by rw [hten, hab.ten]; exact hr) (by rw [hpmu, hab.pmu]; exact ho)
    refine ⟨_, hex.trans (congrArg Host.Outcome.next hend), rfl, ?_, hreg, fun i hi => ?_, hout⟩
    · exact hcat.trans (by rw [hab.cat]; exact hdue)
    · refine (State.rd_of_mem hmem _).trans ?_
      rw [htake, State.rd_wrBytes_getD _ _ _ (by rw [hlen]; exact hi)]
  · have hab := ArbOnly.useArb hg
    have hex : exec (.writeAttempt true false m) s = .next ((s.attempt e rest true false).getD s) := by
      simp only [exec, execWriteAttempt, hwb]
      rw [if_neg (by simp [hdue, hst, hu]), hst]
      rfl
    rw [State.attempt_single hl hg true] at hex
    have hend := State.attemptEnd_poisons (s := u) (e := { e with left := ofBool true, attempts := e.attempts + 1 }) (rest := rest)
      hrec Nat.one_ne_zero (by rw [hatt]) ht
    obtain ⟨hd, hrd⟩ := State.poisonWords_single ({ u with cat := { u.cat with
      wb := { e with left := ofBool true, attempts := e.attempts + 1 } :: rest } } : State) e.off
      (catRec 1 e.tenant e.seq e.off e.toff e.seg 4 e.origin) ht
    refine ⟨_, hex.trans (congrArg Host.Outcome.next hend), 
      ⟨{ offs := [e.off], poison := true, report := some (catRec 1 e.tenant e.seq e.off e.toff e.seg 4 e.origin), retires := true },
        ?_, rfl, rfl, rfl⟩, fun a hs ha => ?_⟩
    · refine hd.trans ?_
      have hnil : u.cat.mapDue = [] := by rw [hab.cat]; exact hdue
      exact (congrArg (· ++ _) hnil).trans rfl
    · exact (hrd a hs ha).trans (State.rd_of_mem hab.mem a)
  · simp only [exec, execWriteAttempt, hwb]
    exact if_pos (by simp [hd])
  · exact congrArg Host.Outcome.next ((State.mapUpdate_eq hd hr hg (by rw [h0]; decide) false).trans (by rw [h0]; rfl))
  · exact congrArg Host.Outcome.next ((State.mapUpdate_eq hd hr hg (by rw [h0]; decide) true).trans rfl)
  · exact congrArg Host.Outcome.next ((State.mapUpdate_eq hd hr hg (by rw [h2]; decide) false).trans (by rw [h2]; rfl))
  · refine congrArg Host.Outcome.next ?_
    unfold State.mapUpdate
    rw [hd]

end Sys2Proof.Machine
end

section
/-! PROOFS. Catalog reads, the summary's rebuild and the scrubber. -/
namespace Sys2Proof.Machine

/-! ### Reads of one word (R181, R187) -/

/-- What a read of a word outside the record areas needs before its bank is asked: power, and no pending write or map update. -/
def State.readable (s : State) (off : Nat) : Prop :=
  s.isUp (catDom off) = true ∧ s.cat.wb = [] ∧ s.cat.mapDue = [] ∧ off < catTop ∧ s.recOwner off = none

section
variable {s u : State} {off : Nat}

/-- The bits found in error in a word show in it, as far as they exceed those it held. -/
def State.found (s : State) (off n : Nat) : State := if s.eccOf off < n then s.setEcc off n else s

theorem State.eccOf_found {n : Nat} (h : s.eccOf off ≤ n) : (s.found off n).eccOf off = n := by
  unfold State.found
  split
  · simp [State.eccOf, State.setEcc]
  · omega

theorem State.found_eq (s : State) (off n : Nat) : ∃ e, s.found off n = { s with cat := { s.cat with ecc := e } } := by
  unfold State.found
  split <;> exact ⟨_, rfl⟩

/-- The word is read once its bank has granted the beat and its map word need not be read. -/
theorem State.catRead_word {r : ArbReq} (h : s.readable off) (hb : r.beats = 1) (hg : s.useArb (catInst off) r = some u)
    (hv : s.flag kSummaryValid = true) (hsum : s.summaryBit (mapIdx off) = false) :
    (s.catRead r off).2 = (u.readWords [off] 3).2 := by
  obtain ⟨hup, hwb, hdue, ht, howner⟩ := h
  have hab := ArbOnly.useArb hg
  have hi : catInst off < 20 := by unfold catInst catTop at *; omega
  have hflag : u.flag kSummaryValid = true := (hab.flag hi (k := kSummaryValid) (kArb_ne hi (by decide))).trans hv
  have hbit : u.summaryBit (mapIdx off) = false := by
    rw [← hsum]
    unfold State.summaryBit
    rw [State.rd_of_mem hab.mem]
  have hpois : u.poisonCheck off = some (false, u) := by
    rw [State.poisonCheck, if_neg (Nat.not_le.mpr ht), if_pos (by simp [hflag, hbit])]
  have hreq : ({ r with beats := [off].length } : ArbReq) = r := by cases r; simpa using hb.symm
  unfold State.catRead
  simp only [ht, if_true, howner, hup, hwb, hdue, List.any_nil, Bool.not_true, Bool.false_eq_true, if_false, Bool.or_self,
    Option.isSome_none, Option.elim_none, hreq, hg, Option.bind_some, hpois]
  rcases u.readWords [off] 3 with ⟨_ | bs, v⟩ <;> rfl

/-- R181: what a read of one word does by the bits in error that it finds. -/
theorem State.readWords_clean (h : u.eccOf off = 0) : (u.readWords [off] 3).2 = u := by
  have hk : u.eccKind off = (0, none) := by simp only [State.eccKind, h]
  simp [State.readWords, hk]

theorem State.readWords_corrected (h : u.eccOf off = 1) : (u.readWords [off] 3).2 = u.corrected off 3 := by
  have hk : u.eccKind off = (1, none) := by simp only [State.eccKind, h]
  simp [State.readWords, hk]

theorem State.readWords_poisons (h : u.eccOf off = 2) (ht : off < catTop) : (u.readWords [off] 3).2 =
    (u.count kCatUncorr 16 1).poisonWords [off] (catRec 2 0 0 off 0 0 0 3) false true := by
  have hk : u.eccKind off = (2, none) := by simp only [State.eccKind, h]
  simp [State.readWords, hk, Nat.not_le.mpr ht]

/-- R192: where a read finds a word to have failed, its content stays. -/
theorem State.mapDue_poisonWords_kept (s : State) (off : Nat) (r : ErrRec) : (s.poisonWords [off] r false true).cat.mapDue =
    s.cat.mapDue ++ [{ offs := [off], poison := true, report := some r, retires := false }] := rfl

theorem State.reg_poisonWords_kept (s : State) (off : Nat) (r : ErrRec) (k : Key) :
    (s.poisonWords [off] r false true).reg k = s.reg k := rfl

/-- The CC's read of a word in which bits in error are found. -/
theorem State.exec_catalogRead {addr : Word} {k : Nat} (hk : regionOf addr.toNat = .cat k) (h5 : s.isUp 5 = true) (err : BitVec 2) :
    exec (.catalogRead addr err) s = .next (((s.found ((addr.toNat - 0x20000000) / 8 * 8) err.toNat).catRead
      (s.coreReq 0) ((addr.toNat - 0x20000000) / 8 * 8)).2) := by
  obtain ⟨e, he⟩ := s.found_eq ((addr.toNat - 0x20000000) / 8 * 8) err.toNat
  have hreq : (s.found ((addr.toNat - 0x20000000) / 8 * 8) err.toNat).coreReq 0 = s.coreReq 0 := by rw [he]; rfl
  simp only [exec, execCatalogRead, hk, h5]
  rw [← hreq]
  rfl

theorem State.readable_found {n : Nat} (h : s.readable off) : (s.found off n).readable off := by
  obtain ⟨e, he⟩ := s.found_eq off n
  rw [he]
  exact h

end

/-! ### The scrubber (R197) -/

theorem State.exec_scrubRead {s : State} (h45 : s.isUp 45 = true) (h5 : s.isUp 5 = true) (hon : s.flag (fk 0x40017000 0) = true)
    (hl : s.cat.scrubbed < s.reg (fk 0x40017008 0)) (hp : s.reg kPhase ≠ 1) (err : BitVec 2) :
    exec (.scrubRead err) s = .next (s.scrubStep err.toNat) :=
  congrArg Host.Outcome.next (if_pos (by simp [h45, h5, hon, hl, hp]))

theorem State.scrubStep_skips {s : State} (h : s.scrubSkips s.scrubPos = true) (err : Nat) :
    s.scrubStep err = (s.count (fk 0x40017018 0) 24 1).scrubAdvance s.scrubPos := if_pos h

theorem State.scrubStep_found {s u v : State} (h : s.scrubSkips s.scrubPos = false) {err : Nat}
    (hg : s.useArb (catInst s.scrubPos) (plainReq 10 1) = some u) (hf : (u.found s.scrubPos err).scrubFound s.scrubPos = some v) :
    s.scrubStep err = v.scrubAdvance s.scrubPos := by
  have hf' : (if u.eccOf s.scrubPos < err then u.setEcc s.scrubPos err else u).scrubFound s.scrubPos = some v := hf
  refine (if_neg (by simp [h])).trans ?_
  rw [hg, Option.bind_some, hf']
  rfl

/-- R197: short of the range's end the scrubber's position is the next word's. -/
theorem State.scrubAdvance_within {s : State} {p : Nat} (h : p + 8 < s.reg (fk 0x40017004 16) * 65536) :
    s.scrubAdvance p =
      ({ s with cat := { s.cat with scrubbed := s.cat.scrubbed + 1 } } : State).setReg (fk 0x40017010 3) ((p + 8) / 8) := if_pos h

/-- Settles O36: a read by the bits in error found, the summary's rebuild, and the scrubber's word and position. -/
theorem catalogReadsScrubAndSummary : Obligations.CatalogReadsScrubAndSummary := by
  unfold Obligations.CatalogReadsScrubAndSummary
  intro s
  refine ⟨fun addr k hk h5 => ?_, fun hd h43 h5 h2 => ?_, fun bad hr => ?_, fun h45 h5 hon hl hp => ?_, fun p hlt hm => ?_⟩
  · dsimp only
    intro hup hwb hdue ht ho hv hsum
    have hrd : s.readable ((addr.toNat - 0x20000000) / 8 * 8) := ⟨hup, hwb, hdue, ht, ho⟩
    generalize hoff : (addr.toNat - 0x20000000) / 8 * 8 = off at *
    have hread (n : Nat) (u : State) (hg : (s.found off n).useArb (catInst off) (s.coreReq 0) = some u) :
        ((s.found off n).catRead (s.coreReq 0) off).2 = (u.readWords [off] 3).2 := by
      obtain ⟨e, he⟩ := s.found_eq off n
      exact State.catRead_word (State.readable_found hrd) rfl hg (by rw [he]; exact hv) (by rw [he]; exact hsum)
    have hecc (n : Nat) (u : State) (hle : s.eccOf off ≤ n) (hg : (s.found off n).useArb (catInst off) (s.coreReq 0) = some u) :
        u.eccOf off = n := by
      have hab := ArbOnly.useArb hg
      have he := State.eccOf_found hle
      unfold State.eccOf at he ⊢
      rwa [hab.cat]
    have hex := State.exec_catalogRead (s := s) hk h5
    rw [hoff] at hex
    refine ⟨fun u h0 hg => ?_, fun u h1 hg => ?_, fun u h2 hg => ?_⟩
    · have hg' : (s.found off 0).useArb (catInst off) (s.coreReq 0) = some u := hg
      rw [hex, show (0#2).toNat = 0 from rfl, hread 0 u hg', State.readWords_clean (hecc 0 u (Nat.le_of_eq h0) hg')]
    · rw [hex, show (1#2).toNat = 1 from rfl, hread 1 u hg, State.readWords_corrected (hecc 1 u h1 hg)]
    · have hx := hex 2#2
      rw [show (2#2).toNat = 2 from rfl, hread 2 u hg, State.readWords_poisons (hecc 2 u h2 hg) ht] at hx
      have hab := ArbOnly.useArb hg
      have hfound : (if s.eccOf off < 2 then s.setEcc off 2 else s) = s.found off 2 := rfl
      obtain ⟨e, he⟩ := s.found_eq off 2
      have hi : catInst off < 20 := by unfold catInst catTop at *; omega
      refine ⟨_, hx, ⟨{ offs := [off], poison := true, report := some (catRec 2 0 0 off 0 0 0 3), retires := false }, ?_, rfl, rfl⟩, ?_⟩
      · have hnil : u.cat.mapDue = [] := by
          rw [hab.cat, hfound, he]
          exact hdue
        rw [State.mapDue_poisonWords_kept]
        exact congrArg (· ++ _) hnil
      · have hreg : u.reg kCatUncorr = s.reg kCatUncorr := by
          rw [hab.2 hi kCatUncorr (kArb_ne hi (by decide)), hfound, he]
          rfl
        rw [State.reg_poisonWords_kept, State.count, State.reg_setReg, hreg]
        rfl
  · have hex : exec .summaryRebuildStart s =
        .next { s.setFlag kRebuilding true with cat := { s.cat with rebuildDue := false, hold15 := true } } :=
      congrArg Host.Outcome.next (if_pos (by simp [hd, h43, h5, h2]))
    exact ⟨_, hex, State.flag_setFlag s kRebuilding true, rfl, rfl, rfl⟩
  · refine ⟨_, if_neg (by simp [hr]), State.flag_setFlag _ _ _, ?_⟩
    rw [State.flag, State.reg_setFlag_other _ _ _ _ (by decide)]
    exact State.flag_setFlag _ _ _
  · dsimp only
    have hex := State.exec_scrubRead h45 h5 hon hl hp
    refine ⟨fun err hs => ?_, fun u hs hg h0 => ?_, fun err u v hs hg hf => ?_⟩
    · rw [hex, State.scrubStep_skips hs]
    · have hab := ArbOnly.useArb hg
      have hu : u.eccOf s.scrubPos = 0 := by
        unfold State.eccOf at h0 ⊢
        rwa [hab.cat]
      have hf : (u.found s.scrubPos 0).scrubFound s.scrubPos = some u := by
        have hk : u.eccKind s.scrubPos = (0, none) := by simp only [State.eccKind, hu]
        show u.scrubFound s.scrubPos = some u
        simp only [State.scrubFound, hk]
      rw [hex, show (0#2).toNat = 0 from rfl, State.scrubStep_found hs hg hf]
    · rw [hex, State.scrubStep_found hs hg hf]
  · rw [State.scrubAdvance_within hlt]
    refine ⟨?_, rfl, rfl⟩
    rw [State.reg_setReg]
    omega

end Sys2Proof.Machine
end

section
/-! PROOFS. O47: error records entering the queue, warm resets, ROM's start. -/
namespace Sys2Proof.Machine
open Sys2Proof

/-! ### A record that enters -/

/-- The record does not come late in its source's frame: it enters on its own. -/
theorem Err.enter_room {e : Err} {r : ErrRec} {n : Nat} (hl : 2 ≤ r.cls ∨ n ≤ 8) (hc : e.count < 32) :
    e.enter r n = { e.setAt e.count { r with coal := false } with count := e.count + 1 } := by
  have hlate : (decide (r.cls ≤ 1) && decide (8 < n)) = false := by
    rw [← Bool.decide_and]; exact decide_eq_false (by omega)
  unfold Err.enter
  simp only [hlate]
  exact if_pos hc

theorem Err.enter_full {e : Err} {r : ErrRec} {n : Nat} (hl : 2 ≤ r.cls ∨ n ≤ 8) (hc : e.count = 32) :
    e.enter r n = { e with lost := satAdd 16 e.lost 1 } := by
  have hlate : (decide (r.cls ≤ 1) && decide (8 < n)) = false := by
    rw [← Bool.decide_and]; exact decide_eq_false (by omega)
  unfold Err.enter
  simp only [hlate]
  exact if_neg (by omega)

theorem Err.recAt_setAt_same (e : Err) (i : Nat) (r : ErrRec) : (e.setAt i r).recAt i = r := Tab.get_set_same ..

theorem Err.recAt_setAt_other (e : Err) {i j : Nat} (r : ErrRec) (hij : j < i) (hi : i < 32) :
    (e.setAt i r).recAt j = e.recAt j :=
  Tab.get_set_other _ _ _ _ _ (show (e.head + i) % 32 ≠ (e.head + j) % 32 by omega)

/-- What a DEVICE_FATAL record leaves in ERR (R362). -/
def Err.fatalKept (e : Err) (r : ErrRec) : Err :=
  if e.fatal.isSome then e
  else { e with keep := some r, fatalResets := satAdd 8 e.fatalResets 1, keepValid := true, fatal := some (r.stamp, 0) }

theorem State.errFatal_eq (s : State) (r : ErrRec) :
    ∃ d, s.errFatal r = { s with err := s.err.fatalKept r, boot := { s.boot with warmDue := d } } := by
  by_cases hn : (s.err.active || r.source == 0x19 || s.err.fatal.isSome) = true
  · exact ⟨_, if_pos hn⟩
  · exact ⟨s.boot.warmDue, if_neg hn⟩

/-- R359's check on the queue, with IRQ_EN. -/
def Err.kicked (e : Err) (en : Bool) : Err := { e with active := e.active || (en && decide (e.handled < e.count)) }

theorem State.errKick_eq (s : State) : s.errKick = { s with err := s.err.kicked (s.flag (fk 0x40014000 0)) } := by
  unfold State.errKick Err.kicked
  cases ha : s.err.active <;> cases hf : s.flag (fk 0x40014000 0) <;> by_cases hc : s.err.handled < s.err.count <;>
    simp [hc] <;> simp only [← ha]

/-- ERR with the record numbered in its frame. -/
def Err.counted (e : Err) (source : Nat) : Err :=
  { e with
    stamp := (e.stamp + 1) % 4294967296
    perSource := Tab.set (fun _ => 0) e.perSource source (Tab.get (fun _ => 0) e.perSource source + 1) }

/-- The record as it enters the queue. -/
def State.stamped (s : State) (r : ErrRec) : ErrRec := { r with frame := s.frameNum, stamp := s.err.stamp, count := 1 }

/-- ERR as the record finds it: numbered, and kept where it is a DEVICE_FATAL one. -/
def State.errMet (s : State) (r : ErrRec) : Err :=
  if r.cls = 3 then (s.err.counted r.source).fatalKept (s.stamped r) else s.err.counted r.source

theorem State.raise_up {s : State} (hu : s.isUp 5 = true) (r : ErrRec) : ∃ d, s.raise r =
    { s with
      err := ((s.errMet r).enter (s.stamped r) (Tab.get (fun _ => 0) s.err.perSource r.source + 1)).kicked (s.flag (fk 0x40014000 0))
      boot := { s.boot with warmDue := d } } := by
  unfold State.raise State.errMet
  rw [if_neg (by rw [hu]; decide)]
  dsimp only
  rw [State.errKick_eq]
  split
  · obtain ⟨d, hd⟩ := State.errFatal_eq ({ s with err := s.err.counted r.source }) (s.stamped r)
    refine ⟨d, ?_⟩
    exact congrArg (fun u : State => ({ u with err := (u.err.enter (s.stamped r)
      (Tab.get (fun _ => 0) s.err.perSource r.source + 1)).kicked (u.flag (fk 0x40014000 0)) } : State)) hd
  · exact ⟨s.boot.warmDue, rfl⟩

theorem State.errMet_queue (s : State) (r : ErrRec) : (s.errMet r).head = s.err.head ∧ (s.errMet r).count = s.err.count ∧
    (s.errMet r).slots = s.err.slots ∧ (s.errMet r).handled = s.err.handled ∧ (s.errMet r).active = s.err.active ∧
    (s.errMet r).lost = s.err.lost := by
  unfold State.errMet Err.fatalKept
  split
  · split <;> exact ⟨rfl, rfl, rfl, rfl, rfl, rfl⟩
  · exact ⟨rfl, rfl, rfl, rfl, rfl, rfl⟩

theorem State.errMet_fatal {s : State} {r : ErrRec} (hr : r.cls = 3) (hf : s.err.fatal = none) :
    (s.errMet r).keepValid = true ∧ (s.errMet r).fatal = some (s.err.stamp, 0) ∧
      (s.errMet r).fatalResets = min (s.err.fatalResets + 1) 255 := by
  unfold State.errMet Err.fatalKept
  rw [if_pos hr, if_neg (by rw [show (s.err.counted r.source).fatal = none from hf]; decide)]
  exact ⟨rfl, rfl, rfl⟩

theorem Err.recAt_congr {e f : Err} (hh : e.head = f.head) (hs : e.slots = f.slots) (i : Nat) : e.recAt i = f.recAt i := by
  unfold Err.recAt Err.recIn Err.slotAt
  rw [hh, hs]

/-- A record that enters a queue with room. -/
theorem State.raise_enters {s : State} {r : ErrRec} (hu : s.isUp 5 = true)
    (hl : 2 ≤ r.cls ∨ Tab.get (fun _ => 0) s.err.perSource r.source < 8) (hroom : s.err.count < 32) :
    (s.raise r).err.count = s.err.count + 1 ∧ (s.raise r).err.recAt s.err.count = { s.stamped r with coal := false } ∧
      (∀ i, i < s.err.count → (s.raise r).err.recAt i = s.err.recAt i) ∧
      (s.flag (fk 0x40014000 0) = true → s.err.handled ≤ s.err.count → (s.raise r).err.active = true) ∧
      (r.cls = 3 → s.err.fatal = none → (s.raise r).err.keepValid = true ∧ (s.raise r).err.fatal = some (s.err.stamp, 0) ∧
        (s.raise r).err.fatalResets = min (s.err.fatalResets + 1) 255) := by
  obtain ⟨d, hd⟩ := State.raise_up hu r
  obtain ⟨hh, hc, hs, hn, -, -⟩ := s.errMet_queue r
  have he := Err.enter_room (e := s.errMet r) (r := s.stamped r)
    (n := Tab.get (fun _ => 0) s.err.perSource r.source + 1) (hl.imp id (fun h => h)) (hc ▸ hroom)
  rw [hd, he, hc]
  refine ⟨rfl, Err.recAt_setAt_same _ _ _, fun i hi => ?_, fun hen hle => ?_, fun h3 hf => State.errMet_fatal h3 hf⟩
  · exact (Err.recAt_setAt_other (s.errMet r) _ hi hroom).trans (Err.recAt_congr hh hs i)
  · show (_ || (s.flag (fk 0x40014000 0) && decide ((s.errMet r).handled < s.err.count + 1))) = true
    rw [hen, hn, decide_eq_true (Nat.lt_succ_of_le hle)]
    exact Bool.or_true _

theorem State.raise_lost {s : State} {r : ErrRec} (hu : s.isUp 5 = true)
    (hl : 2 ≤ r.cls ∨ Tab.get (fun _ => 0) s.err.perSource r.source < 8) (hfull : s.err.count = 32) :
    (s.raise r).err.count = 32 ∧ (s.raise r).err.lost = min (s.err.lost + 1) 65535 ∧ (s.raise r).err.slots = s.err.slots := by
  obtain ⟨d, hd⟩ := State.raise_up hu r
  obtain ⟨-, hc, hs, -, -, hlost⟩ := s.errMet_queue r
  have he := Err.enter_full (e := s.errMet r) (r := s.stamped r)
    (n := Tab.get (fun _ => 0) s.err.perSource r.source + 1) (hl.imp id (fun h => h)) (hc.trans hfull)
  rw [hd, he]
  exact ⟨hc.trans hfull, congrArg (fun n => satAdd 16 n 1) hlost, hs⟩

/-! ### Resets -/

theorem exec_rstN_on {s : State} (ha : s.aon = true) (hd : s.boot.warmDue = none) :
    exec (.rstN true) s = .next { s with boot := { s.boot with rstLow := true, warmDue := some (1, 0) } } := by
  simp only [exec, execRstN, ha, hd]
  rfl

theorem exec_rstN_kept {s : State} (h : s.boot.warmDue ≠ none ∨ s.aon = false) :
    exec (.rstN true) s = .next { s with boot := { s.boot with rstLow := true } } := by
  cases ha : s.aon
  · simp only [exec, execRstN, ha]
    rfl
  · obtain ⟨w, hw⟩ := Option.ne_none_iff_exists'.mp (h.resolve_right (by rw [ha]; decide))
    simp only [exec, execRstN, ha, hw]
    rfl

theorem exec_rstN_high (s : State) : exec (.rstN false) s = .next { s with boot := { s.boot with rstLow := false } } := by
  cases ha : s.aon <;> simp only [exec, execRstN, ha] <;> rfl

theorem exec_fatalResetDue {s : State} {n e : Nat} (hf : s.err.fatal = some (n, e)) (hd : s.boot.warmDue = none) :
    exec .fatalResetDue s = .next (if 2 ≤ e then { s with boot := { s.boot with warmDue := some (3, 0) } } else s) := by
  simp only [exec, execFatalResetDue, hf, hd]
  rfl

theorem exec_warmResetStart {s : State} {src reason : Nat} (hd : s.boot.warmDue = some (src, reason)) (ha : s.aon = true)
    (hr : s.boot.inReset = false) : exec .warmResetStart s = .next (s.warmStart src reason) := by
  simp only [exec, execWarmResetStart, hd, ha, hr]
  rfl

/-- AON and ERR as a warm reset leaves them, before the boot registers tell its cause (R366, R368). -/
def State.warmCleared (s : State) (boot strap : BitVec 2) : State :=
  let s1 : State := ((List.range 72).foldl (fun s d => s.offDom d) s).resetAon
  { s1 with
    err := { s1.err with fatal := none }
    boot := { s1.boot with warmDue := none, inReset := false, bootBalls := boot.toNat, strapBalls := strap.toNat, starting := true
                           full := false } }

/-- PMU_BOOT_INFO's cause of a warm reset. -/
def State.warmCause (s : State) (boot strap : BitVec 2) (src reason : Nat) : State :=
  ((((s.setReg kBootCause 1).setReg (fk 0x40000060 4) src).setReg (fk 0x40000060 8) boot.toNat).setReg
    (fk 0x40000060 10) strap.toNat).setReg (fk 0x40000060 16) (if src = 2 then reason else 0)

theorem State.reg_warmCause (s : State) (boot strap : BitVec 2) (src reason : Nat) :
    (s.warmCause boot strap src reason).reg kBootCause = 1 ∧ (s.warmCause boot strap src reason).reg (fk 0x40000060 4) = src ∧
      (s.warmCause boot strap src reason).reg (fk 0x40000060 16) = (if src = 2 then reason else 0) := by
  unfold State.warmCause
  refine ⟨?_, ?_, State.reg_setReg _ _ _⟩
  · rw [State.reg_setReg_other _ _ _ _ (by decide), State.reg_setReg_other _ _ _ _ (by decide),
      State.reg_setReg_other _ _ _ _ (by decide), State.reg_setReg_other _ _ _ _ (by decide), State.reg_setReg]
  · rw [State.reg_setReg_other _ _ _ _ (by decide), State.reg_setReg_other _ _ _ _ (by decide),
      State.reg_setReg_other _ _ _ _ (by decide), State.reg_setReg]

theorem exec_warmResetEnd {s : State} {src reason : Nat} (boot strap : BitVec 2) (hd : s.boot.warmDue = some (src, reason))
    (ha : s.aon = true) (hr : s.boot.inReset = true) (hl : s.boot.rstLow = false) (hw : s.cat.wb = []) (hm : s.cat.mapDue = []) :
    exec (.warmResetEnd boot strap) s =
      .next (startDomains.foldl (fun s d => s.onDom d) ((s.warmCleared boot strap).warmCause boot strap src reason)) := by
  simp only [exec, execWarmResetEnd, hd, ha, hr, hl, hw, hm]
  rfl

/-! ### ROM -/

theorem exec_romBoot {s : State} (id : Option Byte) (ha : s.aon = true) (h6 : s.isUp 6 = true) (h5 : s.isUp 5 = true)
    (hst : s.boot.starting = true) (hc : s.reg kBootCause ≠ 2) : exec (.romBoot id) s =
      .next (if s.isUp 44 then s.bootRest (if s.serv.io.vio33 then id else none) else s.bootStep1) :=
  if_neg (by simp [ha, h6, h5, hst, hc])

theorem not_warmPath_blocked {s : State} (ha : s.aon = true) (h6 : s.isUp 6 = true) (h5 : s.isUp 5 = true)
    (hst : s.boot.starting = true) (hc : s.reg kBootCause = 2) (hf : s.boot.full = false) :
    ¬(!(s.aon && s.isUp 6 && s.isUp 5 && s.boot.starting && s.reg kBootCause == 2 && !s.boot.full)) = true := by
  simp [ha, h6, h5, hst, hc, hf]

theorem exec_warmPath_invalid {s : State} (ha : s.aon = true) (h6 : s.isUp 6 = true) (h5 : s.isUp 5 = true)
    (hst : s.boot.starting = true) (hc : s.reg kBootCause = 2) (hf : s.boot.full = false) (hv : s.snapValid = false) :
    exec .warmPath s = .next { s.setFlag kSnapBad true with boot := { s.boot with full := true } } :=
  (if_neg (not_warmPath_blocked ha h6 h5 hst hc hf)).trans (if_neg (by rw [hv]; decide))

theorem exec_warmPath_valid {s : State} (ha : s.aon = true) (h6 : s.isUp 6 = true) (h5 : s.isUp 5 = true)
    (hst : s.boot.starting = true) (hc : s.reg kBootCause = 2) (hf : s.boot.full = false) (hv : s.snapValid = true) :
    ∃ u : State, exec .warmPath s = .next u.accept :=
  ⟨_, (if_neg (not_warmPath_blocked ha h6 h5 hst hc hf)).trans (if_pos hv)⟩

theorem bootRecord_active_le {r : List Byte} {p : Nat × Nat} (h : bootRecord r = some p) : p.2 ≤ 1 := by
  unfold bootRecord at h
  split at h
  · rename_i hc
    cases h
    simp only [Bool.and_eq_true, decide_eq_true_eq] at hc
    obtain ⟨⟨⟨-, ha⟩, -⟩, -⟩ := hc
    exact ha
  · cases h

theorem State.activeSlot_le (s : State) : s.activeSlot ≤ 1 := by
  unfold State.activeSlot
  split
  · rename_i a b ha hb
    split
    · exact bootRecord_active_le hb
    · exact bootRecord_active_le ha
  · rename_i a ha _
    exact bootRecord_active_le ha
  · rename_i b _ hb
    exact bootRecord_active_le hb
  · exact Nat.zero_le 1

theorem State.chooseSlot_recovers {s : State} (hb : s.boot.bootBalls = 0) (h0 : s.imageOk 0 = false) (h1 : s.imageOk 1 = false) :
    s.chooseSlot = if s.imageOk 2 then (2, true) else (3, true) := by
  have hle := s.activeSlot_le
  have hok : ∀ a, a ≤ 1 → ¬s.imageOk a = true := fun a ha => by
    obtain rfl | rfl : a = 0 ∨ a = 1 := by omega
    · rw [h0]; decide
    · rw [h1]; decide
  simp only [State.chooseSlot, hb]
  exact (if_neg (hok _ hle)).trans (if_neg (hok _ (by omega)))

theorem State.chooseSlot_active {s : State} (hb : s.boot.bootBalls = 0) (h : s.imageOk s.activeSlot = true) :
    s.chooseSlot = (s.activeSlot, false) := by
  simp only [State.chooseSlot, hb]
  exact if_pos h

theorem State.chooseSlot_rom {s : State} (hb : s.boot.bootBalls = 2) : s.chooseSlot = (3, false) := by
  simp only [State.chooseSlot, hb]

/-- Settles O47. ROM's step 1 and then the rest as one step each is log entry 55; that ROM sets REC but in ROM-only mode is log
entry 160. -/
theorem errorRecordsResetsAndRomBoot : Obligations.ErrorRecordsResetsAndRomBoot := by
  unfold Obligations.ErrorRecordsResetsAndRomBoot
  refine ⟨fun s => ⟨?_, ?_, exec_rstN_on, exec_rstN_kept, exec_rstN_high s, ?_, ?_, rfl⟩, fun s ha h6 h5 hst => ⟨?_, ?_, ?_, ?_, ?_⟩⟩
  · intro cls source tenant code seq address offset segment detail hu hl
    refine ⟨fun hroom => ?_, fun hfull => ⟨_, rfl, State.raise_lost hu hl hfull⟩⟩
    obtain ⟨hcount, hrec, hold, hact, hfat⟩ := State.raise_enters
      (r := { cls := cls, source := source.toNat, tenant := tenant, code := code.toNat, seq := seq.toNat, address := address.toNat,
              offset := offset.toNat, segment := segment, detail := (detail.take 7).map (·.toNat) }) hu hl hroom
    exact ⟨_, rfl, hcount, hrec, hold, State.raise_regs _ _, State.raise_mem _ _, fun hen _ hle => hact hen hle,
      fun h3 hf => hfat (congrArg Fin.val h3) hf⟩
  · exact fun n e hf hd => ⟨fun he => (exec_fatalResetDue hf hd).trans (congrArg _ (if_pos he)),
      fun he => (exec_fatalResetDue hf hd).trans (congrArg _ (if_neg (by omega)))⟩
  · intro src reason hd ha hr
    refine ⟨_, exec_warmResetStart hd ha hr, rfl, rfl, rfl, rfl, fun h3 => ?_, rfl, rfl, rfl⟩
    subst h3
    exact Bool.or_true _
  · intro boot strap src reason hd ha hr hl hw hm
    obtain ⟨hcause, hsrc, hreason⟩ := (s.warmCleared boot strap).reg_warmCause boot strap src reason
    exact ⟨_, _, exec_warmResetEnd boot strap hd ha hr hl hw hm, rfl, rfl, rfl, rfl, rfl, hcause, hsrc, hreason, rfl⟩
  · intro hc id
    refine ⟨fun h44 => (exec_romBoot id ha h6 h5 hst hc).trans (congrArg _ (if_neg (by rw [h44]; decide))), fun h44 => ?_⟩
    exact ⟨_, (exec_romBoot id ha h6 h5 hst hc).trans (congrArg _ (if_pos h44)), rfl, rfl, rfl⟩
  · refine fun hc hf => ⟨fun hv => ?_, fun hv => ?_⟩
    · obtain ⟨u, hex⟩ := exec_warmPath_valid ha h6 h5 hst hc hf hv
      exact ⟨_, hex, rfl, rfl⟩
    · exact ⟨_, exec_warmPath_invalid ha h6 h5 hst hc hf hv, State.flag_setFlag s kSnapBad true, rfl, hst⟩
  · exact State.chooseSlot_rom
  · exact State.chooseSlot_active
  · exact State.chooseSlot_recovers

end Sys2Proof.Machine
end

section
/-! PROOFS. O51: the control core's interrupts, events, contexts parked and spent, INIT, and the end of a tenant's reset. -/
namespace Sys2Proof.Machine
open Sys2Proof

/-! ### Interrupts of the control core -/

theorem findIdx?_some {α : Type} {p : α → Bool} {l : List α} {n : Nat} (h : findIdx? p l = some n) :
    ∃ hn : n < l.length, p l[n] = true ∧ ∀ k, (hk : k < n) → p (l[k]'(Nat.lt_trans hk hn)) = false := by
  unfold findIdx? at h
  dsimp only at h
  split at h
  · rename_i hlt
    cases h
    refine ⟨hlt, List.findIdx_getElem, fun k hk => ?_⟩
    have := List.not_of_lt_findIdx hk
    simpa using this
  · cases h

/-- The control core as an interrupt finds it: a wait of it has ended. -/
def Core.woken (x : Core) : Core :=
  if x.run = .wfe then { x.endWait (BitVec.ofNat 32 x.evsrc) with evpend := false, evsrc := 0 } else x

theorem Core.woken_vbase (x : Core) : x.woken.vbase = x.vbase ∧ x.woken.imp = x.imp := by
  unfold Core.woken Core.endWait Core.setG
  repeat' split
  all_goals exact ⟨rfl, rfl⟩

theorem Core.woken_running {x : Core} (h : x.run = .running) : x.woken = x := if_neg (by rw [h]; decide)

/-- What `takeInterrupt` does where an interrupt shows: an imprecise error that is due comes first. -/
theorem State.takeInterrupt_some {s : State} {n : Nat} {t : State} (h : s.takeInterrupt = some (n, t)) :
    ((s.core 0).run = .wfe ∨ (s.core 0).run = .running ∧ (s.core 0).impDue = false) ∧
    ∃ i, findIdx? (fun n => bit s.irqShown n) (List.range 17) = some i ∧
      let s1 := s.setCore 0 (s.core 0).woken
      ((s.core 0).woken.impDue = true ∧ n = 17 ∧ t = s1.takeImp 0 ∨
        n = i ∧ ∃ (u : State) (w : Word), t = u.setCore 0 { (s.core 0).woken.enter (BitVec.ofNat 32 (2 ^ 31 + n)) 0#32 w
          ((s.core 0).woken.vbase + 0x100#32) with ie := false }) := by
  unfold State.takeInterrupt at h
  dsimp only at h
  split at h
  · cases h
  · rename_i hc
    obtain ⟨i, hi, ht⟩ := Option.map_eq_some_iff.mp h
    refine ⟨?_, i, hi, ?_⟩
    · simp only [Bool.not_eq_true, Bool.not_eq_false', Bool.and_eq_true, Bool.or_eq_true, beq_iff_eq] at hc
      obtain ⟨_, hr⟩ := hc
      exact hr.imp id (fun h => ⟨h.1, Bool.not_eq_true' _ ▸ h.2⟩)
    · change (if (s.core 0).woken.impDue = true then (17, State.takeImp (s.setCore 0 (s.core 0).woken) 0) else _) = _ at ht
      split at ht
      · rename_i hd
        cases ht
        exact .inl ⟨hd, rfl, rfl⟩
      · cases ht
        exact .inr ⟨rfl, _, _, rfl⟩

/-- An imprecise error enters the handler (R127). -/
theorem State.takeImp_eq {s : State} {c sg off : Nat} {m : Bool} (h : (s.core c).imp = some (sg, off, m)) :
    ∃ (u : State) (w : Word), s.takeImp c = u.setCore c (({ s.core c with imp := none, run := .running } : Core).enter
      (BitVec.ofNat 32 (0x0A + sg * 256 + 2048)) (BitVec.ofNat 32 off) w (s.core c).vbase) := by
  simp only [State.takeImp, h]
  exact ⟨_, _, rfl⟩

theorem Core.impDue_some {x : Core} (h : x.impDue = true) : ∃ sg off m, x.imp = some (sg, off, m) := by
  unfold Core.impDue at h
  cases hi : x.imp with
  | none => rw [hi] at h; cases h
  | some e => exact ⟨e.1, e.2.1, e.2.2, rfl⟩

theorem exec_busErr {s : State} (core : Fin 5) {sg off : Nat} {m : Bool} (hi : (s.core core).imp = some (sg, off, m))
    (hm : m = (s.core core).tmode) (hr : (s.core core).run = .running) (hu : s.isUp (6 + core) = true) :
    exec (.busErr core) s = .next (s.takeImp core) := by
  have hd : (s.core core).impDue = true := by rw [Core.impDue, hi]; simp [hm]
  exact congrArg Host.Outcome.next (if_pos (by rw [hu, hd, hr]; decide))

/-! ### Contexts -/

theorem State.preempt_eq {s : State} {c n : Nat} (st : Nat) (cycle : Option Word) (h : (s.core c).slot = some n) :
    ∃ (u : State) (x : Core) (y : Slot), s.preempt c st cycle = (u.setCore c x).setSlot n y ∧ x.slot = none ∧
      y.state = st ∧ ∀ v, cycle = some v → y.cycleLast = v.toNat := by
  simp only [State.preempt, h]
  refine ⟨_, _, _, rfl, ?_, ?_, ?_⟩
  · rfl
  · rfl
  · rintro v rfl
    rfl

theorem exec_parked {s : State} (core : Fin 4) {n : Nat} (hs : (s.core (core + 1)).slot = some n) (hr : (s.core (core + 1)).run = .wfe) :
    exec (.parked core) s = .next (s.settle (s.preempt (core + 1) 3 none)) :=
  congrArg Host.Outcome.next (if_pos (by rw [hs, hr]; rfl))

theorem exec_ovrBudget {s : State} (core : Fin 4) {n : Nat} (hs : (s.core (core + 1)).slot = some n)
    (hr : (s.core (core + 1)).run ≠ .halted) : exec (.ovrBudget core) s =
      .next (s.settle ((s.preempt (core + 1) 4 (some (BitVec.ofNat 32 (s.slotBudget n)))).count (fk (0x4000410C + 0x10 * n) 0) 16 1)) := by
  simp only [exec, execOvrBudget, hs]
  exact if_neg (by simpa using hr)

theorem exec_evpend_cc {s : State} (src : Fin 6) : exec (.evpend 64 src) s = .next (s.setCore 0 ((s.core 0).event src)) :=
  congrArg Host.Outcome.next (if_pos rfl)

theorem Core.event_running {x : Core} {i : Nat} (hr : x.run = .running) (hm : bit x.evmask i = true) :
    x.event i = { x with evpend := true, evsrc := setBit x.evsrc i true } := by
  unfold Core.event
  rw [if_neg (by rw [hm]; decide)]
  simp only [hr]

theorem Core.event_masked {x : Core} {i : Nat} (hm : bit x.evmask i = false) : x.event i = x :=
  if_pos (by rw [hm]; rfl)

theorem State.core_setSlot (s : State) (n : Nat) (x : Slot) (c : Nat) : (s.setSlot n x).core c = s.core c := rfl

theorem State.slot_count (s : State) (k : Key) (w n m : Nat) : (s.count k w n).slot m = s.slot m := rfl

theorem State.core_count (s : State) (k : Key) (w n c : Nat) : (s.count k w n).core c = s.core c := rfl

/-! ### INIT: a register of FRAME fields -/

/-- A field whose checked value waits in its shadow (R20). -/
def Fld.staged (f : Fld) : Bool := decide ((f.ty = .rw ∨ f.ty = .wo) ∧ f.cls = .frame ∧ f.rng ≠ .dep ∧ f.lo + f.w ≤ 32 ∧ f.lo < 32 ∧
  f.mask &&& 0xFFFFFFFF ≠ 0)

theorem checkField_staged (s : State) {f : Fld} (hf : f.staged = true) (ws : List (Key × Nat)) (b o v : Nat) :
    s.checkField ws b o f v = f.rng.check v := by
  obtain ⟨hty, hcls, hrng, -⟩ := of_decide_eq_true hf
  exact State.checkField_range hty (fun h => by rw [hcls] at h; exact absurd h.1 (by decide)) rfl hrng

theorem State.checkInto_staged (s : State) {b o a v : Nat} {f : Fld} (hf : f.staged = true) (ha : blockBase b + o = a) (hv : v < 2 ^ 32)
    (c : Checked) (old : Nat) : (s.checkInto b o c f (bits ((v &&& 0xFFFFFFFF) + (old - (old &&& 0xFFFFFFFF))) f.lo f.w)).ws =
      c.ws ++ fieldWrite a v f := by
  have hmask : v &&& 0xFFFFFFFF = v := (Nat.and_two_pow_sub_one_eq_mod v 32).trans (Nat.mod_eq_of_lt hv)
  have hold : old - (old &&& 0xFFFFFFFF) = old / 2 ^ 32 * 2 ^ 32 := by
    rw [show old &&& 0xFFFFFFFF = old % 2 ^ 32 from Nat.and_two_pow_sub_one_eq_mod old 32]
    omega
  obtain ⟨-, -, -, hw, -⟩ := of_decide_eq_true hf
  rw [State.checkInto_ws, checkField_staged s hf, hmask, hold, bits_add_high hw, ha]
  rfl

theorem State.checkWord_staged (s : State) {a b v : Nat} {fl : List Fld} (hreg : regDef b (a - blockBase b) = some fl)
    (ha : blockBase b + (a - blockBase b) = a) (hall : ∀ f ∈ fl, f.staged = true) (hv : v < 2 ^ 32) :
    (s.checkWord b (a - blockBase b) v 0xFFFFFFFF).ws = fl.flatMap (fieldWrite a v) := by
  have hadd (g : Checked → Fld → Checked) (l : List Fld) (hg : ∀ f ∈ l, ∀ c, (g c f).ws = c.ws ++ fieldWrite a v f) (c : Checked) :
      (l.foldl g c).ws = c.ws ++ l.flatMap (fieldWrite a v) := by
    induction l generalizing c with
    | nil => simp
    | cons f t ih =>
      rw [List.foldl_cons, ih (fun f hf => hg f (List.mem_cons_of_mem _ hf)), hg f List.mem_cons_self]
      simp
  unfold State.checkWord
  simp only [hreg, Option.getD_some]
  refine (hadd _ fl (fun f hf c => ?_) {}).trans (List.nil_append _)
  obtain ⟨-, -, -, -, -, hm⟩ := of_decide_eq_true (hall f hf)
  rw [if_neg (by simp [hm])]
  exact s.checkInto_staged (hall f hf) ha hv c _

theorem State.applyField_staged (s : State) {w : Key × Nat} {f : Fld} (hd : fldOf w.1 = some f) (hf : f.staged = true) :
    s.applyField w = s.setShadow w.1 (some w.2) := by
  obtain ⟨hty, hcls, -⟩ := of_decide_eq_true hf
  simp only [State.applyField, hd, hcls]
  rcases hty with h | h <;> simp only [h] <;> rfl

/-- The values wait in their fields' shadows. -/
def State.shadowed (s : State) (ws : List (Key × Nat)) : State := ws.foldl (fun s w => s.setShadow w.1 (some w.2)) s

theorem State.shadowed_eq (s : State) (ws : List (Key × Nat)) : ∃ h, s.shadowed ws = { s with shadow := h } := by
  induction ws generalizing s with
  | nil => exact ⟨_, rfl⟩
  | cons w t ih =>
    obtain ⟨h, e⟩ := ih (s.setShadow w.1 (some w.2))
    exact ⟨h, e⟩

theorem State.foldl_applyField_staged (s : State) {ws : List (Key × Nat)} (h : ∀ w ∈ ws, ∃ f, fldOf w.1 = some f ∧ f.staged = true) :
    ws.foldl State.applyField s = s.shadowed ws := by
  induction ws generalizing s with
  | nil => rfl
  | cons w t ih =>
    obtain ⟨f, hd, hf⟩ := h w List.mem_cons_self
    rw [List.foldl_cons, s.applyField_staged hd hf, ih _ (fun x hx => h x (List.mem_cons_of_mem _ hx))]
    rfl

/-- The fields of FRAME_SLOTn_CFG. -/
def slotCfgFields (n : Nat) : List Fld :=
  [fF 0 6 (16 + 8 * n) 0 (.rg 0 63), fF 8 4 (17 + 8 * n) 0xF .any, fF 12 3 (18 + 8 * n) 0 (.rg 0 7),
    fF 15 1 (19 + 8 * n) 0 r01, ⟨16, 1, some (20 + 8 * n), .wo, .frame, 0, .any⟩]

theorem slotCfg_place : ∀ n : Fin 64, let a := 0x40004100 + 0x10 * n.val
    blockOf a = some 0x04 ∧ aliasAddr 0 a = a ∧ ¬(commonBase 0x04 ≤ a ∧ a < commonBase 0x04 + 0x30) ∧
      ¬(0x40000DF8 ≤ a ∧ a < 0x40000F00) ∧ blockBase 0x04 + (a - blockBase 0x04) = a ∧ a - blockBase 0x04 = 0x100 + 0x10 * n.val ∧
      regDef 0x04 (a - blockBase 0x04) = some (slotCfgFields n) := by decide

theorem slotCfgFields_staged : ∀ n : Fin 64, ∀ f ∈ slotCfgFields n,
    f.staged = true ∧ fldOf (fk (0x40004100 + 0x10 * n.val) f.lo) = some f := by decide

/-- What a write of INIT with the fields as they were last written gives. -/
def initWrites (a t c p e : Nat) : List (Key × Nat) := [(fk a 0, t), (fk a 8, c), (fk a 12, p), (fk a 15, e), (fk a 16, 1)]

theorem fieldWrites_slotCfg (n a : Nat) {t c p e : Nat} (ht : t ≤ 63) (hc : c ≤ 15) (hp : p ≤ 7) (he : e ≤ 1) :
    (slotCfgFields n).flatMap (fieldWrite a (t + c * 2 ^ 8 + p * 2 ^ 12 + e * 2 ^ 15 + 2 ^ 16)) = initWrites a t c p e := by
  have h0 : bits (t + c * 2 ^ 8 + p * 2 ^ 12 + e * 2 ^ 15 + 2 ^ 16) 0 6 = t := by unfold bits; omega
  have h8 : bits (t + c * 2 ^ 8 + p * 2 ^ 12 + e * 2 ^ 15 + 2 ^ 16) 8 4 = c := by unfold bits; omega
  have h12 : bits (t + c * 2 ^ 8 + p * 2 ^ 12 + e * 2 ^ 15 + 2 ^ 16) 12 3 = p := by unfold bits; omega
  have h15 : bits (t + c * 2 ^ 8 + p * 2 ^ 12 + e * 2 ^ 15 + 2 ^ 16) 15 1 = e := by unfold bits; omega
  have h16 : bits (t + c * 2 ^ 8 + p * 2 ^ 12 + e * 2 ^ 15 + 2 ^ 16) 16 1 = 1 := by unfold bits; omega
  have hrg (hi v : Nat) (h : v ≤ hi) : (Rng.check (.rg 0 hi) v).1 = some v := by
    simp only [Rng.check, Nat.not_lt_zero, if_false, if_neg (Nat.not_lt.mpr h)]
  simp only [slotCfgFields, fF, r01, List.flatMap_cons, List.flatMap_nil, fieldWrite, h0, h8, h12, h15, h16, hrg _ _ ht, hrg _ _ hp,
    hrg _ _ he]
  rfl

theorem exec_init {s : State} (slot : Fin 64) (ha : s.aon = true) (h5 : s.isUp 5 = true) (h4 : s.isUp 4 = true)
    (ht : s.last (fk (0x40004100 + 0x10 * slot.val) 0) ≤ 63) (hc : s.last (fk (0x40004100 + 0x10 * slot.val) 8) ≤ 15)
    (hp : s.last (fk (0x40004100 + 0x10 * slot.val) 12) ≤ 7) (he : s.last (fk (0x40004100 + 0x10 * slot.val) 15) ≤ 1) :
    ∃ r g, exec (.init slot) s = .next (State.shadowed { s with rings := r, gring := g } (initWrites (0x40004100 + 0x10 * slot.val)
      (s.last (fk (0x40004100 + 0x10 * slot.val) 0)) (s.last (fk (0x40004100 + 0x10 * slot.val) 8))
      (s.last (fk (0x40004100 + 0x10 * slot.val) 12)) (s.last (fk (0x40004100 + 0x10 * slot.val) 15)))) := by
  obtain ⟨hb, hal, h1, h2, hbase, ho, hreg⟩ := slotCfg_place slot
  have hfld := slotCfgFields_staged slot
  have hon : s.blockOn 0x04 = true := by simp [State.blockOn, blockDoms, ha, h4]
  have hron : s.regOn (0x40004100 + 0x10 * slot.val) = true := by simp [State.regOn, hb, hon]
  have haon : s.addrOn (0x40004100 + 0x10 * slot.val) = true := by simp [State.addrOn, hb, hon]
  have hbus := fun v => s.regCommand_eq _ v 0x04 hb haon hron h5 hal h1 h2 rfl
  have hchk := fun v hv => s.checkWord_staged (v := v) hreg hbase (fun f hf => (hfld f hf).1) hv
  unfold exec
  simp only [execInit]
  generalize 0x40004100 + 0x10 * slot.val = a at *
  generalize s.last (fk a 0) = t at *
  generalize s.last (fk a 8) = c at *
  generalize s.last (fk a 12) = p at *
  generalize s.last (fk a 15) = e at *
  rw [hbus, hchk _ (by omega), fieldWrites_slotCfg slot a ht hc hp he]
  obtain ⟨r, g, hrep⟩ := s.reportAll_eq 0x04 (s.checkWord 0x04 (a - blockBase 0x04)
    (t + c * 2 ^ 8 + p * 2 ^ 12 + e * 2 ^ 15 + 2 ^ 16) 0xFFFFFFFF).entries
  refine ⟨r, g, ?_⟩
  rw [hrep, State.takeWrite, State.foldl_applyField_staged, ho]
  · have h0 : ¬(0x100 + 0x10 * slot.val = 0 ∧ (wroteAt (initWrites a t c p e) 0 == some 0) = true) := by omega
    have h504 : ¬(0x100 + 0x10 * slot.val = 0x504 ∧ wrote1 (initWrites a t c p e) 0 = true) := by omega
    exact congrArg Host.Outcome.next (((if_neg (by simpa using h0)).trans (if_neg (by simpa using h504))))
  · intro w hw
    simp only [initWrites, List.mem_cons, List.not_mem_nil, or_false] at hw
    have hmem : ∃ f ∈ slotCfgFields slot, w.1 = fk a f.lo := by
      rcases hw with rfl | rfl | rfl | rfl | rfl
      · exact ⟨_, .head _, rfl⟩
      · exact ⟨_, .tail _ (.head _), rfl⟩
      · exact ⟨_, .tail _ (.tail _ (.head _)), rfl⟩
      · exact ⟨_, .tail _ (.tail _ (.tail _ (.head _))), rfl⟩
      · exact ⟨_, .tail _ (.tail _ (.tail _ (.tail _ (.head _)))), rfl⟩
    obtain ⟨f, hf, hk⟩ := hmem
    exact ⟨f, hk ▸ (hfld f hf).2, (hfld f hf).1⟩

theorem State.pendingVal_initWrites (s : State) (a t c p e : Nat) :
    (s.shadowed (initWrites a t c p e)).pendingVal (fk a 0) = some t ∧ (s.shadowed (initWrites a t c p e)).pendingVal (fk a 8) = some c ∧
    (s.shadowed (initWrites a t c p e)).pendingVal (fk a 12) = some p ∧ (s.shadowed (initWrites a t c p e)).pendingVal (fk a 15) = some e ∧
    (s.shadowed (initWrites a t c p e)).pendingVal (fk a 16) = some 1 := by
  have hne (i j : Nat) (h : i ≠ j) : fk a i ≠ fk a j := by unfold fk Key; omega
  simp only [State.shadowed, initWrites, List.foldl_cons, List.foldl_nil]
  refine ⟨?_, ?_, ?_, ?_, State.pendingVal_setShadow _ _ _⟩
  · simp only [State.pendingVal_setShadow_other _ _ _ _ (hne 16 0 (by decide)), State.pendingVal_setShadow_other _ _ _ _ (hne 15 0 (by decide)),
      State.pendingVal_setShadow_other _ _ _ _ (hne 12 0 (by decide)), State.pendingVal_setShadow_other _ _ _ _ (hne 8 0 (by decide)),
      State.pendingVal_setShadow]
  · simp only [State.pendingVal_setShadow_other _ _ _ _ (hne 16 8 (by decide)), State.pendingVal_setShadow_other _ _ _ _ (hne 15 8 (by decide)),
      State.pendingVal_setShadow_other _ _ _ _ (hne 12 8 (by decide)), State.pendingVal_setShadow]
  · simp only [State.pendingVal_setShadow_other _ _ _ _ (hne 16 12 (by decide)), State.pendingVal_setShadow_other _ _ _ _ (hne 15 12 (by decide)),
      State.pendingVal_setShadow]
  · simp only [State.pendingVal_setShadow_other _ _ _ _ (hne 16 15 (by decide)), State.pendingVal_setShadow]

/-! ### The end of a tenant's reset -/

theorem State.reg_wrBytes (s : State) (a : Nat) (bs : List Byte) (k : Nat) : (s.wrBytes a bs).reg k = s.reg k := by
  rw [s.wrBytes_eq]
  rfl

theorem State.reg_snoopEb_other {s : State} {c la k : Nat} (hk : fk 0x40007080 0 ≠ k) : (s.snoopEb c la).reg k = s.reg k := by
  unfold State.snoopEb
  split
  · rw [State.count, State.reg_setReg_other _ _ _ _ hk]
    unfold State.notice
    split <;> simp [State.writeBack, State.reg_wrBytes]
  · rfl

theorem State.reg_snoop (s : State) (inval : Bool) (la c k : Nat) : (s.snoop inval la c).reg k = s.reg k := by
  unfold State.snoop
  split
  · rfl
  · dsimp only
    split <;> simp [State.writeBack, State.reg_wrBytes]

theorem State.reg_snoopAll_other {s : State} {inval : Bool} {c la k : Nat} (hk : fk 0x40007080 0 ≠ k) :
    (s.snoopAll inval c la).reg k = s.reg k :=
  foldl_leaves (fun u : State => u.reg k) _ (fun u d => (State.reg_snoop _ _ _ _ _).trans (State.reg_snoopEb_other hk)) _ s

theorem State.reg_of_cyn (s : State) (c : Cyn) (k : Nat) : State.reg { s with cyn := c } k = s.reg k := rfl

theorem State.reg_doorbell_other {s : State} {a k : Nat} (h0 : fk 0x40015308 0 ≠ k) (h1 : fk 0x4001530C 0 ≠ k) :
    (s.doorbell a).reg k = s.reg k := by
  have hword (n : Nat) (hn : n < 2) : fk (0x40015308 + 4 * n) 0 ≠ k := by
    obtain rfl | rfl : n = 0 ∨ n = 1 := by omega
    · exact h0
    · exact h1
  unfold State.doorbell
  split
  · rename_i hc
    simp only [Bool.and_eq_true, decide_eq_true_eq] at hc
    dsimp only
    exact (State.reg_of_cyn _ _ k).trans (State.reg_setReg_other s _ k _ (hword _ (by omega)))
  · rfl

/-- A write of memory leaves the registers, but for the hub's counter and the mailboxes' doorbells. -/
theorem State.reg_memWrite_other {s : State} {a k : Nat} (bs : List Byte) (hc : fk 0x40007080 0 ≠ k) (h0 : fk 0x40015308 0 ≠ k)
    (h1 : fk 0x4001530C 0 ≠ k) : (s.memWrite a bs).reg k = s.reg k := by
  unfold State.memWrite
  split
  · unfold State.ncWrite
    split
    · rw [State.reg_wrBytes, State.reg_snoopAll_other hc]
    · exact State.reg_wrBytes _ _ _ _
  · rw [State.reg_doorbell_other h0 h1, State.reg_wrBytes]
  · exact State.reg_wrBytes _ _ _ _

theorem State.resetComplete_eq (s : State) (r : TenReset) : ∃ u : State, s.resetComplete r = s.settle u ∧ u.ten.reset = none ∧
    u.reg (fk 0x40015304 0) = 0 ∧ u.ten.rpt = r.bytes (s.slotsOf r.tenant).length := by
  unfold State.resetComplete
  refine ⟨_, rfl, rfl, ?_, rfl⟩
  change State.reg (if _ then _ else _) _ = _
  split
  · rw [State.reg_memWrite_other _ (by decide) (by decide) (by decide), State.reg_setReg]
  · exact State.reg_setReg _ _ _

/-- Settles O51. Cyntoux's own effect in the interrupt's step is log entry 127; how it takes the queued datagrams is entry 121, and
that they are interrupt 13 is entry 13. -/
theorem contextsTenantsAndInterrupts : Obligations.ContextsTenantsAndInterrupts := by
  unfold Obligations.ContextsTenantsAndInterrupts
  intro s
  refine ⟨?_, ?_, ?_, ?_, ?_, ?_, ?_, ?_, ?_, ?_, ?_, ?_⟩
  · intro n t h hn
    obtain ⟨-, i, hi, hcase⟩ := State.takeInterrupt_some h
    obtain ⟨hlt, hshown, hbefore⟩ := findIdx?_some hi
    rcases hcase with ⟨-, h17, -⟩ | ⟨rfl, u, w, rfl⟩
    · exact absurd h17 hn
    · rw [State.core_setCore]
      refine ⟨rfl, rfl, ?_, rfl, by simpa using hshown, fun k hk => by simpa using hbefore k hk, fun hrun => ?_⟩
      · exact congrArg (· + 0x100#32) (Core.woken_vbase _).1
      · simp only [exec, execCcInterrupt, h, hrun]
        rfl
  · intro t h
    obtain ⟨hrun, i, hi, hcase⟩ := State.takeInterrupt_some h
    obtain ⟨hlt, -⟩ := findIdx?_some hi
    rcases hcase with ⟨hdue, -, rfl⟩ | ⟨h17, -⟩
    · have hwfe : (s.core 0).run = .wfe := hrun.resolve_right fun hr => by
        rw [Core.woken_running hr.1, hr.2] at hdue
        cases hdue
      obtain ⟨sg, off, m, himp⟩ := Core.impDue_some hdue
      obtain ⟨u, w, ht⟩ := State.takeImp_eq (s := s.setCore 0 (s.core 0).woken) (c := 0) (by rw [State.core_setCore]; exact himp)
      have hex : exec .ccInterrupt s = .next ((s.setCore 0 (s.core 0).woken).takeImp 0) := by
        simp only [exec, execCcInterrupt, h]
        split <;> rfl
      refine ⟨hwfe, ?_, ?_, ?_, hex⟩ <;> rw [ht, State.core_setCore]
      · rfl
      · rfl
      · rw [State.core_setCore]
        exact (Core.woken_vbase _).1
    · have : i < 17 := by simpa using hlt
      omega
  · intro h
    simp only [exec, execCcInterrupt, h]
  · intro core sg off m hi hm hr hu
    obtain ⟨u, w, ht⟩ := State.takeImp_eq hi
    refine ⟨_, exec_busErr core hi hm hr hu, ?_⟩
    rw [ht, State.core_setCore]
    exact ⟨rfl, rfl, rfl, rfl, rfl, rfl⟩
  · exact fun src hr hm => (exec_evpend_cc src).trans (by rw [Core.event_running hr hm])
  · exact fun src hm => (exec_evpend_cc src).trans (by rw [Core.event_masked hm])
  · intro core n hs hr
    obtain ⟨u, x, y, ht, hslot, hst, -⟩ := State.preempt_eq 3 none hs
    refine ⟨_, exec_parked core hs hr, ?_⟩
    rw [ht, State.slot_setSlot, State.core_setSlot, State.core_setCore]
    exact ⟨hst, hslot⟩
  · intro core n hs hr
    obtain ⟨u, x, y, ht, hslot, hst, hcyc⟩ := State.preempt_eq 4 (some (BitVec.ofNat 32 (s.slotBudget n))) hs
    refine ⟨_, exec_ovrBudget core hs hr, ?_⟩
    rw [ht, State.slot_count, State.slot_setSlot, State.core_count, State.core_setSlot, State.core_setCore]
    exact ⟨hst, (hcyc _ rfl).trans (BitVec.toNat_ofNat _ _), hslot⟩
  · intro slot
    dsimp only
    intro ha h5 h4 ht hc hp he
    obtain ⟨r, g, hex⟩ := exec_init slot ha h5 h4 ht hc hp he
    obtain ⟨p0, p8, p12, p15, p16⟩ := State.pendingVal_initWrites ({ s with rings := r, gring := g } : State)
      (0x40004100 + 0x10 * slot.val) (s.last (fk (0x40004100 + 0x10 * slot.val) 0)) (s.last (fk (0x40004100 + 0x10 * slot.val) 8))
      (s.last (fk (0x40004100 + 0x10 * slot.val) 12)) (s.last (fk (0x40004100 + 0x10 * slot.val) 15))
    obtain ⟨h, hsh⟩ := State.shadowed_eq ({ s with rings := r, gring := g } : State) (initWrites (0x40004100 + 0x10 * slot.val)
      (s.last (fk (0x40004100 + 0x10 * slot.val) 0)) (s.last (fk (0x40004100 + 0x10 * slot.val) 8))
      (s.last (fk (0x40004100 + 0x10 * slot.val) 12)) (s.last (fk (0x40004100 + 0x10 * slot.val) 15)))
    refine ⟨_, hex, p16, (congrArg State.regs hsh).trans rfl, (congrArg State.mem hsh).trans rfl, ?_⟩
    simp only [List.forall_mem_cons, List.not_mem_nil, false_imp_iff, implies_true, and_true]
    exact ⟨p0, p8, p12, p15⟩
  · intro r hr hedge
    obtain ⟨u, ht, hnone, hreg, hrpt⟩ := s.resetComplete_eq r
    refine ⟨u, ?_, hnone, hreg, hrpt⟩
    simp only [exec, execTenResetComplete, hr, hedge]
    exact congrArg Host.Outcome.next ht
  · intro r hr hedge
    simp only [exec, execTenResetComplete, hr, hedge]
    rfl
  · exact fun t v h27 => if_neg (by rw [h27]; decide)

end Sys2Proof.Machine
end

section
/-! PROOFS. O52, O53, O54: how Cyntoux judges packets, starts its queue and refuses opcodes; what a command of Table 12-5 that is
accepted comes to. -/
namespace Sys2Proof.Machine
open Sys2Proof

/-! ### Packets -/

/-- The header that row 1 of Table 12-4 asks for. -/
def headOk (q : List Byte) : Prop := 16 ≤ q.length ∧ byteAt q 0 = 0xEB ∧ crc16 (q.take 10) = leAt q 10 2

theorem not_headOk_iff {q : List Byte} :
    ((decide (q.length < 16) || byteAt q 0 != 0xEB || crc16 (q.take 10) != leAt q 10 2) = true) ↔ ¬headOk q := by
  unfold headOk
  simp only [Bool.or_eq_true, decide_eq_true_eq, bne_iff_ne]
  rw [← Nat.not_le, Decidable.not_and_iff_or_not, Decidable.not_and_iff_or_not, or_assoc]

theorem State.packet_dropped {s : State} (src : CmdSrc) {q : List Byte} (h : ¬headOk q) : s.packet src q =
    { s.reef1Leave with cyn := { s.reef1Leave.cyn with drop := s.reef1Leave.cyn.drop + 1 } } :=
  if_pos (not_headOk_iff.mpr h)

/-- A packet with a good header goes on to the version, the length and the CRC. -/
theorem State.packet_headed {s : State} (src : CmdSrc) {q : List Byte} (h : headOk q) : s.packet src q =
    let v := s.reef1Leave.touchUdp src
    if byteAt q 1 != 1 then v.reject (cmdOf src q) stBadOpcode
    else if decide (1024 < leAt q 8 2) || q.length != 16 + leAt q 8 2 || ((cmdOf src q).onMailbox && decide (224 < q.length)) then
      v.reject (cmdOf src q) stBadLength
    else if crc32c (q.take (12 + leAt q 8 2)) != (cmdOf src q).pcrc then v.reject (cmdOf src q) stBadCrc
    else v.acceptCmd (cmdOf src q) :=
  if_neg (fun hn => not_headOk_iff.mp hn h)

theorem State.packet_version {s : State} (src : CmdSrc) {q : List Byte} (h : headOk q) (hv : byteAt q 1 ≠ 1) :
    s.packet src q = (s.reef1Leave.touchUdp src).reject (cmdOf src q) 0x0100 :=
  (s.packet_headed src h).trans (if_pos (bne_iff_ne.mpr hv))

theorem State.packet_length {s : State} (src : CmdSrc) {q : List Byte} (h : headOk q) (hv : byteAt q 1 = 1)
    (hl : 1024 < leAt q 8 2 ∨ q.length ≠ 16 + leAt q 8 2 ∨ (cmdOf src q).onMailbox = true ∧ 224 < q.length) :
    s.packet src q = (s.reef1Leave.touchUdp src).reject (cmdOf src q) 0x0101 :=
  (s.packet_headed src h).trans ((if_neg (by simp [hv])).trans (if_pos (by
    simp only [Bool.or_eq_true, Bool.and_eq_true, decide_eq_true_eq, bne_iff_ne]
    rwa [or_assoc])))

theorem State.packet_whole {s : State} (src : CmdSrc) {q : List Byte} (h : headOk q) (hv : byteAt q 1 = 1) (hn : leAt q 8 2 ≤ 1024)
    (hl : q.length = 16 + leAt q 8 2) (hm : (cmdOf src q).onMailbox = false ∨ q.length ≤ 224) : s.packet src q =
      if crc32c (q.take (12 + leAt q 8 2)) != (cmdOf src q).pcrc then (s.reef1Leave.touchUdp src).reject (cmdOf src q) stBadCrc
      else (s.reef1Leave.touchUdp src).acceptCmd (cmdOf src q) :=
  (s.packet_headed src h).trans ((if_neg (by simp [hv])).trans (if_neg (by
    simp only [Bool.or_eq_true, Bool.and_eq_true, decide_eq_true_eq, bne_iff_ne, not_or, not_and, ne_eq, Decidable.not_not]
    exact ⟨⟨Nat.not_lt.mpr hn, hl⟩, fun hb => by
      rcases hm with hm | hm
      · rw [hm] at hb; cases hb
      · exact Nat.not_lt.mpr hm⟩)))

/-- A command packet kept as a duplicate of `c`. -/
def Kept.sameAs (c : Cmd) (x : Kept) : Bool := sameSrc x.src c.src && x.seq == c.seq && x.pcrc == c.pcrc

theorem State.acceptCmd_duplicate {s : State} {c : Cmd} {x : Kept} (h : s.cyn.kept.find? (Kept.sameAs c) = some x) :
    s.acceptCmd c = if x.done then x.reply.elim s (fun r => s.send c.src c.seq r) else s := by
  unfold State.acceptCmd
  rw [show s.cyn.kept.find? (fun k => sameSrc k.src c.src && k.seq == c.seq && k.pcrc == c.pcrc) = some x from h]

theorem State.acceptCmd_refused {s : State} {c : Cmd} {st : Nat} (h : s.cyn.kept.find? (Kept.sameAs c) = none)
    (hr : s.refusal c = some st) : s.acceptCmd c = s.reject c st := by
  unfold State.acceptCmd
  rw [show s.cyn.kept.find? (fun k => sameSrc k.src c.src && k.seq == c.seq && k.pcrc == c.pcrc) = none from h]
  simp only [hr]

theorem State.acceptCmd_permitted {s : State} {c : Cmd} (h : s.cyn.kept.find? (Kept.sameAs c) = none) (hr : s.refusal c = none) :
    s.acceptCmd c = if 16 ≤ s.cyn.queue.length then s.reject c stBusy else (s.admitCmd c).2.enqueue (s.admitCmd c).1 := by
  unfold State.acceptCmd
  rw [show s.cyn.kept.find? (fun k => sameSrc k.src c.src && k.seq == c.seq && k.pcrc == c.pcrc) = none from h]
  simp only [hr]

theorem State.takeDatagrams_nil {s : State} (h : s.serv.dgrams = []) : s.takeDatagrams = s := by
  unfold State.takeDatagrams
  rw [h, List.foldl_nil, ← h]

theorem udp_not_dropped {s : State} {p : Nat} {f : List Byte} (hu : s.sgmUp p = true) (hk : frameKept p f = true)
    (hc : s.isCommand p f = true) : ¬(!(s.sgmUp p && frameKept p f && s.isCommand p f)) = true := by
  rw [hu, hk, hc]; decide

theorem exec_udpDatagram {s : State} (port : Bool) {f : List Byte} (hu : s.sgmUp (ofBool port) = true)
    (hk : frameKept (ofBool port) f = true) (hc : s.isCommand (ofBool port) f = true) (hr : s.cynRuns = true)
    (hd : s.serv.dgrams = []) : exec (.udpDatagram port f) s = .next (s.takeDatagram port f) :=
  (if_neg (udp_not_dropped hu hk hc)).trans ((if_pos hr).trans
    (congrArg (fun u : State => Host.Outcome.next (u.takeDatagram port f)) (State.takeDatagrams_nil hd)))

/-- While Cyntoux does not run the port holds the datagram. -/
theorem exec_udpDatagram_held {s : State} (port : Bool) {f : List Byte} (hu : s.sgmUp (ofBool port) = true)
    (hk : frameKept (ofBool port) f = true) (hc : s.isCommand (ofBool port) f = true) (hr : s.cynRuns = false) :
    exec (.udpDatagram port f) s = .next (s.holdDatagram (ofBool port) f) :=
  (if_neg (udp_not_dropped hu hk hc)).trans (if_neg (by rw [hr]; decide))

theorem takeWhile_closed {f : List Nat} (rest : List Nat) (hf : 0xC0 ∉ f) : (f ++ 0xC0 :: rest).takeWhile (· != 0xC0) = f := by
  have hall : ∀ x ∈ f, (x != 0xC0) = true := fun x hx => bne_iff_ne.mpr fun he => hf (he ▸ hx)
  rw [List.takeWhile_append_of_pos hall]
  simp

theorem exec_consoleFrame {s : State} (port : Bool) {f rest : List Nat} (hr : s.cynRuns = true) (h69 : s.isUp 69 = true)
    (hb : s.consBuf (ofBool port) = f ++ 0xC0 :: rest) (hf : 0xC0 ∉ f) : exec (.consoleFrame port) s =
      let v := s.setCons (ofBool port) rest
      if f.isEmpty then .next v else
      match slipDecode f with
      | some b => .next (if 1040 < b.length then v.count (kSlipErr (ofBool port)) 16 1 else v.packet (.console port) b)
      | none => .next (v.count (kSlipErr (ofBool port)) 16 1) := by
  have hdrop : (f ++ 0xC0 :: rest).drop (f.length + 1) = rest := by simp
  simp only [exec, execConsoleFrame, hb, hr, h69, takeWhile_closed rest hf, hdrop]
  exact (if_neg (by simp)).trans rfl

/-- Settles O52. That a port holds a datagram while Cyntoux does not run is log entry 96; that the source of any packet past row 1
counts as active is entry 113. -/
theorem packetsAreJudgedInOrder : Obligations.PacketsAreJudgedInOrder := by
  unfold Obligations.PacketsAreJudgedInOrder
  refine ⟨fun s0 src q => ⟨State.packet_dropped src, fun h => State.packet_version src h, fun h => State.packet_length src h,
    fun h hv hn hl hm hc => ?_, fun h hv hn hl hm hc => ?_⟩, fun s c => ⟨fun x hx => ⟨fun hd => ?_, fun r hd hr => ?_, fun hd hr => ?_⟩,
    fun hk => ⟨fun st hr => State.acceptCmd_refused hk hr, fun hr hl => ?_, fun hr hl => ⟨_, ?_, rfl⟩⟩⟩,
    fun port f s hu hk hc => ⟨fun hr hd => exec_udpDatagram port hu hk hc hr hd, fun hr => exec_udpDatagram_held port hu hk hc hr⟩,
    fun port s f rest hr h69 hb hf => ⟨fun he => ?_, fun hne hs => ?_, fun b hne hs hl => ?_⟩⟩
  · exact (State.packet_whole src h hv hn hl hm).trans (if_pos (bne_iff_ne.mpr hc))
  · exact (State.packet_whole src h hv hn hl hm).trans (if_neg (by simpa using hc))
  · exact (State.acceptCmd_duplicate hx).trans (if_neg (by rw [hd]; decide))
  · rw [State.acceptCmd_duplicate hx, if_pos hd, hr]
    rfl
  · rw [State.acceptCmd_duplicate hx, if_pos hd, hr]
    rfl
  · exact (State.acceptCmd_permitted hk hr).trans (if_pos hl)
  · exact (State.acceptCmd_permitted hk hr).trans (if_neg (Nat.not_le.mpr hl))
  · exact (exec_consoleFrame port hr h69 hb hf).trans (if_pos (by simpa using he))
  · refine (exec_consoleFrame port hr h69 hb hf).trans ((if_neg (by simpa using hne)).trans ?_)
    rw [hs]
  · refine (exec_consoleFrame port hr h69 hb hf).trans ((if_neg (by simpa using hne)).trans ?_)
    rw [hs]
    exact congrArg Host.Outcome.next (if_neg (Nat.not_lt.mpr hl))

/-! ### The queue -/

/-- `c` starts before `d` or is it: a higher PRIO, or an equal one and not later (R281). -/
def Cmd.before (c d : Cmd) : Prop := d.prio < c.prio ∨ d.prio = c.prio ∧ c.order ≤ d.order

/-- The better of the best command so far and one more. -/
def betterCmd (best : Option Cmd) (c : Cmd) : Option Cmd :=
  match best with
  | none => some c
  | some b => if b.prio < c.prio || (b.prio == c.prio && decide (c.order < b.order)) then some c else some b

theorem betterCmd_spec (best : Option Cmd) (c : Cmd) : ∃ b, betterCmd best c = some b ∧ (b = c ∨ best = some b) ∧ b.before c ∧
    ∀ x, best = some x → b.before x := by
  cases best with
  | none => exact ⟨c, rfl, .inl rfl, .inr ⟨rfl, Nat.le_refl _⟩, fun x hx => nomatch hx⟩
  | some b =>
    by_cases h : (decide (b.prio < c.prio) || (b.prio == c.prio && decide (c.order < b.order))) = true
    · refine ⟨c, if_pos h, .inl rfl, .inr ⟨rfl, Nat.le_refl _⟩, fun x hx => ?_⟩
      cases hx
      simp only [Bool.or_eq_true, Bool.and_eq_true, decide_eq_true_eq, beq_iff_eq] at h
      exact h.imp id (fun h => ⟨h.1, Nat.le_of_lt h.2⟩)
    · refine ⟨b, if_neg h, .inr rfl, ?_, fun x hx => ?_⟩
      · simp only [Bool.or_eq_true, Bool.and_eq_true, decide_eq_true_eq, beq_iff_eq, not_or, not_and] at h
        obtain ⟨hp, ho⟩ := h
        rcases Nat.lt_or_eq_of_le (Nat.le_of_not_lt hp) with hlt | heq
        · exact .inl hlt
        · exact .inr ⟨heq, Nat.le_of_not_lt (ho heq.symm)⟩
      · cases hx
        exact .inr ⟨rfl, Nat.le_refl _⟩

theorem Cmd.before_trans {c d e : Cmd} (h : c.before d) (k : d.before e) : c.before e := by
  unfold Cmd.before at *
  omega

theorem betterCmd_fold (l : List Cmd) (best : Option Cmd) {c : Cmd} (h : l.foldl betterCmd best = some c) :
    (c ∈ l ∨ best = some c) ∧ (∀ d ∈ l, c.before d) ∧ ∀ x, best = some x → c.before x := by
  induction l generalizing best with
  | nil =>
    refine ⟨.inr h, by simp, fun x hx => ?_⟩
    obtain rfl : c = x := Option.some.inj (h.symm.trans hx)
    exact .inr ⟨rfl, Nat.le_refl _⟩
  | cons a t ih =>
    obtain ⟨b, hb, hmem, hba, hbest⟩ := betterCmd_spec best a
    rw [List.foldl_cons, hb] at h
    obtain ⟨hc, hall, hx⟩ := ih _ h
    have hcb : c.before b := hx b rfl
    refine ⟨?_, ?_, fun x hx => Cmd.before_trans hcb (hbest x hx)⟩
    · rcases hc with hc | hc
      · exact .inl (List.mem_cons_of_mem _ hc)
      · cases hc
        exact hmem.imp (fun he : c = a => he ▸ List.mem_cons_self) id
    · intro d hd
      rcases List.mem_cons.mp hd with rfl | hd
      · exact Cmd.before_trans hcb hba
      · exact hall d hd

theorem State.nextCmd_best {s : State} {c : Cmd} (h : s.nextCmd = some c) : c ∈ s.cyn.queue ∧ ∀ d ∈ s.cyn.queue, c.before d := by
  obtain ⟨hmem, hall, -⟩ := betterCmd_fold s.cyn.queue none h
  exact ⟨hmem.resolve_right (by simp), hall⟩

/-- The state without a command in its queue. -/
def State.dequeued (s : State) (c : Cmd) : State := { s with cyn := { s.cyn with queue := s.cyn.queue.erase c } }

theorem exec_commandStart {s : State} {c : Cmd} (hn : s.nextCmd = some c) (hr : s.cynRuns = true) (ha : s.boot.accepting = true)
    (ho : s.cynOccupied = false) : exec .commandStart s =
      if opScoped c.op && s.resetting c.ten then .next ((s.dequeued c).finish c stTenantResetting [] [])
      else if s.resourceHeld c then .next ((s.dequeued c).finish c stBusy [] [])
      else .next (((s.dequeued c).perform c).getD s) := by
  simp only [exec, execCommandStart, hn, hr, ha, ho]
  rfl

theorem exec_commandStart_idle {s : State} (h : s.cyn.queue = []) : exec .commandStart s = .next s := by
  have hn : s.nextCmd = none := by rw [State.nextCmd, h]; rfl
  simp only [exec, execCommandStart, hn]
  split <;> rfl

theorem State.perform_done {s t : State} {c : Cmd} {st : Nat} {bs : List Byte} {es : List Nat} (h : s.run c = (.done st bs es, t)) :
    s.perform c = some (t.finish c st bs es) := by
  unfold State.perform
  rw [h]

theorem State.perform_long {s t : State} {c : Cmd} {w : CmdWait} {es : List Nat} (h : s.run c = (.long w es, t)) :
    s.perform c = some (t.addLong (c.withEntries es) w) := by
  unfold State.perform
  rw [h]

theorem State.perform_wait {s t : State} {c : Cmd} (h : s.run c = (.wait, t)) :
    s.perform c = if c.isLong then some (s.addLong c .retry) else none := by
  unfold State.perform
  rw [h]

theorem exec_commandComplete {s : State} {c : Cmd} {w : CmdWait} {rest : List (Cmd × CmdWait)} (hl : s.cyn.longs = (c, w) :: rest)
    (hr : s.cynRuns = true) : exec .commandComplete s = .next (s.completeOne [] ((c, w) :: rest)) :=
  congrArg Host.Outcome.next ((if_pos hr).trans (congrArg (s.completeOne []) hl))

theorem Cmd.withEntries_nil (c : Cmd) : c.withEntries [] = c := by
  unfold Cmd.withEntries
  rw [List.append_nil]

/-! ### The retries of CLEAT_ACQUIRE -/

theorem State.fenced_cc (s : State) : s.fenced 64 = false := rfl

theorem State.freeValue_token_cc (s : State) : freeValue (s.token 64) = false := by
  simp [freeValue, State.token, State.ctxTenant]

/-- The control core takes a cleat of a free value by its swap. -/
theorem State.cleatSwap_cc {s : State} {k : Nat} (h : freeValue (s.cleat k).value = true) :
    (s.cleatSwap k 0 64 (s.cleat k).value (s.token 64) false).2 = s.hold k (s.token 64) 64 := by
  have hok : ¬(!s.cleatOk k 64 false || 0 != 0) = true := by
    simp [State.cleatOk, s.fenced_cc]
  unfold State.cleatSwap
  rw [if_neg hok]
  simp only [if_true, State.cleatWrite, h, s.freeValue_token_cc]

theorem State.cleatTry_free {s : State} {k : Nat} (h : freeValue (s.cleat k).value = true) : s.cleatTry k =
    (some ((s.cleat k).value, if (s.cleat k).value = 0 then stOk else stOwnerReset), s.hold k (s.token 64) 64) := by
  unfold State.cleatTry
  simp only [h, if_true, State.cleatSwap_cc h]

theorem State.cleatTry_held {s : State} {k : Nat} (h : freeValue (s.cleat k).value = false) : s.cleatTry k = (none, s) :=
  if_neg (by rw [h]; decide)

theorem exec_cleatAcquireRetry {s : State} {c : Cmd} {g tries cyc due : Nat} (hl : s.cyn.longs = [(c, .cleat g tries cyc due)])
    (hd : 0 < due) (hr : s.cynRuns = true) (h48 : s.isUp 48 = true) : exec .cleatAcquireRetry s = .next
      (match s.cleatRetry g tries cyc due with
      | (.done st bs es, s1) => State.finish { s1 with cyn := { s1.cyn with longs := [] } } c st bs es
      | (.long w' es, s1) => { s1 with cyn := { s1.cyn with longs := [(c.withEntries es, w')] } }
      | (.wait, s1) => s1) := by
  refine (congrArg Host.Outcome.next ((if_pos (by rw [hr, h48]; rfl)).trans (congrArg (s.retryOne []) hl))).trans ?_
  simp only [State.retryOne]
  rw [if_neg (Nat.pos_iff_ne_zero.mp hd)]
  rcases s.cleatRetry g tries cyc due with ⟨_ | _ | _, t⟩ <;> rfl

theorem exec_pgTimeout {s : State} {n : Nat} (hr : s.cynRuns = true) (hp : s.serv.pgWait = some n) (hn : s.reg (fk 0x40012104 0) ≤ n) :
    ∃ u : State, u.serv.pgWait = none ∧ exec .pgTimeout s = .next (u.endSeq true stNotReady) := by
  simp only [exec, execPgTimeout, hp]
  rw [if_neg (by rw [hr, decide_eq_true hn]; decide)]
  exact ⟨_, rfl, rfl⟩

/-- Settles O53. That a queued command whose resource is held at its start ends BUSY is log entry 112. -/
theorem commandsStartCompleteAndRetry : Obligations.CommandsStartCompleteAndRetry := by
  unfold Obligations.CommandsStartCompleteAndRetry
  intro s hr
  refine ⟨fun c h => State.nextCmd_best h, fun c hn ha ho => ?_, fun c w => rfl, fun c h w => if_pos h,
    fun c h => if_neg (by rw [h]; decide), exec_commandStart_idle, fun c w rest hl => ?_, fun c g cl tries cyc due hl hd h48 hcl => ?_,
    fun n hp hle => ?_⟩
  · have hex := exec_commandStart hn hr ha ho
    refine ⟨fun h1 h2 => hex.trans (if_pos (by rw [h1, h2]; rfl)), fun h1 h2 => hex.trans ((if_neg ?_).trans (if_pos h2)),
      fun h1 h2 => ?_⟩
    · rcases h1 with h | h <;> simp [h]
    · have hgo := hex.trans ((if_neg (by rcases h1 with h | h <;> simp [h])).trans (if_neg (by rw [h2]; decide)))
      refine ⟨fun st bs es t hrun => ?_, fun w es t hrun => ?_, fun t hrun => ?_⟩
      · exact hgo.trans (congrArg (fun o : Option State => Host.Outcome.next (o.getD s)) (State.perform_done hrun))
      · exact hgo.trans (congrArg (fun o : Option State => Host.Outcome.next (o.getD s)) (State.perform_long hrun))
      · refine hgo.trans ((congrArg (fun o : Option State => Host.Outcome.next (o.getD s)) (State.perform_wait hrun)).trans ?_)
        split <;> rfl
  · have hex := exec_commandComplete hl hr
    refine ⟨fun st bs es t hp => hex.trans ?_, fun w' es t hp => hex.trans ?_⟩
    · simp only [State.completeOne, hp]
      rfl
    · simp only [State.completeOne, hp]
      rfl
  · subst hcl
    have hex := exec_cleatAcquireRetry hl hd hr h48
    refine ⟨fun h0 => ⟨s.hold g (s.token 64) 64, ?_, ?_⟩, fun hf ht => ?_, fun hf ht => ?_⟩
    · have hfree : freeValue (s.cleat g).value = true := by rw [h0]; decide
      simp only [hex, State.cleatRetry, State.cleatTry_free hfree, h0]
      rfl
    · rw [State.hold, State.cleat_setCleat]
    · simp only [hex, State.cleatRetry, State.cleatTry_held hf, if_neg (show ¬5 ≤ tries + 1 by omega), Cmd.withEntries_nil]
    · simp only [hex, State.cleatRetry, State.cleatTry_held hf, if_pos (show 5 ≤ tries + 1 by omega)]
      rfl
  · obtain ⟨u, hu, hex⟩ := exec_pgTimeout hr hp hle
    exact ⟨_, hex, hu, rfl, State.flag_setFlag _ kWakeSeq false⟩

end Sys2Proof.Machine
end

section
/-! PROOFS. O54, O55, O56: the rows that refuse an opcode, what an accepted command comes to, the commands that are field lists, and
the commands of classes 0x0 to 0x2. -/
namespace Sys2Proof.Machine
open Sys2Proof

/-! ### Refusal by rows 6 to 13 -/

theorem State.refusal_busy {s : State} (c : Cmd) (ha : s.boot.accepting = false) : s.refusal c = some 0x0104 :=
  if_pos (by rw [ha]; rfl)

theorem State.refusal_manufacturing {s : State} {c : Cmd} (ha : s.boot.accepting = true) (hc : c.op / 4096 = 0xF) :
    s.refusal c = some (if s.debugLocked then 0x0103 else 0x0100) :=
  (if_neg (by rw [ha]; decide)).trans (if_pos hc)

theorem State.refusal_unknown {s : State} {c : Cmd} (ha : s.boot.accepting = true) (hc : c.op / 4096 ≠ 0xF) (hi : opInfo c.op = none) :
    s.refusal c = some 0x0100 := by
  refine (if_neg (by rw [ha]; decide)).trans ((if_neg hc).trans ?_)
  simp only [hi]
  rfl

/-- The rows of a known opcode, in order. -/
theorem State.refusal_known {s : State} {c : Cmd} {i : OpInfo} (ha : s.boot.accepting = true) (hc : c.op / 4096 ≠ 0xF)
    (hi : opInfo c.op = some i) : s.refusal c =
      if !c.permitted i then some stNotPermitted
      else if !opLenOk c.op c.params then some stBadLength
      else if opScoped c.op && s.resetting c.ten then some stTenantResetting
      else if (c.op == 0x3000 || c.op == 0x3001 || c.op == 0x3002) && s.reg (fk (0x40008100 + 8 * c.ten) 0) == 0 then some stTenantUnknown
      else if s.allow < c.min i then some stEnergyRefused
      else if s.resourceHeld c then some stBusy
      else none := by
  refine (if_neg (by rw [ha]; decide)).trans ((if_neg hc).trans ?_)
  simp only [hi]

/-- Past the rows of permission and length. -/
theorem State.refusal_sized {s : State} {c : Cmd} {i : OpInfo} (ha : s.boot.accepting = true) (hc : c.op / 4096 ≠ 0xF)
    (hi : opInfo c.op = some i) (hp : c.permitted i = true) (hl : opLenOk c.op c.params = true) : s.refusal c =
      if opScoped c.op && s.resetting c.ten then some stTenantResetting
      else if (c.op == 0x3000 || c.op == 0x3001 || c.op == 0x3002) && s.reg (fk (0x40008100 + 8 * c.ten) 0) == 0 then some stTenantUnknown
      else if s.allow < c.min i then some stEnergyRefused
      else if s.resourceHeld c then some stBusy
      else none :=
  (State.refusal_known ha hc hi).trans ((if_neg (by rw [hp]; decide)).trans (if_neg (by rw [hl]; decide)))

/-- Past the rows of the tenant, whose bucket array stands. -/
theorem State.refusal_tenant {s : State} {c : Cmd} {i : OpInfo} (ha : s.boot.accepting = true) (hc : c.op / 4096 ≠ 0xF)
    (hi : opInfo c.op = some i) (hp : c.permitted i = true) (hl : opLenOk c.op c.params = true) (hr : s.resetting c.ten = false)
    (hk : s.reg (fk (0x40008100 + 8 * c.ten) 0) ≠ 0) : s.refusal c =
      if s.allow < c.min i then some stEnergyRefused else if s.resourceHeld c then some stBusy else none :=
  (State.refusal_sized ha hc hi hp hl).trans ((if_neg (by rw [hr]; simp)).trans (if_neg (by simp [hk])))

/-! ### What an accepted command comes to -/

theorem State.issue_refused {s : State} {c : CmdIn} {op st : Nat} (hr : s.cynRuns = true) (h : s.refusal (cmdOfIn c op) = some st) :
    s.issue op c = s.reject (cmdOfIn c op) st := by
  unfold State.issue
  rw [if_neg (by rw [hr]; decide)]
  simp only [h]

/-- The command passes rows 6 to 13. -/
def State.admits (s : State) (c : CmdIn) (op : Nat) : Prop := s.refusal (cmdOfIn c op) = none ∧ s.cyn.queue.length < 16

theorem State.issue_ready {s : State} {c : CmdIn} {op : Nat} (hr : s.cynRuns = true) (ho : s.cynOccupied = false) (h : s.admits c op) :
    s.issue op c = ((s.admitCmd (cmdOfIn c op)).2.perform (s.admitCmd (cmdOfIn c op)).1).getD
      ((s.admitCmd (cmdOfIn c op)).2.enqueue (s.admitCmd (cmdOfIn c op)).1) := by
  obtain ⟨href, hlen⟩ := h
  unfold State.issue
  rw [if_neg (by rw [hr]; decide)]
  simp only [href]
  rw [if_neg (Nat.not_le.mpr hlen), if_neg (by rw [ho]; decide)]

theorem State.admitCmd_fields (s : State) (c : Cmd) : (s.admitCmd c).1.op = c.op ∧ (s.admitCmd c).1.tenant = c.tenant ∧
    (s.admitCmd c).1.params = c.params ∧ (s.admitCmd c).1.src = c.src := by
  unfold State.admitCmd State.clampPrio
  split <;> exact ⟨rfl, rfl, rfl, rfl⟩

/-- A command's opcode has the body `f` (Table 12-5). -/
def Runs (op : Nat) (f : State → Cmd → Ans) : Prop := ∀ (u : State) (k : Cmd), u.run { k with op := op } = f u { k with op := op }

theorem Cmd.with_op {k : Cmd} {op : Nat} (h : k.op = op) : ({ k with op := op } : Cmd) = k := by
  subst h
  rfl

theorem Runs.admitted {op : Nat} {f : State → Cmd → Ans} (h : Runs op f) (s u : State) (c : CmdIn) :
    u.run (s.admitCmd (cmdOfIn c op)).1 = f u (s.admitCmd (cmdOfIn c op)).1 := by
  have hk : ({ (s.admitCmd (cmdOfIn c op)).1 with op := op } : Cmd) = (s.admitCmd (cmdOfIn c op)).1 :=
    Cmd.with_op (s.admitCmd_fields (cmdOfIn c op)).1
  have hu := h u (s.admitCmd (cmdOfIn c op)).1
  rwa [hk] at hu

section
variable {s t : State} {c : CmdIn} {op : Nat} {f : State → Cmd → Ans}

theorem State.issue_done {st : Nat} {bs : List Byte} {es : List Nat} (hf : Runs op f) (hr : s.cynRuns = true) (ho : s.cynOccupied = false)
    (h : s.admits c op) (ha : f (s.admitCmd (cmdOfIn c op)).2 (s.admitCmd (cmdOfIn c op)).1 = (.done st bs es, t)) :
    s.issue op c = t.finish (s.admitCmd (cmdOfIn c op)).1 st bs es := by
  rw [State.issue_ready hr ho h, State.perform_done ((hf.admitted s _ c).trans ha)] <;> rfl

theorem State.issue_long {w : CmdWait} {es : List Nat} (hf : Runs op f) (hr : s.cynRuns = true) (ho : s.cynOccupied = false)
    (h : s.admits c op) (ha : f (s.admitCmd (cmdOfIn c op)).2 (s.admitCmd (cmdOfIn c op)).1 = (.long w es, t)) :
    s.issue op c = t.addLong ((s.admitCmd (cmdOfIn c op)).1.withEntries es) w := by
  rw [State.issue_ready hr ho h, State.perform_long ((hf.admitted s _ c).trans ha)] <;> rfl

theorem State.issue_waits {w : CmdWait} (hf : Runs op f) (hr : s.cynRuns = true) (ho : s.cynOccupied = false) (h : s.admits c op)
    (ha : f (s.admitCmd (cmdOfIn c op)).2 (s.admitCmd (cmdOfIn c op)).1 = (.long w [], t)) :
    s.issue op c = t.addLong (s.admitCmd (cmdOfIn c op)).1 w :=
  (State.issue_long hf hr ho h ha).trans (congrArg (t.addLong · w) (Cmd.withEntries_nil _))

end

/-- Each command of Table 12-5 is issued with its opcode. -/
theorem exec_opcodes (c : CmdIn) (s : State) : ∀ e ∈ (
  [(.nop, 0x0000), (.ident, 0x0001), (.cfgSet, 0x0002), (.cfgGet, 0x0003), (.regRead, 0x0004), (.rptRead, 0x0005),
    (.rptClear, 0x0006), (.warmReset, 0x0007), (.powerStat, 0x1000), (.reefReq, 0x1001), (.shelfWake, 0x1002),
    (.shelfSleep, 0x1003), (.powerSet, 0x1004), (.bayStat, 0x2000), (.baySet, 0x2001), (.gangStart, 0x2002),
    (.gangStop, 0x2003), (.bayRestart, 0x2004), (.serSend, 0x2005), (.serRecv, 0x2006), (.catLookup, 0x3000),
    (.catPut, 0x3001), (.catDelete, 0x3002), (.catRead, 0x3003), (.catWrite, 0x3004), (.catRegion, 0x3005),
    (.tenStat, 0x4000), (.tenSeg, 0x4001), (.tenActivate, 0x4002), (.tenReset, 0x4003), (.tenLoad, 0x4004),
    (.slotStat, 0x4005), (.cleatRead, 0x5000), (.cleatWrite, 0x5001), (.cleatAcquire, 0x5002), (.arbSet, 0x5003),
    (.gaugeRead, 0x6000), (.harvSet, 0x6001), (.timeGet, 0x7000), (.timeSet, 0x7001), (.alarmSet, 0x7002), (.adcSet, 0x8000),
    (.adcTable, 0x8001), (.adcRingRead, 0x8002), (.sfuTableLoad, 0x9000), (.sfuTableCrc, 0x9001), (.sfuRun, 0x9002),
    (.norRead, 0xA000), (.norErase, 0xA001), (.norProgram, 0xA002), (.imageActivate, 0xA003), (.keyLoad, 0xB000),
    (.keyClear, 0xB001), (.attest, 0xB002), (.attestKey, 0xB003), (.unlockChallenge, 0xB004), (.unlockResponse, 0xB005),
    (.errRead, 0xE000), (.errPop, 0xE001), (.errStat, 0xE002)] : List ((CmdIn → Instr) × Nat)),
    exec (e.1 c) s = .next (s.issue e.2 c) := by
  simp only [List.forall_mem_cons, List.not_mem_nil, false_imp_iff, implies_true, and_true]
  repeat' constructor

/-- Settles O54. That class 0xF on an unlocked part is always answered BAD_OPCODE is log entry 115. -/
theorem opcodesAreRefusedInRowOrder : Obligations.OpcodesAreRefusedInRowOrder := by
  unfold Obligations.OpcodesAreRefusedInRowOrder
  refine ⟨fun c s hr e he st h => ?_, fun s c i => ⟨State.refusal_busy c, State.refusal_manufacturing, State.refusal_unknown,
    fun ha hc hi => ⟨fun hp => ?_, fun hp hl => ?_, fun hp hl hs hres => ?_, fun hp hl hres hop hk => ?_, fun hp hl hres hk hlt => ?_,
      fun hp hl hres hk hle => ?_⟩⟩⟩
  · exact (exec_opcodes c s e he).trans (congrArg Host.Outcome.next (State.issue_refused hr h))
  · exact (State.refusal_known ha hc hi).trans (if_pos (by rw [hp]; rfl))
  · exact (State.refusal_known ha hc hi).trans ((if_neg (by rw [hp]; decide)).trans (if_pos (by rw [hl]; rfl)))
  · exact (State.refusal_sized ha hc hi hp hl).trans (if_pos (by rw [hs, hres]; rfl))
  · refine (State.refusal_sized ha hc hi hp hl).trans ((if_neg (by rw [hres]; simp)).trans (if_pos ?_))
    simp only [List.mem_cons, List.not_mem_nil, or_false] at hop
    simpa [hk, or_assoc] using hop
  · exact (State.refusal_tenant ha hc hi hp hl hres hk).trans (if_pos hlt)
  · exact (State.refusal_tenant ha hc hi hp hl hres hk).trans (if_neg (Nat.not_lt.mpr hle))

/-! ### Field lists -/

theorem State.fieldList_barred {s : State} {c : Cmd} (scope : Nat → Nat → Bool) (h : s.psuBarred (fieldPairs c.params) = true) :
    s.fieldList c scope = (.done 0x0500 [] [], s) := if_pos h

/-- The first refused pair of a list, with its place. -/
def State.firstRefused (s : State) (scope : Nat → Nat → Bool) (ps : List (Nat × Nat)) : Option (Nat × Nat) :=
  ((List.range ps.length).filterMap (fun i => (s.pairRefusal scope (ps.getD i (0, 0)).1).map (fun st => (i, st)))).head?

theorem State.firstRefused_none {s : State} {scope : Nat → Nat → Bool} {ps : List (Nat × Nat)}
    (h : ∀ q ∈ ps, s.pairRefusal scope q.1 = none) : s.firstRefused scope ps = none := by
  unfold State.firstRefused
  rw [List.head?_eq_none_iff, List.filterMap_eq_nil_iff]
  intro i hi
  have hlt : i < ps.length := List.mem_range.mp hi
  rw [← List.getElem_eq_getD (h := hlt), h _ (List.getElem_mem hlt)] <;> rfl

theorem State.firstRefused_some {s : State} {scope : Nat → Nat → Bool} {ps : List (Nat × Nat)} {i st : Nat} {q : Nat × Nat}
    (hq : ps[i]? = some q) (hst : s.pairRefusal scope q.1 = some st)
    (hbefore : ∀ j r, j < i → ps[j]? = some r → s.pairRefusal scope r.1 = none) : s.firstRefused scope ps = some (i, st) := by
  have hi : i < ps.length := (List.getElem?_eq_some_iff.mp hq).1
  have hget (j : Nat) : ps.getD j (0, 0) = (ps[j]?).getD (0, 0) := List.getD_eq_getElem?_getD ..
  have hfirst : (List.range i).filterMap (fun j => (s.pairRefusal scope (ps.getD j (0, 0)).1).map (fun st => (j, st))) = [] := by
    rw [List.filterMap_eq_nil_iff]
    intro j hj
    have hji : j < i := List.mem_range.mp hj
    have hlt : j < ps.length := Nat.lt_trans hji hi
    rw [← List.getElem_eq_getD (h := hlt), hbefore j _ hji (List.getElem?_eq_getElem hlt)] <;> rfl
  obtain ⟨n, hn⟩ : ∃ n, ps.length = i + 1 + n := ⟨ps.length - i - 1, by omega⟩
  have hsplit : List.range ps.length = List.range i ++ i :: (List.range n).map (i + 1 + ·) := by
    rw [hn, List.range_add, List.range_succ, List.append_assoc]
    rfl
  unfold State.firstRefused
  rw [hsplit, List.filterMap_append, hfirst, List.nil_append, List.filterMap_cons, hget, hq]
  simp only [Option.getD_some, hst, Option.map_some, List.head?_cons]

theorem State.fieldList_refused {s : State} {c : Cmd} {scope : Nat → Nat → Bool} {i st : Nat} {q : Nat × Nat}
    (hb : s.psuBarred (fieldPairs c.params) = false) (hq : (fieldPairs c.params)[i]? = some q) (hst : s.pairRefusal scope q.1 = some st)
    (hbefore : ∀ j r, j < i → (fieldPairs c.params)[j]? = some r → s.pairRefusal scope r.1 = none) :
    s.fieldList c scope = (.done st (leBytes i 2) [], s) := by
  have hfirst := State.firstRefused_some hq hst hbefore
  unfold State.firstRefused at hfirst
  unfold State.fieldList
  rw [if_neg (by rw [hb]; decide)]
  simp only [hfirst]

/-- A list whose pairs all stand: the probe directory follows where a pair is one of CAT's (R251). -/
theorem State.fieldList_applied {s : State} {c : Cmd} {scope : Nat → Nat → Bool} (hb : s.psuBarred (fieldPairs c.params) = false)
    (hall : ∀ q ∈ fieldPairs c.params, s.pairRefusal scope q.1 = none) (ho : s.overlapAt (fieldPairs c.params) = none) :
    s.fieldList c scope = (.done 0 [] (s.applyFields (fieldPairs c.params)).1,
      if (fieldPairs c.params).any (fun p => p.1 / 1024 == 8) then (s.applyFields (fieldPairs c.params)).2.writeDirectory
      else (s.applyFields (fieldPairs c.params)).2) := by
  have hfirst := State.firstRefused_none hall
  unfold State.firstRefused at hfirst
  unfold State.fieldList
  rw [if_neg (by rw [hb]; decide)]
  simp only [hfirst, ho]
  rfl

/-- What O55 says of a field-list command `o` that Cyntoux has admitted as `k`. -/
theorem fieldListCommand {u : State} {k : Cmd} {scope : Nat → Nat → Bool} {o : Out}
    (hdone : ∀ st bs es t, u.fieldList k scope = (.done st bs es, t) → o = .next (t.finish k st bs es)) :
    (u.psuBarred (fieldPairs k.params) = true → o = .next (u.finish k 0x0500 [] [])) ∧
    (u.psuBarred (fieldPairs k.params) = false → (∀ q ∈ fieldPairs k.params, u.pairRefusal scope q.1 = none) →
      u.overlapAt (fieldPairs k.params) = none → ∃ t, o = .next (t.finish k 0 [] (u.applyFields (fieldPairs k.params)).1) ∧
        ((∀ q ∈ fieldPairs k.params, q.1 / 1024 ≠ 8) → t = (u.applyFields (fieldPairs k.params)).2)) ∧
    (∀ i q st, u.psuBarred (fieldPairs k.params) = false → (fieldPairs k.params)[i]? = some q → u.pairRefusal scope q.1 = some st →
      (∀ j r, j < i → (fieldPairs k.params)[j]? = some r → u.pairRefusal scope r.1 = none) →
      o = .next (u.finish k st (leBytes i 2) [])) := by
  refine ⟨fun h => hdone _ _ _ _ (State.fieldList_barred scope h), fun hb hall ho => ⟨_, hdone _ _ _ _ (State.fieldList_applied hb hall ho),
    fun h8 => if_neg ?_⟩, fun i q st hb hq hst hbefore => hdone _ _ _ _ (State.fieldList_refused hb hq hst hbefore)⟩
  simpa using h8

theorem State.opBaySet_unlocked {u : State} {k : Cmd} (h : ∀ q ∈ fieldPairs k.params, inBlocks [0x17, 0x18] (q.1 / 1024) 0 = true →
    (bayOfId q.1).elim false u.bayLocked = false) : u.opBaySet k = u.fieldList k (inBlocks [0x17, 0x18]) := by
  refine if_neg ?_
  simp only [List.any_eq_true, Bool.and_eq_true, not_exists, not_and]
  intro q hq hin
  rw [h q hq hin]
  decide

/-- The scope of CAT_REGION: the tenant's own fields. -/
def regionScope (t b o : Nat) : Bool := b == 8 && (o == 0x100 + 8 * t || o == 0x104 + 8 * t)

theorem opCatRegion_admitted (s u : State) (c : CmdIn) : u.opCatRegion (s.admitCmd (cmdOfIn c 0x3005)).1 =
    u.fieldList (s.admitCmd (cmdOfIn c 0x3005)).1 (regionScope (c.tenant.toNat % 64)) := by
  have ht : (s.admitCmd (cmdOfIn c 0x3005)).1.ten = c.tenant.toNat % 64 :=
    congrArg (· % 64) (s.admitCmd_fields (cmdOfIn c 0x3005)).2.1
  unfold State.opCatRegion regionScope
  rw [ht]

/-- Settles O55. That a list which would assert PSU_EN below allowance 6 is refused as a whole is log entry 150. -/
theorem fieldListCommandsApplyTheirPairs : Obligations.FieldListCommandsApplyTheirPairs := by
  unfold Obligations.FieldListCommandsApplyTheirPairs
  intro c s hr ho
  have hgo (op : Nat) (f : State → Cmd → Ans) (hf : Runs op f) (hadm : s.admits c op) (scope : Nat → Nat → Bool)
      (hlist : f (s.admitCmd (cmdOfIn c op)).2 (s.admitCmd (cmdOfIn c op)).1 =
        (s.admitCmd (cmdOfIn c op)).2.fieldList (s.admitCmd (cmdOfIn c op)).1 scope) :=
    fieldListCommand (scope := scope) (o := .next (s.issue op c)) fun st bs es t h =>
      congrArg Host.Outcome.next (State.issue_done hf hr ho hadm (hlist.trans h))
  simp only [List.forall_mem_cons, List.not_mem_nil, false_imp_iff, implies_true, and_true]
  refine ⟨fun hn hl _ => ?_, fun hn hl _ => ?_, fun hn hl hlock => ?_, fun hn hl _ => ?_, fun hn hl _ => ?_, fun hn hl _ => ?_,
    fun hn hl _ => ?_, fun hn hl _ => ?_⟩
  · exact hgo 0x0002 State.opCfgSet (fun _ _ => rfl) ⟨hn, hl⟩ _ rfl
  · exact hgo 0x1004 State.opPowerSet (fun _ _ => rfl) ⟨hn, hl⟩ _ rfl
  · exact hgo 0x2001 State.opBaySet (fun _ _ => rfl) ⟨hn, hl⟩ _ (State.opBaySet_unlocked (hlock trivial))
  · exact hgo 0x3005 State.opCatRegion (fun _ _ => rfl) ⟨hn, hl⟩ _ (opCatRegion_admitted s _ c)
  · exact hgo 0x5003 State.opArbSet (fun _ _ => rfl) ⟨hn, hl⟩ _ rfl
  · exact hgo 0x6001 State.opHarvSet (fun _ _ => rfl) ⟨hn, hl⟩ _ rfl
  · exact hgo 0x7002 State.opAlarmSet (fun _ _ => rfl) ⟨hn, hl⟩ _ rfl
  · exact hgo 0x8000 State.opAdcSet (fun _ _ => rfl) ⟨hn, hl⟩ _ rfl

/-! ### Parameters -/

/-- A parameter in its range stands. -/
theorem State.param_within (s : State) (c : Cmd) (pos : Nat) {lo hi v : Nat} (hlo : lo ≤ v) (hhi : v ≤ hi) :
    s.param c pos lo hi v = (v, [], s) :=
  (if_neg (Nat.not_lt.mpr hlo)).trans (if_neg (Nat.not_lt.mpr hhi))

theorem Cmd.room_cases (c : Cmd) : c.room = 144 ∨ c.room = 512 := by
  unfold Cmd.room
  split <;> simp

theorem State.sizeParam_within (s : State) (c : Cmd) (pos : Nat) {lo hi unit v : Nat} (hlo : lo ≤ v) (hhi : v ≤ min hi (c.room / unit)) :
    s.sizeParam c pos lo hi unit v = (v, [], s) :=
  s.param_within c pos hlo hhi

/-! ### Commands of classes 0x0 to 0x2 -/

section
variable {u : State} {k : Cmd}

theorem State.opCfgGet_one (hl : k.params.length = 2) (hb : u.blockOn (k.par 0 2 / 1024) = true) : u.opCfgGet k =
    (.done 0 (leBytes (u.readField (k.par 0 2)).1 4) [], (u.readField (k.par 0 2)).2) := by
  have hroom : 1 ≤ min 128 (k.room / 4) := by rcases k.room_cases with h | h <;> rw [h] <;> decide
  unfold State.opCfgGet
  rw [show k.params.length / 2 = 1 by omega, u.param_within k 1 (Nat.le_refl 1) hroom]
  simp only [List.range_one, List.map_cons, List.map_nil, Nat.mul_zero, List.any_cons, List.any_nil, hb]
  exact if_neg (by simp)

theorem State.opRegRead_one (hn : k.par 4 2 = 1) (hon : u.addrOn (k.par 0 4 / 4 * 4) = true) : u.opRegRead k =
    (.done 0 (leBytes (u.busRead 0 (k.par 0 4 / 4 * 4)).1 4) [], (u.busRead 0 (k.par 0 4 / 4 * 4)).2) := by
  have hroom : 1 ≤ min 128 (k.room / 4) := by rcases k.room_cases with h | h <;> rw [h] <;> decide
  have hblock : (blockOf (k.par 0 4 / 4 * 4)).isNone = false := by
    unfold State.addrOn at hon
    cases hb : blockOf (k.par 0 4 / 4 * 4) with
    | none => rw [hb] at hon; cases hon
    | some b => rfl
  unfold State.opRegRead
  rw [hn, u.param_within k 1 (Nat.le_refl 1) hroom]
  simp only [List.range_one, List.map_cons, List.map_nil, Nat.mul_zero, Nat.add_zero, List.any_cons, List.any_nil, hon, hblock]
  rw [if_neg (by simp), if_neg (by decide)]
  rfl

theorem State.opReefReq_low (hv : k.par 0 1 < 2) : u.opReefReq k =
    (.done 0 (leBytes ((u.writeField 5 (k.par 0 1)).2.reg kRefuse) 1) (u.writeField 5 (k.par 0 1)).1, (u.writeField 5 (k.par 0 1)).2) := by
  have hv' : ¬(2 ≤ k.par 0 1 ∧ k.par 0 1 ≤ 4) := by omega
  unfold State.opReefReq
  simp only [hv']
  rfl

theorem State.opReefReq_deep (h2 : 2 ≤ k.par 0 1) (h4 : k.par 0 1 ≤ 4) (hw : u.cat.wb = []) (hm : u.cat.mapDue = []) :
    u.opReefReq k = (.done 0 (leBytes (((u.writeSnapshot (k.par 0 1)).writeField 5 (k.par 0 1)).2.reg kRefuse) 1)
      ((u.writeSnapshot (k.par 0 1)).writeField 5 (k.par 0 1)).1, ((u.writeSnapshot (k.par 0 1)).writeField 5 (k.par 0 1)).2) := by
  have hv : 2 ≤ k.par 0 1 ∧ k.par 0 1 ≤ 4 := ⟨h2, h4⟩
  unfold State.opReefReq
  simp only [hv, hw, hm]
  rfl

theorem State.opBayStat_answering (hf : k.par 0 1 ≤ 127) (hn : 1 ≤ k.par 1 1) (hsum : k.par 0 1 + k.par 1 1 ≤ 128) (h64 : k.par 1 1 ≤ 64)
    (hroom : 8 * k.par 1 1 ≤ k.room) (hans : ∀ i, i < k.par 1 1 → u.bayAnswers (k.par 0 1 + i) = true) : u.opBayStat k =
      (.done 0 (((List.range (k.par 1 1)).map (· + k.par 0 1)).flatMap u.bayBytes) [], u) := by
  have hhi : k.par 1 1 ≤ min (128 - k.par 0 1) (min 64 (k.room / 8)) := by omega
  unfold State.opBayStat
  simp only [u.param_within k 0 (Nat.zero_le _) hf, u.param_within k 1 hn hhi]
  rw [if_neg ?_]
  · rfl
  · simp only [List.any_eq_true, List.mem_map, List.mem_range, Bool.not_eq_true', not_exists, not_and]
    rintro x ⟨i, hi, rfl⟩ hoff
    rw [Nat.add_comm, hans i hi] at hoff
    cases hoff

/-- A gang whose channels are LOCKED is in the mask. -/
def State.gangsLocked (s : State) (m : Nat) : Bool := (gangsOf m).any (fun g => (s.gangChannels g).any s.bayLocked)

theorem State.opGangStart_on (hon : u.regOn 0x40028040 = true) : u.opGangStart k =
    if u.gangsLocked (k.par 0 1) then u.no stBayLocked
    else (.long (.gangs (k.par 0 1)) [], u.regCommand 0x40028040 (k.par 0 1)) :=
  if_neg (by rw [hon]; decide)

theorem State.opGangStop_on (hon : u.regOn 0x40028040 = true) : u.opGangStop k =
    if u.gangsLocked (k.par 0 1) then u.no stBayLocked else (u.regCommand 0x40028040 (k.par 0 1 * 256)).ok [] :=
  if_neg (by rw [hon]; decide)

theorem State.opBayRestart_answering (hn : k.par 0 1 ≤ 127) (hans : u.bayAnswers (k.par 0 1) = true) : u.opBayRestart k =
    (.done 0 [] [], u.regCommand (0x40020008 + 0x100 * k.par 0 1) 4) := by
  unfold State.opBayRestart
  simp only [u.param_within k 0 (Nat.zero_le _) hn, hans]
  rfl

theorem State.opSerSend_locked (hn : k.par 0 1 ≤ 127) (hans : u.bayAnswers (k.par 0 1) = true) (hl : u.bayLocked (k.par 0 1) = true) :
    u.opSerSend k = (.done 0x0700 [] [], u) := by
  unfold State.opSerSend
  simp only [u.param_within k 0 (Nat.zero_le _) hn, hans, hl]
  rfl

/-- One character to send: it is queued where the FIFO has room. -/
theorem State.opSerSend_one (hn : k.par 0 1 ≤ 127) (hans : u.bayAnswers (k.par 0 1) = true) (hl : u.bayLocked (k.par 0 1) = false)
    {b : Byte} (hb : k.params.drop 1 = [b]) : u.opSerSend k =
      if (u.port (k.par 0 1)).tx.length < 16 then
        (.done 0 (leBytes 1 2) [], u.regCommand (0x40030014 + 0x100 * k.par 0 1) b.toNat)
      else (.done 0 (leBytes 0 2) [], u) := by
  unfold State.opSerSend
  simp only [u.param_within k 0 (Nat.zero_le _) hn, hans, hl, hb, List.foldl_cons, List.foldl_nil]
  rw [if_neg (by decide), if_neg (by decide)]
  split <;> rfl

theorem State.opSerRecv_locked (hn : k.par 0 1 ≤ 127) (hm : 1 ≤ k.par 2 2) (hroom : k.par 2 2 ≤ k.room)
    (hans : u.bayAnswers (k.par 0 1) = true) (hl : u.bayLocked (k.par 0 1) = true) : u.opSerRecv k = (.done 0x0700 [] [], u) := by
  have hhi : k.par 2 2 ≤ min 512 (k.room / 1) := by rcases k.room_cases with h | h <;> omega
  unfold State.opSerRecv
  simp only [u.param_within k 0 (Nat.zero_le _) hn, u.sizeParam_within k 2 hm hhi, hans, hl]
  rfl

/-- A port without a ring: the bytes come from the RX FIFO. -/
theorem State.opSerRecv_fifo (hn : k.par 0 1 ≤ 127) (hm : 1 ≤ k.par 2 2) (hroom : k.par 2 2 ≤ k.room)
    (hans : u.bayAnswers (k.par 0 1) = true) (hl : u.bayLocked (k.par 0 1) = false) (hring : u.reg (kBayu (k.par 0 1) 4 0) = 0) :
    u.opSerRecv k = (.done 0 (u.takeRx (k.par 0 1) (k.par 2 2)).1 [], (u.takeRx (k.par 0 1) (k.par 2 2)).2) := by
  have hhi : k.par 2 2 ≤ min 512 (k.room / 1) := by rcases k.room_cases with h | h <;> omega
  unfold State.opSerRecv
  simp only [u.param_within k 0 (Nat.zero_le _) hn, u.sizeParam_within k 2 hm hhi, hans, hl, hring, if_true, List.range_zero,
    List.foldl_nil, Nat.sub_zero, List.nil_append]
  rfl

end

/-- Settles O56. That REEF_REQ waits for an empty write buffer and writes the snapshot in its step is log entries 110 and 60; that
REG_READ rounds its address down is entry 103. -/
theorem generalPowerAndBayCommands : Obligations.GeneralPowerAndBayCommands := by
  unfold Obligations.GeneralPowerAndBayCommands
  intro c s hr ho k u p ready ends waits
  have hends (op : Nat) (f : State → Cmd → Ans) (hf : Runs op f) (st : Nat) (bs : List Byte) (es : List Nat) (t : State)
      (h : f (u op) (k op) = (.done st bs es, t)) : ends (.next (s.issue op c)) op st bs es t :=
    fun hadm => congrArg Host.Outcome.next (State.issue_done hf hr ho hadm h)
  have hwaits (op : Nat) (f : State → Cmd → Ans) (hf : Runs op f) (w : CmdWait) (t : State)
      (h : f (u op) (k op) = (.long w [], t)) : waits (.next (s.issue op c)) op w t :=
    fun hadm => congrArg Host.Outcome.next (State.issue_waits hf hr ho hadm h)
  refine ⟨?_, ?_, ?_, ?_, ?_, ?_, ?_, ?_, ?_, ?_, ?_, ?_, ?_, ?_, ?_, ?_, ?_, ?_, ?_, ?_⟩
  · exact hends 0x0000 State.opNop (fun _ _ => rfl) _ _ _ _ rfl
  · exact hends 0x0001 State.opIdent (fun _ _ => rfl) _ _ _ _ rfl
  · intro hl hb
    have hlen : (k 3).params.length = 2 := (congrArg List.length (s.admitCmd_fields (cmdOfIn c 3)).2.2.1).trans hl
    exact hends 0x0003 State.opCfgGet (fun _ _ => rfl) _ _ _ _ (State.opCfgGet_one hlen hb)
  · exact fun hn hon => hends 0x0004 State.opRegRead (fun _ _ => rfl) _ _ _ _ (State.opRegRead_one hn hon)
  · exact hends 0x0005 State.opRptRead (fun _ _ => rfl) _ _ _ _ rfl
  · exact hends 0x0006 State.opRptClear (fun _ _ => rfl) _ _ _ _ rfl
  · exact ⟨_, hends 0x0007 State.opWarmReset (fun _ _ => rfl) _ _ _ _ rfl⟩
  · exact hends 0x1000 State.opPowerStat (fun _ _ => rfl) _ _ _ _ rfl
  · exact fun hv => hends 0x1001 State.opReefReq (fun _ _ => rfl) _ _ _ _ (State.opReefReq_low hv)
  · exact fun h2 h4 hw hm => hends 0x1001 State.opReefReq (fun _ _ => rfl) _ _ _ _ (State.opReefReq_deep h2 h4 hw hm)
  · exact fun h => hwaits 0x1002 State.opShelfWake (fun _ _ => rfl) _ _ (if_neg (by simpa using h))
  · exact fun h => hends 0x1002 State.opShelfWake (fun _ _ => rfl) _ _ _ _ (if_pos (by simpa using h))
  · exact fun h => hwaits 0x1003 State.opShelfSleep (fun _ _ => rfl) _ _ (if_neg (by simpa using h))
  · exact fun h => hends 0x1003 State.opShelfSleep (fun _ _ => rfl) _ _ _ _ (if_pos (by simpa using h))
  · exact fun hf hn hsum h64 hroom hans => hends 0x2000 State.opBayStat (fun _ _ => rfl) _ _ _ _
      (State.opBayStat_answering hf hn hsum h64 hroom hans)
  · exact fun hon => ⟨fun hl => hends 0x2002 State.opGangStart (fun _ _ => rfl) _ _ _ _ ((State.opGangStart_on hon).trans (if_pos hl)),
      fun hl => hwaits 0x2002 State.opGangStart (fun _ _ => rfl) _ _ ((State.opGangStart_on hon).trans (if_neg (ne_true_of_eq_false hl)))⟩
  · exact fun hon => ⟨fun hl => hends 0x2003 State.opGangStop (fun _ _ => rfl) _ _ _ _ ((State.opGangStop_on hon).trans (if_pos hl)),
      fun hl => hends 0x2003 State.opGangStop (fun _ _ => rfl) _ _ _ _ ((State.opGangStop_on hon).trans (if_neg (ne_true_of_eq_false hl)))⟩
  · exact fun hn hans => hends 0x2004 State.opBayRestart (fun _ _ => rfl) _ _ _ _ (State.opBayRestart_answering hn hans)
  · exact fun hn hans => ⟨fun hl => hends 0x2005 State.opSerSend (fun _ _ => rfl) _ _ _ _ (State.opSerSend_locked hn hans hl),
      fun b hl hb hroom => hends 0x2005 State.opSerSend (fun _ _ => rfl) _ _ _ _ ((State.opSerSend_one hn hans hl hb).trans (if_pos hroom)),
      fun b hl hb hfull => hends 0x2005 State.opSerSend (fun _ _ => rfl) _ _ _ _
        ((State.opSerSend_one hn hans hl hb).trans (if_neg (Nat.not_lt.mpr hfull)))⟩
  · exact fun hn hm hroom hans => ⟨fun hl => hends 0x2006 State.opSerRecv (fun _ _ => rfl) _ _ _ _
        (State.opSerRecv_locked hn hm hroom hans hl),
      fun hl hring => hends 0x2006 State.opSerRecv (fun _ _ => rfl) _ _ _ _ (State.opSerRecv_fifo hn hm hroom hans hl hring)⟩

end Sys2Proof.Machine
end

section
/-! PROOFS. O57: the commands of classes 0x3 to 0x7. -/
namespace Sys2Proof.Machine
open Sys2Proof

/-- A size that the reply takes and that is a multiple of its unit stands. -/
theorem State.multParam_within (s : State) (c : Cmd) (pos : Nat) {m hi v : Nat} (hlo : m ≤ v) (hhi : v ≤ min hi (c.room / m * m))
    (hv : v % m = 0) : s.multParam c pos m hi v = (v, [], s) := by
  unfold State.multParam
  rw [if_neg (Nat.not_lt.mpr hlo), if_pos (by simp [hv]), s.param_within c pos hlo hhi]

section
variable {u : State} {k : Cmd}

/-! ### The catalog -/

/-- A lookup whose buckets were read follows the lookup rule. -/
theorem State.opCatLookup_read {t : State} {offs : List Nat} {es : List (Nat × Bool)}
    (h : u.readBuckets k.ten (k.par 0 6) = (.entries offs es, t)) :
    (∀ e, lookRule (k.par 0 6) es = .hit e → u.opCatLookup k = (.done 0 (leBytes e 16) [], t)) ∧
    (lookRule (k.par 0 6) es = .miss → u.opCatLookup k = (.done 0x0302 [] [], t)) ∧
    (lookRule (k.par 0 6) es = .poisoned → u.opCatLookup k = (.done 0x0300 [] [], t)) ∧
    (∀ e, lookRule (k.par 0 6) es = .deferred (some e) → u.opCatLookup k = (.done 0x0301 (leBytes e 16) [], t)) := by
  refine ⟨fun e hl => ?_, fun hl => ?_, fun hl => ?_, fun e hl => ?_⟩
  all_goals simp only [State.opCatLookup, h, hl]; rfl

theorem State.opCatPut_held {t : State} {offs : List Nat} {es : List (Nat × Bool)} {i : Nat}
    (h : u.readBuckets k.ten (bits (ofLe (k.params.take 16)) 0 48) = (.entries offs es, t))
    (hi : holderOf (bits (ofLe (k.params.take 16)) 0 48) es = some i) :
    u.opCatPut k = (t.catTag k).catPost (entryWrite offs es i (ofLe (k.params.take 16))) := by
  simp only [State.opCatPut, h, hi]

theorem State.opCatDelete_held {t : State} {offs : List Nat} {es : List (Nat × Bool)} {i : Nat}
    (h : u.readBuckets k.ten (k.par 0 6) = (.entries offs es, t)) (hi : holderOf (k.par 0 6) es = some i) :
    u.opCatDelete k = (t.catTag k).catPost [(offs.getD i 0, leBytes (setBits (es.getD i (0, false)).1 55 4 4) 8)] := by
  simp only [State.opCatDelete, h, hi]

theorem State.opCatDelete_absent {t : State} {offs : List Nat} {es : List (Nat × Bool)}
    (h : u.readBuckets k.ten (k.par 0 6) = (.entries offs es, t)) (hi : holderOf (k.par 0 6) es = none)
    (ho : t.overflowOf k.ten (k.par 0 6) = none) : u.opCatDelete k = (.done 0x0302 [] [], t) := by
  simp only [State.opCatDelete, h, hi, ho]
  rfl

theorem State.multParam_word (hn : k.par 4 2 = 8) : u.multParam k 1 8 512 (k.par 4 2) = (8, [], u) := by
  have hroom : 8 ≤ min 512 (k.room / 8 * 8) := by rcases k.room_cases with h | h <;> rw [h] <;> decide
  rw [hn]
  exact u.multParam_within k 1 (Nat.le_refl 8) hroom rfl

theorem State.opCatRead_barred (hn : k.par 4 2 = 8) (hb : u.catRegionOk k.ten (k.par 0 4) 8 = false) :
    u.opCatRead k = (.done 0x0103 [] [], u) := by
  unfold State.opCatRead
  simp only [State.multParam_word hn, hb]
  rfl

/-- One aligned word of the catalog. -/
theorem State.opCatRead_word (hn : k.par 4 2 = 8) (hal : k.par 0 4 % 8 = 0) (hok : u.catRegionOk k.ten (k.par 0 4) 8 = true)
    {w : List Byte} {t : State} (hw : w.length = 8) (hread : u.catRead (u.coreReq 0) (k.par 0 4) = (.data w, t)) :
    u.opCatRead k = (.done 0 w [], t) := by
  have hbase : k.par 0 4 / 8 * 8 = k.par 0 4 := by omega
  have hone : (k.par 0 4 + 8 + 7) / 8 - k.par 0 4 / 8 = 1 := by omega
  have hwords : u.catWords [k.par 0 4] = (.data (w ++ []), t) := by
    simp only [State.catWords, hread]
  have htake : (List.drop (k.par 0 4 - k.par 0 4) (w ++ [])).take 8 = w := by
    rw [Nat.sub_self, List.append_nil, List.drop_zero, List.take_of_length_le (Nat.le_of_eq hw)]
  unfold State.opCatRead
  simp only [State.multParam_word hn, hok, hbase, hone, List.range_one, List.map_cons, List.map_nil, Nat.mul_zero, Nat.add_zero, hwords,
    htake]
  rfl

theorem State.opCatWrite_eq : u.opCatWrite k =
    if u.catRegionOk k.ten (k.par 0 4) (k.params.drop 4).length then
      (u.catTag k).catPost (catPieces 66 (k.par 0 4) (k.params.drop 4))
    else (.done 0x0103 [] [], u) := by
  unfold State.opCatWrite
  dsimp only
  cases u.catRegionOk k.ten (k.par 0 4) (k.params.drop 4).length <;> rfl

theorem State.catPost_accepted {v t : State} {o : Nat} {bs : List Byte} (rest : List (Nat × List Byte))
    (h : v.wbAccept .cc o bs (v.ccTag o) = (.accepted, t)) : v.catPost ((o, bs) :: rest) = t.catPost rest := by
  simp only [State.catPost, h]

theorem State.catPost_full {v t : State} {o : Nat} {bs : List Byte} (rest : List (Nat × List Byte))
    (h : v.wbAccept .cc o bs (v.ccTag o) = (.full, t)) : v.catPost ((o, bs) :: rest) = (.long (.catalog ((o, bs) :: rest)) [], t) := by
  simp only [State.catPost, h]

/-! ### Tenants -/

theorem State.opTenStat_eq : u.opTenStat k = (.done 0 (leBytes (u.wordView (0x40015200 + 4 * k.ten)) 4) [], u) := by
  unfold State.opTenStat u32s
  rw [List.flatMap_singleton]
  rfl

/-- A descriptor within the table: it is written where nothing bars it. -/
theorem State.opTenSeg_reached (hn : k.par 0 1 ≤ 7) (hs : u.sparOk (u.descAddr k.ten (k.par 0 1)) = true) : u.opTenSeg k =
    if u.segRefused k.ten (k.par 0 1) (segOf ((k.params.drop 4).take 16)) then (.done 0x0103 [] [], u)
    else (.done 0 [] [], u.ncWriteN (u.descAddr k.ten (k.par 0 1)) ((k.params.drop 4).take 16)) := by
  unfold State.opTenSeg
  simp only [u.param_within k 0 (Nat.zero_le _) hn, hs]
  rfl

theorem State.opTenReset_idle (h : u.ten.reset = none) : u.opTenReset k =
    (.long (.tenReset k.ten) [], u.settle (u.resetStart k.ten 1)) := by
  simp only [State.opTenReset, State.tenGo, h]
  rfl

theorem State.opTenReset_busy (h : u.ten.reset.isSome = true) : u.opTenReset k =
    (.done 0x0104 [] [], u.setFlag (fk 0x40015304 16) true) := by
  simp only [State.opTenReset, State.tenGo, h]
  rfl

/-- A load within s0. -/
theorem State.opTenLoad_within (ht : (u.descOf k.ten 0).typ ≠ 0)
    (hl : k.par 0 4 + (k.params.drop 4).length ≤ (u.descOf k.ten 0).limit + 1) : u.opTenLoad k =
      if u.tenState k.ten != 0 then (.done 0x0104 [] [], u)
      else if !(u.regionOn (regionOf ((u.descOf k.ten 0).base + k.par 0 4)) &&
          u.regionOn (regionOf ((u.descOf k.ten 0).base + k.par 0 4 + (k.params.drop 4).length - 1))) then u.no stNotReady
      else (.done 0 [] [], u.ncWriteN ((u.descOf k.ten 0).base + k.par 0 4) (k.params.drop 4)) := by
  refine if_neg ?_
  simp only [Bool.or_eq_true, decide_eq_true_eq]
  omega

theorem State.opSlotStat_one (hf : k.par 0 1 ≤ 63) (hn : k.par 1 1 = 1) : u.opSlotStat k =
    (.done 0 (u32s [u.wordView (0x40004108 + 0x10 * k.par 0 1), u.wordView (0x4000410C + 0x10 * k.par 0 1)]) [], u) := by
  have hroom : 1 ≤ min (64 - k.par 0 1) (min 64 (k.room / 8)) := by rcases k.room_cases with h | h <;> omega
  unfold State.opSlotStat
  simp only [u.param_within k 0 (Nat.zero_le _) hf, hn, u.param_within k 1 (Nat.le_refl 1) hroom, List.range_one, List.map_cons,
    List.map_nil, Nat.zero_add, List.flatMap_singleton]
  rfl

/-! ### Cleats -/

theorem State.opCleatRead_barred {t : Nat} (h48 : u.isUp 48 = true) (hm : mailboxOf k.src = some t)
    (hr : u.rights (k.par 0 1 / 16) t = false) : u.opCleatRead k = (.done 0x0103 [] [], u) := by
  have hbar : (mailboxOf k.src).elim false (fun t => !u.rights (k.par 0 1 / 16) t) = true := by rw [hm]; simp [hr]
  unfold State.opCleatRead
  simp only [h48, hbar]
  rfl

theorem State.opCleatRead_permitted (h48 : u.isUp 48 = true)
    (hr : ∀ t, mailboxOf k.src = some t → u.rights (k.par 0 1 / 16) t = true) : u.opCleatRead k =
      (.done 0 (u32s [(u.cleat (k.par 0 1)).value, (u.cleat (k.par 0 1)).lease, u.cleatInfo (k.par 0 1)]) [], u) := by
  have hbar : (mailboxOf k.src).elim false (fun t => !u.rights (k.par 0 1 / 16) t) = false := by
    cases hm : mailboxOf k.src with
    | none => rfl
    | some t => simp [hr t hm]
  unfold State.opCleatRead
  simp only [h48, hbar]
  rfl

theorem State.opCleatWrite_on (h48 : u.isUp 48 = true) : u.opCleatWrite k =
    (.done 0 [] [], (u.cleatStore (k.par 0 1) 0 64 (k.par 4 4) false).2) :=
  if_neg (by rw [h48]; decide)

theorem State.opCleatAcquire_held (h48 : u.isUp 48 = true) (hf : freeValue (u.cleat (k.par 0 1)).value = false) :
    u.opCleatAcquire k = (.long (.cleat (k.par 0 1) 1 (u.reg kCycles) 0) [], u) := by
  simp only [State.opCleatAcquire, h48, State.cleatTry_held hf]
  rfl

theorem State.opCleatAcquire_free (h48 : u.isUp 48 = true) (h0 : (u.cleat (k.par 0 1)).value = 0) : u.opCleatAcquire k =
    (.done 0 (leBytes 0 4) [], (u.cleatSwap (k.par 0 1) 0 64 0 (u.token 64) false).2) := by
  have hfree : freeValue (u.cleat (k.par 0 1)).value = true := by rw [h0]; decide
  have hswap := State.cleatSwap_cc hfree
  simp only [State.opCleatAcquire, h48, State.cleatTry_free hfree]
  rw [h0] at hswap ⊢
  rw [hswap]
  rfl

end

/-- Settles O57. -/
theorem catalogTenantAndTimeCommands : Obligations.CatalogTenantAndTimeCommands := by
  unfold Obligations.CatalogTenantAndTimeCommands
  intro c s hr ho k u p ready ends waits goes
  have hends (op : Nat) (f : State → Cmd → Ans) (hf : Runs op f) (st : Nat) (bs : List Byte) (es : List Nat) (t : State)
      (h : f (u op) (k op) = (.done st bs es, t)) : ends (.next (s.issue op c)) op st bs es t :=
    fun hadm => congrArg Host.Outcome.next (State.issue_done hf hr ho hadm h)
  have hwaits (op : Nat) (f : State → Cmd → Ans) (hf : Runs op f) (w : CmdWait) (t : State)
      (h : f (u op) (k op) = (.long w [], t)) : waits (.next (s.issue op c)) op w t :=
    fun hadm => congrArg Host.Outcome.next (State.issue_waits hf hr ho hadm h)
  have hgoes (op : Nat) (f : State → Cmd → Ans) (hf : Runs op f) (a : Ans) (h : f (u op) (k op) = a) :
      goes (.next (s.issue op c)) op a :=
    fun hadm => ⟨fun st bs es t ha => congrArg Host.Outcome.next (State.issue_done hf hr ho hadm (h.trans ha)),
      fun w es t ha => congrArg Host.Outcome.next (State.issue_long hf hr ho hadm (h.trans ha))⟩
  have hsrc : (k 0x5000).src = c.src := (s.admitCmd_fields (cmdOfIn c 0x5000)).2.2.2
  refine ⟨?_, ?_, ?_, ?_, ?_, ?_, ?_, ?_, ?_, ?_, ?_, ?_, ?_, ?_, ?_, ?_, ?_, ?_, ?_, ?_, ?_⟩
  · intro offs es t h
    obtain ⟨hhit, hmiss, hpois, hdef⟩ := State.opCatLookup_read h
    exact ⟨fun e hl => hends 0x3000 State.opCatLookup (fun _ _ => rfl) _ _ _ _ (hhit e hl),
      fun hl => hends 0x3000 State.opCatLookup (fun _ _ => rfl) _ _ _ _ (hmiss hl),
      fun hl => hends 0x3000 State.opCatLookup (fun _ _ => rfl) _ _ _ _ (hpois hl),
      fun e hl => hends 0x3000 State.opCatLookup (fun _ _ => rfl) _ _ _ _ (hdef e hl)⟩
  · exact fun offs es t i h hi => hgoes 0x3001 State.opCatPut (fun _ _ => rfl) _ (State.opCatPut_held h hi)
  · exact fun offs es t h => ⟨fun i hi => hgoes 0x3002 State.opCatDelete (fun _ _ => rfl) _ (State.opCatDelete_held h hi),
      fun hi hov => hends 0x3002 State.opCatDelete (fun _ _ => rfl) _ _ _ _ (State.opCatDelete_absent h hi hov)⟩
  · exact fun hn hal hok w t hw hread => hends 0x3003 State.opCatRead (fun _ _ => rfl) _ _ _ _ (State.opCatRead_word hn hal hok hw hread)
  · exact fun hn hb => hends 0x3003 State.opCatRead (fun _ _ => rfl) _ _ _ _ (State.opCatRead_barred hn hb)
  · exact ⟨fun hb => hends 0x3004 State.opCatWrite (fun _ _ => rfl) _ _ _ _ (State.opCatWrite_eq.trans (if_neg (ne_true_of_eq_false hb))),
      fun hok => hgoes 0x3004 State.opCatWrite (fun _ _ => rfl) _ (State.opCatWrite_eq.trans (if_pos hok))⟩
  · exact fun v o bs rest a t h => ⟨fun ha => State.catPost_accepted rest (ha ▸ h), fun ha => State.catPost_full rest (ha ▸ h)⟩
  · exact hends 0x4000 State.opTenStat (fun _ _ => rfl) _ _ _ _ State.opTenStat_eq
  · exact fun hn hs => ⟨fun hb => hends 0x4001 State.opTenSeg (fun _ _ => rfl) _ _ _ _ ((State.opTenSeg_reached hn hs).trans (if_pos hb)),
      fun hb => hends 0x4001 State.opTenSeg (fun _ _ => rfl) _ _ _ _
        ((State.opTenSeg_reached hn hs).trans (if_neg (ne_true_of_eq_false hb)))⟩
  · exact hends 0x4002 State.opTenActivate (fun _ _ => rfl) _ _ _ _ rfl
  · exact fun h => hwaits 0x4003 State.opTenReset (fun _ _ => rfl) _ _ (State.opTenReset_idle h)
  · exact fun h => hends 0x4003 State.opTenReset (fun _ _ => rfl) _ _ _ _ (State.opTenReset_busy h)
  · intro g d a ht hl _
    have hload := State.opTenLoad_within (u := u 0x4004) (k := k 0x4004) ht hl
    have hup (h1 : (u 0x4004).regionOn (regionOf a) = true) (h2 : (u 0x4004).regionOn (regionOf (a + d.length - 1)) = true) :
        ¬(!((u 0x4004).regionOn (regionOf a) && (u 0x4004).regionOn (regionOf (a + d.length - 1)))) = true := by
      rw [h1, h2]; decide
    exact ⟨fun hst => hends 0x4004 State.opTenLoad (fun _ _ => rfl) _ _ _ _ (hload.trans (if_pos (bne_iff_ne.mpr hst))),
      fun hst h1 h2 => hends 0x4004 State.opTenLoad (fun _ _ => rfl) _ _ _ _
        (hload.trans ((if_neg (by simpa using hst)).trans (if_neg (hup h1 h2))))⟩
  · exact fun hf hn => hends 0x4005 State.opSlotStat (fun _ _ => rfl) _ _ _ _ (State.opSlotStat_one hf hn)
  · exact fun t h48 hm hb => hends 0x5000 State.opCleatRead (fun _ _ => rfl) _ _ _ _ (State.opCleatRead_barred h48 (hsrc ▸ hm) hb)
  · exact fun h48 hall => hends 0x5000 State.opCleatRead (fun _ _ => rfl) _ _ _ _
      (State.opCleatRead_permitted h48 (fun t hm => hall t (hsrc ▸ hm)))
  · exact fun h48 => hends 0x5001 State.opCleatWrite (fun _ _ => rfl) _ _ _ _ (State.opCleatWrite_on h48)
  · exact fun h48 => ⟨fun hf => hwaits 0x5002 State.opCleatAcquire (fun _ _ => rfl) _ _ (State.opCleatAcquire_held h48 hf),
      fun h0 => hends 0x5002 State.opCleatAcquire (fun _ _ => rfl) _ _ _ _ (State.opCleatAcquire_free h48 h0)⟩
  · exact hends 0x6000 State.opGaugeRead (fun _ _ => rfl) _ _ _ _ rfl
  · exact hends 0x7000 State.opTimeGet (fun _ _ => rfl) _ _ _ _ rfl
  · exact hends 0x7001 State.opTimeSet (fun _ _ => rfl) _ _ _ _ rfl

end Sys2Proof.Machine
end

section
/-! PROOFS. O58: the commands of classes 0x8 to 0xE. -/
namespace Sys2Proof.Machine
open Sys2Proof

/-- A command marked L whose hardware is busy has started and tries again. -/
theorem State.issue_retries {s : State} {c : CmdIn} {op : Nat} {f : State → Cmd → Ans} (hf : Runs op f) (hr : s.cynRuns = true)
    (ho : s.cynOccupied = false) (h : s.admits c op) {t : State} (hlong : ∀ k : Cmd, ({ k with op := op } : Cmd).isLong = true)
    (ha : f (s.admitCmd (cmdOfIn c op)).2 (s.admitCmd (cmdOfIn c op)).1 = (.wait, t)) :
    s.issue op c = (s.admitCmd (cmdOfIn c op)).2.addLong (s.admitCmd (cmdOfIn c op)).1 .retry := by
  have hl : (s.admitCmd (cmdOfIn c op)).1.isLong = true := by
    have hwith : ({ (s.admitCmd (cmdOfIn c op)).1 with op := op } : Cmd) = (s.admitCmd (cmdOfIn c op)).1 :=
      Cmd.with_op (s.admitCmd_fields (cmdOfIn c op)).1
    exact hwith ▸ hlong (s.admitCmd (cmdOfIn c op)).1
  rw [State.issue_ready hr ho h, State.perform_wait ((hf.admitted s _ c).trans ha), if_pos hl] <;> rfl

section
variable {u : State} {k : Cmd}

/-! ### ADC and SFU -/

/-- One entry of a sequencer: word 1, then word 0. -/
theorem State.opAdcTable_one (hc : k.par 0 1 ≤ 3) (he : k.par 1 1 ≤ 63) (hn : k.par 2 1 = 1) (hon : u.regOn (seqAddr (k.par 0 1) 0) = true) :
    u.opAdcTable k = (.done 0 []
      (u.writeWords [(seqAddr (k.par 0 1) (k.par 1 1) + 4, k.par 8 4), (seqAddr (k.par 0 1) (k.par 1 1), k.par 4 4)]).1,
      (u.writeWords [(seqAddr (k.par 0 1) (k.par 1 1) + 4, k.par 8 4), (seqAddr (k.par 0 1) (k.par 1 1), k.par 4 4)]).2) := by
  have hroom : 1 ≤ 64 - k.par 1 1 := by omega
  unfold State.opAdcTable
  simp only [u.param_within k 0 (Nat.zero_le _) hc, u.param_within k 1 (Nat.zero_le _) he, hn, u.param_within k 2 (Nat.le_refl 1) hroom,
    hon, List.range_one, List.flatMap_singleton, Nat.mul_zero, Nat.add_zero, List.nil_append]
  rfl

/-- The words that an ADC ring holds beyond TAIL, and where the oldest lies. -/
def State.ringFill (s : State) (a : Nat) : Nat := (s.reg (fk (a + 0xC) 0) + 65536 - s.reg (fk (a + 8) 0)) % 65536
def State.ringOldest (s : State) (a : Nat) : Nat :=
  s.reg (fk a 6) * 64 + 4 * (s.reg (fk (a + 8) 0) % 2 ^ s.reg (fk (a + 4) 0))

/-- One word of a ring that holds one. -/
theorem State.opAdcRingRead_one (hq : k.par 0 1 ≤ 3) (hm : k.par 2 2 = 4) (hon : u.regOn (0x40010100 + 0x10 * k.par 0 1) = true)
    (hone : u.ringFill (0x40010100 + 0x10 * k.par 0 1) = 1) : u.opAdcRingRead k =
      (.done 0 (u.ncReadN (u.ringOldest (0x40010100 + 0x10 * k.par 0 1)) 4).1 [],
        ((u.ncReadN (u.ringOldest (0x40010100 + 0x10 * k.par 0 1)) 4).2.holdAdc
          (ofLe (u.ncReadN (u.ringOldest (0x40010100 + 0x10 * k.par 0 1)) 4).1)).regCommand (0x40010100 + 0x10 * k.par 0 1 + 8)
            ((u.reg (fk (0x40010100 + 0x10 * k.par 0 1 + 8) 0) + 1) % 65536)) := by
  have hroom : 4 ≤ min 512 (k.room / 4 * 4) := by rcases k.room_cases with h | h <;> rw [h] <;> decide
  unfold State.opAdcRingRead
  simp only [u.param_within k 0 (Nat.zero_le _) hq, hm, u.multParam_within k 2 (Nat.le_refl 4) hroom rfl]
  unfold State.ringFill at hone
  unfold State.ringOldest
  generalize 0x40010100 + 0x10 * k.par 0 1 = a at *
  have hn : min (4 / 4) (min (2 ^ u.reg (fk (a + 4) 0)) 1) = 1 := by
    rw [Nat.min_eq_right Nat.one_le_two_pow]
    rfl
  rw [hon, hone, hn]
  simp only [List.range_one, List.foldl_cons, List.foldl_nil, Nat.add_zero, List.nil_append]
  rfl

theorem State.opSfuTableLoad_one (h8 : 8 ≤ k.par 0 1) (h15 : k.par 0 1 ≤ 15) (hl : k.params.length = 8) (h46 : u.isUp 46 = true)
    (hw : tableWritable (tableBase (k.par 0 1) + k.par 2 2) = true)
    (hs : tableSlot (tableBase (k.par 0 1) + k.par 2 2) = k.par 0 1) : u.opSfuTableLoad k =
      if (u.tableWrite (tableBase (k.par 0 1) + k.par 2 2) (k.par 4 4)).tabWait.any (fun w => tableSlot w.1 == k.par 0 1) then
        (.long (.table (k.par 0 1)) [], u.tableWrite (tableBase (k.par 0 1) + k.par 2 2) (k.par 4 4))
      else (.done 0 [] [], u.tableWrite (tableBase (k.par 0 1) + k.par 2 2) (k.par 4 4)) := by
  unfold State.opSfuTableLoad
  simp only [u.param_within k 0 h8 h15, hl, h46, Nat.reduceSub, Nat.reduceDiv, List.range_one, List.map_cons, List.map_nil, Nat.mul_zero,
    Nat.add_zero, List.any_cons, List.any_nil, hw, hs, List.foldl_cons, List.foldl_nil]
  rw [if_neg (by decide), if_neg (by simp)]
  rfl

theorem State.opSfuTableLoad_free (h8 : 8 ≤ k.par 0 1) (h15 : k.par 0 1 ≤ 15) (hl : k.params.length = 8) (h46 : u.isUp 46 = true)
    (hw : tableWritable (tableBase (k.par 0 1) + k.par 2 2) = true) (hs : tableSlot (tableBase (k.par 0 1) + k.par 2 2) = k.par 0 1)
    (hfree : u.slotUsed (k.par 0 1) = false) (hno : ∀ w ∈ u.tabWait, tableSlot w.1 ≠ k.par 0 1) :
    u.opSfuTableLoad k = (.done 0 [] [], u.wrBytes (tableBase (k.par 0 1) + k.par 2 2) (leBytes (k.par 4 4) 4)) := by
  have hwrite : u.tableWrite (tableBase (k.par 0 1) + k.par 2 2) (k.par 4 4) =
      u.wrBytes (tableBase (k.par 0 1) + k.par 2 2) (leBytes (k.par 4 4) 4) := if_neg (by rw [hs, hfree]; decide)
  rw [State.opSfuTableLoad_one h8 h15 hl h46 hw hs, hwrite, if_neg]
  rw [u.wrBytes_eq]
  simpa using hno

theorem State.opSfuTableLoad_used (h8 : 8 ≤ k.par 0 1) (h15 : k.par 0 1 ≤ 15) (hl : k.params.length = 8) (h46 : u.isUp 46 = true)
    (hw : tableWritable (tableBase (k.par 0 1) + k.par 2 2) = true) (hs : tableSlot (tableBase (k.par 0 1) + k.par 2 2) = k.par 0 1)
    (hused : u.slotUsed (k.par 0 1) = true) : u.opSfuTableLoad k = (.long (.table (k.par 0 1)) [],
      { u with tabWait := u.tabWait ++ [(tableBase (k.par 0 1) + k.par 2 2, k.par 4 4)] }) := by
  have hwrite : u.tableWrite (tableBase (k.par 0 1) + k.par 2 2) (k.par 4 4) =
      { u with tabWait := u.tabWait ++ [(tableBase (k.par 0 1) + k.par 2 2, k.par 4 4)] } := if_pos (by rw [hs]; exact hused)
  rw [State.opSfuTableLoad_one h8 h15 hl h46 hw hs, hwrite, if_pos]
  simp [hs]

theorem State.opSfuTableCrc_on (hn : k.par 0 1 ≤ 15) (h46 : u.isUp 46 = true) : u.opSfuTableCrc k =
    (.done 0 (leBytes (if k.par 0 1 < 8 ∧ u.reg (fk 0x4000F000 0) = 1 then stdCrc (k.par 0 1)
      else crc32c (u.tableBytes (tableBase (k.par 0 1)) 3088).1) 4) [], (u.tableBytes (tableBase (k.par 0 1)) 3088).2) := by
  have hstd : ((decide (k.par 0 1 < 8) && u.flag kStdReady) = true) = (k.par 0 1 < 8 ∧ u.reg (fk 0x4000F000 0) = 1) := by
    simp only [Bool.and_eq_true, decide_eq_true_eq, State.flag, beq_iff_eq, kStdReady]
  unfold State.opSfuTableCrc
  simp only [u.param_within k 0 (Nat.zero_le _) hn, h46, hstd]
  rfl

theorem State.opSfuRun_on (h46 : u.isUp 46 = true) :
    let r := u.sfuOffer 0 (k.params.take 32) (u.core 0).mset 0 64 false
    u.opSfuRun k = if bit r.1 31 then (.long (.sfu (r.1 % 65536)) [], r.2)
      else if bit r.1 30 then (.done 0x0500 [] [], r.2) else (.wait, u) :=
  if_neg (by rw [h46]; decide)

/-! ### The firmware store -/

theorem State.opNorRead_idle (h1 : 1 ≤ k.par 4 2) (hroom : k.par 4 2 ≤ k.room) (h44 : u.isUp 44 = true) (hi : u.norOp.state = 0)
    (hend : k.par 0 4 + k.par 4 2 ≤ 0x800000) :
    u.opNorRead k = (.done 0 (u.rdBytes (0x01000000 + k.par 0 4) (k.par 4 2)) [], u) := by
  have hhi : k.par 4 2 ≤ min 512 (k.room / 1) := by rcases k.room_cases with h | h <;> omega
  have hbusy : u.norBusy = false := by simp [State.norBusy, hi]
  have hread (a n : Nat) : u.norRead a n = (u.rdBytes a n, u) := by
    have ht : u.norTouch = u := if_neg (by rw [hi]; decide)
    unfold State.norRead
    simp only [ht, hi]
    rfl
  have hfit : ¬norSize < k.par 0 4 + k.par 4 2 := Nat.not_lt.mpr hend
  unfold State.opNorRead
  simp only [u.sizeParam_within k 1 h1 hhi, h44, hbusy, hread, hfit]
  rfl

/-- The bytes that an erase takes. -/
def eraseSize (big : Nat) : Nat := if big = 0 then 4096 else 65536

theorem norForbidden_eq_false {a n : Nat} (hlo : 0x10000 ≤ a) (hhi : a + n ≤ 0x630000) : norForbidden a n = false :=
  decide_eq_false (by omega)

theorem State.opNorErase_idle (hb : k.par 4 1 ≤ 1) (h44 : u.isUp 44 = true) (hi : u.norOp.state = 0) : u.opNorErase k =
    if norForbidden (k.par 0 4 / eraseSize (k.par 4 1) * eraseSize (k.par 4 1)) (eraseSize (k.par 4 1)) then (.done 0x0103 [] [], u)
    else (.long (.nor false) [], u.norIssue (1 + k.par 4 1) (k.par 0 4) [] false) := by
  have hhand : u.norHand = false := by simp [State.norHand, hi]
  unfold State.opNorErase eraseSize
  simp only [u.param_within k 1 (Nat.zero_le _) hb, h44, hhand]
  rfl

theorem State.opNorProgram_idle (h44 : u.isUp 44 = true) (hi : u.norOp.state = 0) (hlo : 0x10000 ≤ k.par 0 4)
    (hhi : k.par 0 4 + (k.params.drop 6).length ≤ 0x630000) : u.opNorProgram k =
      (.long (.nor true) [], u.norIssue 3 (k.par 0 4) (k.params.drop 6) (bit (k.par 4 1) 0)) := by
  have hhand : u.norHand = false := by simp [State.norHand, hi]
  unfold State.opNorProgram
  simp only [h44, hhand, norForbidden_eq_false hlo hhi]
  rfl

theorem State.opImageActivate_idle (hb : k.par 0 1 ≤ 1) (h44 : u.isUp 44 = true) (hi : u.norOp.state = 0) : u.opImageActivate k =
    if u.imageOk (k.par 0 1) then (.long (.image (u.newRecord (k.par 0 1)).1 0 (u.newRecord (k.par 0 1)).2) [],
      u.norIssue 1 (0x1000 * (u.newRecord (k.par 0 1)).1) [] false)
    else (.done 0x0202 [] [], u) := by
  have hhand : u.norHand = false := by simp [State.norHand, hi]
  unfold State.opImageActivate
  simp only [u.param_within k 0 (Nat.zero_le _) hb, h44, hhand]
  cases u.imageOk (k.par 0 1) <;> rfl

/-! ### Security -/

/-- CRYPT accepts an operation of the control core. -/
def State.cryptOpen (s : State) : Prop := s.isUp 49 = true ∧ s.placeFree 18 1 = true ∧ s.arbFrozen 18 = false

theorem State.cryptFree_open (h : u.cryptOpen) (a : Ans) : u.cryptFree a = a := by
  obtain ⟨h49, hp, hf⟩ := h
  exact (if_neg (by rw [h49]; decide)).trans (if_neg (by rw [hp, hf]; decide))

theorem State.cryptDo_serv (s : State) (op slot : Nat) (bs : List Byte) : (s.cryptDo op slot bs).2.serv = s.serv := by
  have hirq (v : State) (n : Nat) : (v.irq n).serv = v.serv := by
    obtain ⟨r, e, h⟩ := v.irq_eq n
    rw [h]
  obtain ⟨-, f, n, hres⟩ := State.cryptResult_eq ({ s with crypt := { s.crypt with buf := s.bufWith 0 (toNats bs) } } : State) op slot
    bs.length (placeTag 0 s.crypt.count)
  unfold State.cryptDo State.cryptEnd
  dsimp only
  rw [hirq, hres]
  rfl

theorem State.opKeyLoad_open (h : u.cryptOpen) {w : State} (hw : u.useArb 18 cryptReq = some w) : u.opKeyLoad k =
    (.done (if (w.cryptDo 1 k.ten (k.params.take 72)).1 = 0 then 0 else 0x0201) [] [], (w.cryptDo 1 k.ten (k.params.take 72)).2) := by
  refine (State.cryptFree_open h _).trans ?_
  simp only [hw]
  split <;> rfl

theorem State.opUnlockResponse_none (h : u.cryptOpen) (hc : u.serv.challenge = none) : u.opUnlockResponse k =
    (.done 0x0201 [] [], { u with serv := { u.serv with challenge := none } }) := by
  refine (State.cryptFree_open h _).trans ?_
  simp only [hc]
  rfl

/-- A response to the challenge that stands consumes it; one that verifies unlocks, another counts as a failure. -/
theorem State.opUnlockResponse_some (h : u.cryptOpen) {ch : List Byte} (hc : u.serv.challenge = some ch) (hf : u.serv.unlockFails < 3) :
    ∃ st t, u.opUnlockResponse k = (.done st [] [], t) ∧ t.serv.challenge = none ∧ (st = 0 → t.serv.unlocked = true) ∧
      (st ≠ 0 → st = 0x0201 ∧ t.serv.unlockFails = u.serv.unlockFails + 1) := by
  have hopen := State.cryptFree_open h
  unfold State.opUnlockResponse
  simp only [hopen, hc]
  rw [if_neg (Nat.not_le.mpr hf)]
  have hserv (a b : List Byte) (v : State) : ((v.cryptDo 3 0 a).2.cryptDo 5 0 b).2.serv = v.serv := by
    rw [State.cryptDo_serv, State.cryptDo_serv]
  split
  · refine ⟨_, _, rfl, ?_, fun _ => rfl, fun hne => absurd rfl hne⟩
    exact congrArg Serv.challenge (hserv _ _ _)
  · refine ⟨_, _, rfl, ?_, fun h0 => absurd h0 (by decide), fun _ => ⟨rfl, ?_⟩⟩
    · exact congrArg Serv.challenge (hserv _ _ _)
    · exact congrArg (· + 1) ((congrArg Serv.unlockFails (hserv _ _ _)).trans rfl)

/-! ### Errors -/

theorem State.opErrRead_within (h1 : 1 ≤ k.par 0 1) (h16 : k.par 0 1 ≤ 16) (hroom : 32 * k.par 0 1 ≤ k.room) : u.opErrRead k =
    (.done 0 ((List.range (min (k.par 0 1) u.err.count)).flatMap (fun i => (u.err.recAt i).bytes)) [], u) := by
  have hhi : k.par 0 1 ≤ min 16 (k.room / 32) := by omega
  unfold State.opErrRead
  simp only [u.sizeParam_within k 0 h1 hhi]
  rfl

theorem State.opErrPop_within (h1 : 1 ≤ k.par 0 1) (h32 : k.par 0 1 ≤ 32) : u.opErrPop k =
    (.done 0 (leBytes (u.regCommand 0x40014010 (k.par 0 1)).err.popped 1) [], u.regCommand 0x40014010 (k.par 0 1)) := by
  unfold State.opErrPop
  simp only [u.param_within k 0 h1 h32]
  rfl

end

/-- Settles O58. The CRC of a standard image is log entry 30, UNLOCK_RESPONSE without a challenge is entry 111, that SFU_RUN is
offered again is entry 112; signatures, random bytes and keys are the free values of entry 33. -/
theorem adcSfuNorSecurityAndErrorCommands : Obligations.AdcSfuNorSecurityAndErrorCommands := by
  unfold Obligations.AdcSfuNorSecurityAndErrorCommands
  intro c s hr ho k u p ready ends waits
  have hends (op : Nat) (f : State → Cmd → Ans) (hf : Runs op f) (st : Nat) (bs : List Byte) (es : List Nat) (t : State)
      (h : f (u op) (k op) = (.done st bs es, t)) : ends (.next (s.issue op c)) op st bs es t :=
    fun hadm => congrArg Host.Outcome.next (State.issue_done hf hr ho hadm h)
  have hwaits (op : Nat) (f : State → Cmd → Ans) (hf : Runs op f) (w : CmdWait) (t : State)
      (h : f (u op) (k op) = (.long w [], t)) : waits (.next (s.issue op c)) op w t :=
    fun hadm => congrArg Host.Outcome.next (State.issue_waits hf hr ho hadm h)
  refine ⟨?_, ?_, ?_, ?_, ?_, ?_, ?_, ?_, ?_, ?_, ?_, ?_, ?_⟩
  · exact fun hc he hn hon => hends 0x8001 State.opAdcTable (fun _ _ => rfl) _ _ _ _ (State.opAdcTable_one hc he hn hon)
  · exact fun hq hm hon hone => hends 0x8002 State.opAdcRingRead (fun _ _ => rfl) _ _ _ _ (State.opAdcRingRead_one hq hm hon hone)
  · exact fun h8 h15 hl h46 hw hs => ⟨fun hfree hno => hends 0x9000 State.opSfuTableLoad (fun _ _ => rfl) _ _ _ _
        (State.opSfuTableLoad_free h8 h15 hl h46 hw hs hfree hno),
      fun hused => hwaits 0x9000 State.opSfuTableLoad (fun _ _ => rfl) _ _ (State.opSfuTableLoad_used h8 h15 hl h46 hw hs hused)⟩
  · exact fun hn h46 => hends 0x9001 State.opSfuTableCrc (fun _ _ => rfl) _ _ _ _ (State.opSfuTableCrc_on hn h46)
  · intro h46 r
    have hrun := State.opSfuRun_on (k := k 0x9002) h46
    refine ⟨fun h31 => hwaits 0x9002 State.opSfuRun (fun _ _ => rfl) _ _ (hrun.trans (if_pos h31)),
      fun h31 h30 => hends 0x9002 State.opSfuRun (fun _ _ => rfl) _ _ _ _
        (hrun.trans ((if_neg (ne_true_of_eq_false h31)).trans (if_pos h30))),
      fun h31 h30 hadm => congrArg Host.Outcome.next ?_⟩
    have hw := hrun.trans ((if_neg (ne_true_of_eq_false h31)).trans (if_neg (ne_true_of_eq_false h30)))
    exact State.issue_retries (f := State.opSfuRun) (fun _ _ => rfl) hr ho hadm (fun _ => rfl) hw
  · exact fun h1 hroom h44 hi hend => hends 0xA000 State.opNorRead (fun _ _ => rfl) _ _ _ _ (State.opNorRead_idle h1 hroom h44 hi hend)
  · intro off v h44 hi
    refine ⟨fun h0 hlo hhi => hwaits 0xA001 State.opNorErase (fun _ _ => rfl) _ _ ?_,
      fun h1 hlo hhi => hwaits 0xA001 State.opNorErase (fun _ _ => rfl) _ _ ?_,
      fun h0 hlo => hends 0xA001 State.opNorErase (fun _ _ => rfl) _ _ _ _ ?_⟩
    · have hx := State.opNorErase_idle (u := v) (k := k 0xA001) (Nat.le_trans (Nat.le_of_eq h0) (Nat.zero_le 1)) h44 hi
      rw [show (k 0xA001).par 4 1 = 0 from h0] at hx
      exact hx.trans (if_neg (ne_true_of_eq_false (norForbidden_eq_false hlo hhi)))
    · have hx := State.opNorErase_idle (u := v) (k := k 0xA001) (Nat.le_of_eq h1) h44 hi
      rw [show (k 0xA001).par 4 1 = 1 from h1] at hx
      exact hx.trans (if_neg (ne_true_of_eq_false (norForbidden_eq_false hlo hhi)))
    · have hx := State.opNorErase_idle (u := v) (k := k 0xA001) (Nat.le_trans (Nat.le_of_eq h0) (Nat.zero_le 1)) h44 hi
      rw [show (k 0xA001).par 4 1 = 0 from h0] at hx
      refine hx.trans (if_pos (decide_eq_true (.inl ?_)))
      show off / 4096 * 4096 < 0x10000
      omega
  · exact fun _ h44 hi hlo hhi => hwaits 0xA002 State.opNorProgram (fun _ _ => rfl) _ _ (State.opNorProgram_idle h44 hi hlo hhi)
  · intro b v hb h44 hi
    have hx := State.opImageActivate_idle (u := v) (k := k 0xA003) hb h44 hi
    exact ⟨fun hno => hends 0xA003 State.opImageActivate (fun _ _ => rfl) _ _ _ _ (hx.trans (if_neg (ne_true_of_eq_false hno))),
      fun hok => hwaits 0xA003 State.opImageActivate (fun _ _ => rfl) _ _ (hx.trans (if_pos hok))⟩
  · intro op h49 hp hfz
    have hopen : (u op).cryptOpen := ⟨h49, hp, hfz⟩
    refine ⟨?_, ?_, ?_, ?_, ?_, ?_, ?_⟩ <;> rintro rfl
    · exact fun w hw => hends 0xB000 State.opKeyLoad (fun _ _ => rfl) _ _ _ _ (State.opKeyLoad_open hopen hw)
    · exact hends 0xB001 State.opKeyClear (fun _ _ => rfl) _ _ _ _ (State.cryptFree_open hopen _)
    · exact ⟨_, _, hends 0xB002 State.opAttest (fun _ _ => rfl) _ _ _ _ (State.cryptFree_open hopen _)⟩
    · exact hends 0xB003 State.opAttestKey (fun _ _ => rfl) _ _ _ _ (State.cryptFree_open hopen _)
    · exact ⟨_, _, hends 0xB004 State.opUnlockChallenge (fun _ _ => rfl) _ _ _ _ (State.cryptFree_open hopen _), rfl⟩
    · exact fun hc => hends 0xB005 State.opUnlockResponse (fun _ _ => rfl) _ _ _ _ (State.opUnlockResponse_none hopen hc)
    · intro ch hc hf
      obtain ⟨st, t, hx, hch, hst⟩ := State.opUnlockResponse_some (k := k 0xB005) hopen hc hf
      exact ⟨st, t, hends 0xB005 State.opUnlockResponse (fun _ _ => rfl) _ _ _ _ hx, hch, hst⟩
  · exact fun h1 h16 hroom => hends 0xE000 State.opErrRead (fun _ _ => rfl) _ _ _ _ (State.opErrRead_within h1 h16 hroom)
  · exact fun h1 h32 => hends 0xE001 State.opErrPop (fun _ _ => rfl) _ _ _ _ (State.opErrPop_within h1 h32)
  · exact hends 0xE002 State.opErrStat (fun _ _ => rfl) _ _ _ _ rfl

end Sys2Proof.Machine
end

section
/-! PROOFS. O49: frames that the ports deliver, the answers to queries, and the reply. -/
namespace Sys2Proof.Machine
open Sys2Proof

/-! ### Frames received -/

/-- What receiving a frame can change: the counter of CRC failures, PORT_DIFFER, and that an SD was seen. -/
def PickOnly (s t : State) : Prop := (∃ r d, t = { s with regs := r, spine := { s.spine with sdSeen := d } }) ∧
  ∀ k, k ≠ fk 0x4000A070 16 → k ≠ kSpineEvent 5 → t.reg k = s.reg k

theorem PickOnly.refl (s : State) : PickOnly s s := ⟨⟨_, _, rfl⟩, fun _ _ _ => rfl⟩

theorem PickOnly.trans {s t u : State} (h : PickOnly s t) (k : PickOnly t u) : PickOnly s u := by
  obtain ⟨⟨r, d, rfl⟩, h⟩ := h
  obtain ⟨⟨r', d', rfl⟩, k⟩ := k
  exact ⟨⟨r', d', rfl⟩, fun j h1 h2 => (k j h1 h2).trans (h j h1 h2)⟩

theorem PickOnly.sdSeen (s : State) : PickOnly s s.sdSeen := ⟨⟨_, _, rfl⟩, fun _ _ _ => rfl⟩

theorem PickOnly.crcFail (s : State) : PickOnly s s.crcFail :=
  ⟨⟨_, _, rfl⟩, fun _ h _ => State.reg_setReg_other _ _ _ _ h.symm⟩

theorem PickOnly.differ (s : State) : PickOnly s (s.setFlag (kSpineEvent 5) true) :=
  ⟨⟨_, _, rfl⟩, fun _ _ h => State.reg_setFlag_other _ _ _ _ h.symm⟩

theorem PickOnly.ite {s t u : State} {c : Prop} [Decidable c] (h : PickOnly s t) (k : PickOnly s u) : PickOnly s (if c then t else u) := by
  split
  · exact h
  · exact k

section
variable {w : Nat} {r : Rx w} {ok : BitVec w → Bool} {s u : State}

theorem PickOnly.pickFrame (s : State) (r : Rx w) (ok : BitVec w → Bool) : PickOnly s (s.pickFrame r ok).2 := by
  unfold State.pickFrame
  extract_lets p s0 s1 s2
  have h0 : PickOnly s s0 := .sdSeen s
  have h1 : PickOnly s s1 := .ite (h0.trans (.crcFail _)) h0
  have h2 : PickOnly s s2 := .ite (h1.trans (.crcFail _)) h1
  split
  · exact .refl s
  · split
    · exact .ite (h2.trans (.differ _)) h2
    · split <;> exact h2

theorem PickOnly.of_pick {o : Option (BitVec w)} (h : s.pickFrame r ok = (o, u)) : PickOnly s u := by
  have hp := PickOnly.pickFrame s r ok
  rwa [h] at hp

/-- The frame used is a valid one. -/
theorem State.pickFrame_valid {f : BitVec w} (h : s.pickFrame r ok = (some f, u)) : ok f = true := by
  unfold State.pickFrame at h
  extract_lets p s0 s1 s2 at h
  split at h
  · cases h
  · split at h
    · rename_i hc
      obtain rfl := Option.some.inj (Prod.mk.inj h).1
      exact (Bool.and_eq_true_iff.mp hc).2
    · split at h
      · rename_i hc
        obtain rfl := Option.some.inj (Prod.mk.inj h).1
        exact (Bool.and_eq_true_iff.mp hc).2
      · exact nomatch (Prod.mk.inj h).1

theorem State.pickFrame_none (h : r.ports.toNat &&& s.rxPorts = 0) : s.pickFrame r ok = (none, s) := if_pos h

theorem State.pickFrame_a (h : r.ports.toNat &&& s.rxPorts = 1) :
    s.pickFrame r ok = if ok r.a then (some r.a, s.sdSeen) else (none, s.sdSeen.crcFail) := by
  simp only [State.pickFrame, h]
  cases ok r.a <;> rfl

theorem State.pickFrame_b (h : r.ports.toNat &&& s.rxPorts = 2) :
    s.pickFrame r ok = if ok r.b then (some r.b, s.sdSeen) else (none, s.sdSeen.crcFail) := by
  simp only [State.pickFrame, h]
  cases ok r.b <;> rfl

/-- Both ports deliver a frame. -/
theorem State.pickFrame_both (h : r.ports.toNat &&& s.rxPorts = 3) : s.pickFrame r ok =
    match ok r.a, ok r.b with
    | true, true => (some r.a, if r.a != r.b then s.sdSeen.setFlag (kSpineEvent 5) true else s.sdSeen)
    | true, false => (some r.a, s.sdSeen.crcFail)
    | false, true => (some r.b, s.sdSeen.crcFail)
    | false, false => (none, s.sdSeen.crcFail.crcFail) := by
  simp only [State.pickFrame, h]
  cases ok r.a <;> cases ok r.b <;> rfl

end

section
variable {s t : State} (h : PickOnly s t)
include h

theorem PickOnly.shelf : t.shelf = s.shelf := h.2 _ (by decide) (by decide)
theorem PickOnly.mem : t.mem = s.mem := by obtain ⟨⟨r, d, rfl⟩, -⟩ := h; rfl

end

/-! ### Answers -/

/-- What counting an answer leaves: every register but PRB's counters. -/
theorem State.countAnswer_eq (s : State) (st : Nat) : (∃ r, s.countAnswer st = { s with regs := r }) ∧
    ∀ k, k ≠ fk 0x4000B050 0 → k ≠ fk 0x4000B050 16 → k ≠ fk 0x4000B054 0 → k ≠ fk 0x4000B054 16 → (s.countAnswer st).reg k = s.reg k := by
  unfold State.countAnswer
  dsimp only
  have h0 (k : Key) (hk : k ≠ fk 0x4000B050 0) : (s.count (fk 0x4000B050 0) 16 1).reg k = s.reg k :=
    State.reg_setReg_other _ _ _ _ hk.symm
  have h1 (a b k : Key) (ha : k ≠ fk 0x4000B050 0) (hb : k ≠ b) : ((s.count (fk 0x4000B050 0) 16 1).count b 16 1).reg k = s.reg k :=
    (State.reg_setReg_other _ _ _ _ hb.symm).trans (h0 k ha)
  repeat' split
  · exact ⟨⟨_, rfl⟩, fun k ha hb _ _ => h1 0 _ k ha hb⟩
  · exact ⟨⟨_, rfl⟩, fun k ha _ hb _ => h1 0 _ k ha hb⟩
  · exact ⟨⟨_, rfl⟩, fun k ha _ _ hb => h1 0 _ k ha hb⟩
  · exact ⟨⟨_, rfl⟩, fun k ha _ _ _ => h0 k ha⟩

section
variable {s : State} {op tenant key : Nat} {late : Bool}

theorem State.answer_unadmitted (h : s.admitted = false) : s.answer op tenant key late = s :=
  if_pos (by rw [h]; simp)

/-- An admitted node's answer: the operation, counted, and its reply. -/
theorem State.answer_eq (hp : s.prbOn = true) (ha : s.admitted = true) : s.answer op tenant key late =
    let r := s.operate op tenant key late
    let s1 : State := r.2.2.countAnswer r.1
    { s1 with spine := { s1.spine with reply := some { status := r.1, payload := r.2.1, late := late && op == 0 && r.1 == 7 } } } :=
  if_neg (by rw [hp, ha]; decide)

theorem State.answer_reply (hp : s.prbOn = true) (ha : s.admitted = true) {a : OpAns} (h : s.operate op tenant key late = a) :
    (s.answer op tenant key late).spine.reply =
      some { status := a.1, payload := a.2.1, late := late && op == 0 && a.1 == 7 } := by
  rw [State.answer_eq hp ha, h] <;> rfl

theorem State.flag_answer (hp : s.prbOn = true) (ha : s.admitted = true) {a : OpAns} (h : s.operate op tenant key late = a) {k : Key}
    (hk : k ≠ fk 0x4000B050 0 ∧ k ≠ fk 0x4000B050 16 ∧ k ≠ fk 0x4000B054 0 ∧ k ≠ fk 0x4000B054 16) :
    (s.answer op tenant key late).flag k = a.2.2.flag k := by
  obtain ⟨h1, h2, h3, h4⟩ := hk
  rw [State.answer_eq hp ha, h]
  exact congrArg (· == 1) ((a.2.2.countAnswer_eq a.1).2 k h1 h2 h3 h4)

theorem State.mem_answer (hp : s.prbOn = true) (ha : s.admitted = true) {a : OpAns} (h : s.operate op tenant key late = a) :
    (s.answer op tenant key late).mem = a.2.2.mem := by
  rw [State.answer_eq hp ha, h]
  obtain ⟨r, hr⟩ := (a.2.2.countAnswer_eq a.1).1
  show (a.2.2.countAnswer a.1).mem = _
  rw [hr]

/-- Of the spine an answer sets the reply alone. -/
theorem State.spine_answer (hp : s.prbOn = true) (ha : s.admitted = true) {a : OpAns} (h : s.operate op tenant key late = a) :
    ∃ p, (s.answer op tenant key late).spine = { a.2.2.spine with reply := p } := by
  rw [State.answer_eq hp ha, h]
  obtain ⟨r, hr⟩ := (a.2.2.countAnswer_eq a.1).1
  dsimp only
  rw [hr]
  exact ⟨_, rfl⟩

theorem State.operate_refused {st : Nat} (h : s.opRefusal op tenant = some st) :
    s.operate op tenant key late = (st, if op == 2 || op == 3 || op == 7 then s.statusLayout else 0, s) := by
  simp only [State.operate, h]

theorem State.opRefusal_allow (h8 : op < 8) (h : s.allow < opMin op) : s.opRefusal op tenant = some 4 :=
  (if_neg (Nat.not_le.mpr h8)).trans (if_pos h)

/-- An operation that needs neither the directory nor a quiet sequence. -/
theorem State.opRefusal_plain (h8 : op < 8) (h : opMin op ≤ s.allow) (hn : opNeeds op = false) (h23 : op ≠ 2 ∧ op ≠ 3) :
    s.opRefusal op tenant = none := by
  unfold State.opRefusal
  rw [if_neg (Nat.not_le.mpr h8), if_neg (Nat.not_lt.mpr h)]
  simp [hn, h23.1, h23.2]

theorem State.opRefusal_dir (h8 : op < 8) (h : opMin op ≤ s.allow) (hn : opNeeds op = true) (hd : s.flag kDirValid = false) :
    s.opRefusal op tenant = some 3 :=
  (if_neg (Nat.not_le.mpr h8)).trans ((if_neg (Nat.not_lt.mpr h)).trans (if_pos (by rw [hn, hd]; rfl)))

theorem State.opRefusal_tenant (h8 : op < 8) (h : opMin op ≤ s.allow) (hn : opNeeds op = true) (hd : s.flag kDirValid = true)
    (hk : s.dirKnown tenant = false) : s.opRefusal op tenant = some 5 :=
  (if_neg (Nat.not_le.mpr h8)).trans ((if_neg (Nat.not_lt.mpr h)).trans
    ((if_neg (by rw [hd]; simp)).trans (if_pos (by rw [hn, hk]; rfl))))

theorem State.opRefusal_known (h8 : op < 8) (h : opMin op ≤ s.allow) (hd : s.flag kDirValid = true) (hk : s.dirKnown tenant = true)
    (h23 : op ≠ 2 ∧ op ≠ 3) : s.opRefusal op tenant = none := by
  unfold State.opRefusal
  rw [if_neg (Nat.not_le.mpr h8), if_neg (Nat.not_lt.mpr h)]
  simp [hd, hk, h23.1, h23.2]

theorem State.opRefusal_wake (h : 6 ≤ s.allow) : s.opRefusal 2 tenant = if s.flag kSleepSeq then some 7 else none := by
  unfold State.opRefusal
  rw [if_neg (by decide), if_neg (show ¬s.allow < opMin 2 from Nat.not_lt.mpr h)]
  simp [opNeeds]

theorem State.opRefusal_sleep (h : 2 ≤ s.allow) : s.opRefusal 3 tenant = if s.flag kWakeSeq then some 7 else none := by
  unfold State.opRefusal
  rw [if_neg (by decide), if_neg (show ¬s.allow < opMin 3 from Nat.not_lt.mpr h)]
  simp [opNeeds]

end

/-- WAKE_SEQ stands after a WAKE_SHELF that is accepted. -/
theorem State.flag_opWake (s : State) : s.opWake.flag kWakeSeq = true := by
  unfold State.opWake
  split
  · assumption
  · exact (State.flag_halyard _ 3 kWakeSeq (by decide) (by decide)).trans (State.flag_setFlag s kWakeSeq true)

theorem State.flag_opSleep (s : State) : s.opSleep.flag kSleepSeq = true :=
  (State.flag_halyard _ 4 kSleepSeq (by decide) (by decide)).trans (State.flag_setFlag s kSleepSeq true)

theorem State.spine_halyard (s : State) (i : Nat) : (s.halyard i).spine = s.spine := by
  obtain ⟨r, p, h⟩ := s.halyard_eq i
  rw [h]

theorem State.spine_opWake (s : State) : s.opWake.spine = s.spine := by
  unfold State.opWake
  split
  · rfl
  · exact State.spine_halyard _ 3

theorem State.spine_opSleep (s : State) : s.opSleep.spine = s.spine := State.spine_halyard _ 4

/-! ### PROBE, TICKET_FETCH, CMD_CHUNK -/

/-- The offsets of a key's buckets, as the directory places them. -/
def State.probeBuckets (s : State) (tenant key : Nat) : Nat × Nat :=
  bucketsOf (bits (s.dirEntry tenant) 1 5) (bits (s.dirEntry tenant) 6 10) key
/-- The state in which a probe looks: the banks that it needs are powered. -/
def State.probing (s : State) (tenant key : Nat) : State := s.reef1Leave.prbBanks (entryOffs (s.probeBuckets tenant key))

theorem State.opProbe_late (s : State) (tenant key : Nat) : s.opProbe tenant key true = (7, 0, s.probing tenant key) := by
  simp only [State.opProbe, Bool.true_or]
  rfl

theorem State.opProbe_busy {s : State} {tenant key : Nat}
    (h : (s.probing tenant key).prbWaits (entryOffs (s.probeBuckets tenant key)) = true ∨
      (s.probing tenant key).prbAsk [(s.probeBuckets tenant key).1, (s.probeBuckets tenant key).2] = none) :
    s.opProbe tenant key false = (7, 0, s.probing tenant key) := by
  unfold State.opProbe
  unfold State.probing State.probeBuckets at *
  rcases h with h | h
  · simp only [h]
    rfl
  · simp only [h]
    split <;> rfl

/-- A probe whose banks answer: what the lookup finds. -/
theorem State.opProbe_found {s w : State} {tenant key : Nat}
    (hw : (s.probing tenant key).prbWaits (entryOffs (s.probeBuckets tenant key)) = false)
    (ha : (s.probing tenant key).prbAsk [(s.probeBuckets tenant key).1, (s.probeBuckets tenant key).2] = some w) {l : Look} {v : State}
    (hl : w.prbLook key (entryOffs (s.probeBuckets tenant key)) = (l, v)) :
    s.opProbe tenant key false = v.probeFound tenant key l := by
  unfold State.opProbe
  unfold State.probing State.probeBuckets at hw ha
  unfold State.probeBuckets at hl
  simp only [hw, ha, hl]
  rfl

/-- A ticket that is not the tenant's, or has gone. -/
theorem State.opTicket_unknown {s : State} {tenant tk : Nat} (ht : tk < 2 ^ 16)
    (h : s.ticketFree (tk % 256) = true ∨ s.ticketGen (tk % 256) ≠ tk / 256 ∨ s.ticketTenant (tk % 256) ≠ tenant) :
    s.opTicket tenant tk = (8, 0, s) := by
  unfold State.opTicket
  rw [bits_zero_eq_mod, Nat.mod_eq_of_lt ht]
  refine if_pos ?_
  simpa [or_assoc] using h

theorem State.opTicket_known {s : State} {tenant tk : Nat} (ht : tk < 2 ^ 16) (hf : s.ticketFree (tk % 256) = false)
    (hg : s.ticketGen (tk % 256) = tk / 256) (hten : s.ticketTenant (tk % 256) = tenant) : s.opTicket tenant tk =
      if s.ticketState (tk % 256) = 2 then
        let r := bits (s.rdLe (ticketAddr (tk % 256) + 8) 1) 0 4
        let f := s.freeBits 4
        let st := if r < 9 then r else f.1 % 9
        let s1 : State := if r < 9 then s else f.2
        (st, if st = 0 then s.ticketEntry (ticketAddr (tk % 256)) else if st = 2 then tk * 256 else 0,
          s1.wr (ticketAddr (tk % 256) + 0x18) 0#8)
      else (2, tk * 256, s) := by
  unfold State.opTicket
  rw [bits_zero_eq_mod, Nat.mod_eq_of_lt ht]
  refine if_neg ?_
  simp [hf, hg, hten]

theorem exec_cmdChunk {s : State} (ctl : BitVec 6) (data : BitVec 48) (h : (s.answer 7 ctl.toNat data.toNat false).spine.chunkDone = none) :
    exec (.cmdChunk ctl data) s = .next (s.answer 7 ctl.toNat data.toNat false) := by
  show Host.Outcome.next (State.takeChunk _) = _
  unfold State.takeChunk
  rw [h]

/-- The first fragment of a packet. -/
theorem State.opChunk_first {s : State} (data : Nat) (hen : s.flag kChunkEn = true) (hd : s.spine.chunkDone = none)
    (hn : s.spine.chunkN = 0) : ∃ v : State, s.opChunk 32 data = (0, v) ∧
      v.mem = (s.wrBytes 0x12005000 (beBytes data 6)).mem ∧ v.spine.chunkN = 1 ∧ v.spine.chunkDone = none := by
  simp only [State.opChunk, hen, hd, hn]
  refine ⟨_, rfl, rfl, rfl, ?_⟩
  show (s.wrBytes 0x12005000 (beBytes data 6)).spine.chunkDone = none
  rw [s.wrBytes_eq]
  exact hd

theorem State.operate_chunk {s : State} {tenant key : Nat} {late : Bool} {r : Nat × State} (h : s.opRefusal 7 tenant = none)
    (hr : s.opChunk tenant key = r) : s.operate 7 tenant key late = (r.1, r.2.statusLayout, r.2) := by
  simp only [State.operate, h, hr]

theorem State.opChunk_stray {s : State} (data : Nat) (hen : s.flag kChunkEn = true) (hd : s.spine.chunkDone = none)
    (hn : s.spine.chunkN = 0) : s.opChunk 1 data = (8, s.chunkDrop) := by
  simp only [State.opChunk, hen, hd, hn]
  rfl

theorem length_beBytes (n k : Nat) : (beBytes n k).length = k := by
  rw [beBytes, List.length_reverse, length_leBytes]

/-! ### The wire -/

theorem State.spineSend_driven {s : State} (bs : List Byte) (h : s.txPorts ≠ 0) :
    s.spineSend bs = ({ s with spine := { s.spine with tx := bs } } : State).count (fk 0x4000A074 0) 16 1 := if_neg h

theorem State.broadcast_spine (s : State) (op : Nat) : (s.broadcast op).spine = s.spine := by
  unfold State.broadcast
  split
  · rfl
  · split
    · exact s.spine_opWake
    · split
      · exact s.spine_opSleep
      · rfl

theorem State.broadcast_other {s : State} {op : Nat} (h2 : op ≠ 2) (h3 : op ≠ 3) : s.broadcast op = s := by
  unfold State.broadcast
  simp [h2, h3]

theorem exec_query {s u : State} {ports : BitVec 2} {a b : BitVec 72} (late : Bool) {f : BitVec 72}
    (h : s.pickFrame { ports := ports, a := a, b := b } crc8Ok = (some f, u)) :
    exec (.query ports a b late) s = .next (u.query f late).takeChunk := by
  simp only [exec, execQuery, h]

theorem exec_replyStart {s u : State} {r : SpReply} (hr : s.spine.reply = some r) (hp : s.prbOn = true)
    (hu : ({ s with spine := { s.spine with reply := none } } : State).useArb 16 (sptxReq 1) = some u) : exec .replyStart s =
      .next (u.spineSend (replyBytes (if r.late then 7 else r.status) (if r.late then 0 else r.payload))) := by
  simp only [exec, execReplyStart, hr, hp, hu]
  rfl

/-- A node that is admitted and can work: its answers. -/
theorem answersOfOpenNode {s : State} (hp : s.prbOn = true) (ha : s.admitted = true) {op tenant key : Nat} {late : Bool} {a : OpAns}
    (h : s.operate op tenant key late = a) (hl : (late && op == 0 && a.1 == 7) = false) :
    ∃ t, (.next (s.answer op tenant key late) : Out) = .next t ∧ t.spine.reply = some { status := a.1, payload := a.2.1 } :=
  ⟨_, rfl, (State.answer_reply hp ha h).trans (by rw [hl])⟩

/-- Settles O49. That a lookup whose read waits, or whose bank grants nothing, is BUSY is log entry 130; the status of a ticket whose
RESULT is 9 to 15 is the free value of entry 148. -/
theorem queriesAnswerAndReplyLeaves : Obligations.QueriesAnswerAndReplyLeaves := by
  unfold Obligations.QueriesAnswerAndReplyLeaves
  refine ⟨fun s => ⟨fun h => ⟨congrArg _ (State.answer_unadmitted h), congrArg _ (State.answer_unadmitted h),
    congrArg _ (State.answer_unadmitted h)⟩, fun hp ha => ?_⟩, ?_, ?_, ?_, ?_, ?_⟩
  · intro rep
    have hrep (op tenant key : Nat) (late : Bool) (a : OpAns) (h : s.operate op tenant key late = a)
        (hl : (late && op == 0 && a.1 == 7) = false) : rep (.next (s.answer op tenant key late)) a.1 a.2.1 :=
      answersOfOpenNode hp ha h hl
    have hrefuse (op tenant key : Nat) (late : Bool) (st : Nat) (hst : (late && op == 0 && st == 7) = false)
        (h : s.opRefusal op tenant = some st) : rep (.next (s.answer op tenant key late)) st
          (if op == 2 || op == 3 || op == 7 then s.statusLayout else 0) :=
      hrep op tenant key late _ (State.operate_refused h) hst
    refine ⟨fun h2 => ?_, fun h2 => ?_, fun h6 hs => ?_, fun h6 => ?_, fun h6 hs => ?_, fun h2 hw => ?_, fun n key late tk => ?_,
      fun data h2 hen hd hn => ?_, fun data h2 hen hd hn => ?_⟩
    · have hop (op : Nat) (h8 : op < 8) (hm : opMin op = 2) (hn : opNeeds op = false) (h23 : op ≠ 2 ∧ op ≠ 3) :=
        State.opRefusal_plain (s := s) (tenant := 0) h8 (hm ▸ h2) hn h23
      exact ⟨hrep 1 0 0 false (0, s.statusLayout, s) (by simp only [State.operate, hop 1 (by decide) rfl rfl (by decide)]) rfl,
        hrep 5 0 0 false (0, s.gaugeLayout, s) (by simp only [State.operate, hop 5 (by decide) rfl rfl (by decide)]) rfl,
        hrep 6 0 0 false (0, s.timeLayout, s) (by simp only [State.operate, hop 6 (by decide) rfl rfl (by decide)]) rfl⟩
    · exact ⟨hrefuse 1 0 0 false 4 rfl (State.opRefusal_allow (by decide) h2),
        hrefuse 5 0 0 false 4 rfl (State.opRefusal_allow (by decide) h2),
        hrefuse 6 0 0 false 4 rfl (State.opRefusal_allow (by decide) h2)⟩
    · have hnone : s.opRefusal 2 0 = none := (State.opRefusal_wake h6).trans (if_neg (by rw [hs]; decide))
      have hgo : s.operate 2 0 0 false = (0, s.opWake.statusLayout, s.opWake) := by simp only [State.operate, hnone]
      exact ⟨_, rfl, (State.flag_answer hp ha hgo (by decide)).trans s.flag_opWake,
        congrArg (Option.map (·.status)) (State.answer_reply hp ha hgo)⟩
    · exact hrefuse 2 0 0 false 4 rfl (State.opRefusal_allow (by decide) h6)
    · exact hrefuse 2 0 0 false 7 rfl ((State.opRefusal_wake h6).trans (if_pos hs))
    · have hnone : s.opRefusal 3 0 = none := (State.opRefusal_sleep h2).trans (if_neg (by rw [hw]; decide))
      have hgo : s.operate 3 0 0 false = (0, s.opSleep.statusLayout, s.opSleep) := by simp only [State.operate, hnone]
      exact ⟨_, rfl, (State.flag_answer hp ha hgo (by decide)).trans s.flag_opSleep,
        congrArg (Option.map (·.status)) (State.answer_reply hp ha hgo)⟩
    · have h7 (st : Nat) (hst : (st == 7) = false) : (late && (0 : Nat) == 0 && st == 7) = false := by rw [hst]; exact Bool.and_false _
      refine ⟨fun h3 => ⟨hrefuse 0 n key.toNat late 4 (h7 4 rfl) (State.opRefusal_allow (by decide) h3),
          hrefuse 4 n tk.toNat false 4 rfl (State.opRefusal_allow (by decide) h3)⟩,
        fun h3 hd => ⟨hrefuse 0 n key.toNat late 3 (h7 3 rfl) (State.opRefusal_dir (by decide) h3 rfl hd),
          hrefuse 4 n tk.toNat false 3 rfl (State.opRefusal_dir (by decide) h3 rfl hd)⟩,
        fun h3 hd hk => ⟨hrefuse 0 n key.toNat late 5 (h7 5 rfl) (State.opRefusal_tenant (by decide) h3 rfl hd hk),
          hrefuse 4 n tk.toNat false 5 rfl (State.opRefusal_tenant (by decide) h3 rfl hd hk)⟩, fun h3 hd hk => ?_⟩
      have hpass (op : Nat) (h8 : op < 8) (hm : opMin op = 3) (h23 : op ≠ 2 ∧ op ≠ 3) :=
        State.opRefusal_known (s := s) (tenant := n) h8 (hm ▸ h3) hd hk h23
      have hprobe (l : Bool) : s.operate 0 n key.toNat l = s.opProbe n key.toNat l := by
        simp only [State.operate, hpass 0 (by decide) rfl (by decide)]
      have hticket : s.operate 4 n tk.toNat false = s.opTicket n tk.toNat := by
        simp only [State.operate, hpass 4 (by decide) rfl (by decide)]
      dsimp only
      refine ⟨fun h => ?_, fun hf hg ht hst => ?_, fun hf hg ht hst => ?_, ?_, fun h => ?_, fun hw w v hask => ?_⟩
      · exact hrep 4 n tk.toNat false (8, 0, s) (hticket.trans (State.opTicket_unknown tk.isLt h)) rfl
      · exact hrep 4 n tk.toNat false (2, tk.toNat * 256, s)
          (hticket.trans ((State.opTicket_known tk.isLt hf hg ht).trans (if_neg hst))) rfl
      · have hres := hticket.trans ((State.opTicket_known tk.isLt hf hg ht).trans (if_pos hst))
        refine ⟨_, rfl, ?_, _, State.answer_reply hp ha hres, ?_, fun hlt => if_pos hlt⟩
        · rw [State.rd_of_mem (State.mem_answer hp ha hres)]
          exact (State.rd_wr_at _ _ _ _).trans (if_pos rfl)
        · dsimp only
          split
          · assumption
          · exact Nat.mod_lt _ (by decide)
      · exact ⟨_, rfl, State.answer_reply hp ha ((hprobe true).trans (s.opProbe_late n key.toNat))⟩
      · exact hrep 0 n key.toNat false _ ((hprobe false).trans (State.opProbe_busy h)) rfl
      · have hfound (l : Look) (hl : w.prbLook key.toNat (entryOffs (s.probeBuckets n key.toNat)) = (l, v)) :=
          hrep 0 n key.toNat false _ ((hprobe false).trans (State.opProbe_found hw hask hl)) rfl
        exact ⟨fun e hl => hfound _ hl, fun hl => hfound _ hl, fun hl => hfound _ hl, fun e hl => hfound _ hl⟩
    · have hnone : s.opRefusal 7 (32#6).toNat = none := State.opRefusal_plain (by decide) h2 rfl (by decide)
      obtain ⟨v, hop, hmem, hcn, hcd⟩ := State.opChunk_first data.toNat hen hd hn
      have hgo := State.operate_chunk (late := false) hnone hop
      obtain ⟨p, hsp⟩ := State.spine_answer hp ha hgo
      refine ⟨_, exec_cmdChunk 32#6 data (by rw [hsp]; exact hcd), by rw [hsp]; exact hcn, ?_,
        congrArg (Option.map (·.status)) (State.answer_reply hp ha hgo)⟩
      have hbytes := s.rdBytes_wrBytes 0x12005000 (beBytes data.toNat 6)
      rw [length_beBytes] at hbytes
      exact (State.rdBytes_of_mem ((State.mem_answer hp ha hgo).trans hmem) _ _).trans hbytes
    · have hnone : s.opRefusal 7 (1#6).toNat = none := State.opRefusal_plain (by decide) h2 rfl (by decide)
      have hgo := State.operate_chunk (late := false) hnone (State.opChunk_stray data.toNat hen hd hn)
      obtain ⟨p, hsp⟩ := State.spine_answer hp ha hgo
      exact ⟨_, exec_cmdChunk 1#6 data (by rw [hsp]; rfl), by rw [hsp]; rfl,
        congrArg (Option.map (·.status)) (State.answer_reply hp ha hgo)⟩
  · intro ports a b late s u
    refine ⟨fun h => by simp only [exec, execQuery, h], fun f h => ?_⟩
    have hsh : u.shelf = s.shelf := (PickOnly.of_pick h).shelf
    have hex := exec_query late h
    refine ⟨beq_iff_eq.mp (State.pickFrame_valid h), fun hs h63 => hex.trans ?_, fun h63 => hex.trans ?_, fun hs h63 => hex.trans ?_⟩
    · unfold State.query
      dsimp only
      rw [if_neg (hs ▸ h63), if_pos (hs.trans hsh.symm)]
    · unfold State.query
      dsimp only
      rw [if_pos h63]
    · unfold State.query
      dsimp only
      rw [if_neg h63, if_neg (hsh ▸ hs)]
  · intro r ok s
    refine ⟨State.pickFrame_none, State.pickFrame_a, State.pickFrame_b, fun h h1 h2 he => ?_, fun h h1 h2 he => ?_, fun h h1 h2 => ?_,
      fun h h1 h2 => ?_, fun h h1 h2 => ?_⟩
    all_goals rw [State.pickFrame_both h, h1, h2]
    · simp only [he, bne_self_eq_false, Bool.false_eq_true, if_false]
    · simp only [bne_iff_ne.mpr he, if_true]
  · exact fun s op => ⟨congrArg Spine.reply (s.broadcast_spine op), State.broadcast_other⟩
  · intro s u r hr hp hu
    refine (exec_replyStart hr hp hu).trans ?_
    unfold replyBytes
    cases r.late
    · rfl
    · simp only [if_true, Nat.zero_mod, Nat.add_zero, Nat.reduceMod]
  · intro s bs h
    dsimp only
    rw [State.spineSend_driven bs h]
    exact ⟨rfl, State.reg_setReg _ _ _, fun k hk => State.reg_setReg_other _ _ _ _ hk.symm, rfl⟩

end Sys2Proof.Machine
end

section
/-! PROOFS. O50: excursions, the slots that the beacon governs, and the guards of the spine. -/
namespace Sys2Proof.Machine
open Sys2Proof

/-! ### Excursions -/

/-- The banks that an excursion begins to power. -/
def State.darkBanks (s : State) : List Nat :=
  (List.range 16).filter (fun b => bit (s.rdLe 0x12004000 2) b && s.domSt (28 + b) == .off)

/-- FIRC, PRB and SPTX come up, and the banks begin to power. -/
def State.excPowered (s : State) : State :=
  s.darkBanks.foldl (fun s b => s.setDom (28 + b) .rising) (((s.setDom 68 .up).setDom 1 .up).setDom 3 .up)

theorem exec_energyDetect {s : State} (port : Bool) (hl : s.reg kLevel = 2 ∨ s.reg kLevel = 3)
    (hp : bit s.rxPorts (ofBool port) = true) (he : s.spine.exc = false) : exec (.energyDetect port) s = .next
      { s.excPowered with spine := { s.excPowered.spine with
        exc := true, sdSeen := false, banks := s.excPowered.spine.banks ++ s.darkBanks.map (· + 28) } } := by
  refine if_neg ?_
  rw [hp, he]
  rcases hl with h | h <;> simp [h]

theorem State.isUp_excPowered {s : State} {d : Nat} (hd : d < 28 ∨ 44 ≤ d) :
    s.excPowered.isUp d = (((s.setDom 68 .up).setDom 1 .up).setDom 3 .up).isUp d := by
  have hmem : ∀ b ∈ s.darkBanks, b < 16 := fun b hb => List.mem_range.mp (List.mem_filter.mp hb).1
  unfold State.excPowered
  generalize ((s.setDom 68 .up).setDom 1 .up).setDom 3 .up = u
  generalize s.darkBanks = l at hmem
  induction l generalizing u with
  | nil => rfl
  | cons b t ih =>
    have hb : b < 16 := hmem b List.mem_cons_self
    rw [List.foldl_cons, ih _ (fun x hx => hmem x (List.mem_cons_of_mem _ hx))]
    unfold State.isUp
    rw [State.domSt_setDom_other _ _ _ _ (by omega)]

theorem State.mem_excPowered (s : State) : s.excPowered.mem = s.mem :=
  foldl_leaves (fun u : State => u.mem) (fun u b => u.setDom (28 + b) .rising) (fun _ _ => rfl) _ _

theorem State.isUp_setDom_up (s : State) (d : Nat) : (s.setDom d .up).isUp d = true := by
  unfold State.isUp
  rw [State.domSt_setDom]
  rfl

theorem State.isUp_setDom_other {s : State} {d e : Nat} (x : DomSt) (h : d ≠ e) : (s.setDom d x).isUp e = s.isUp e := by
  unfold State.isUp
  rw [State.domSt_setDom_other _ _ _ _ h]

theorem State.excEnd_eq (s : State) : s.excEnd.spine.exc = false ∧ s.excEnd.spine.banks = [] ∧ s.excEnd.mem = s.mem ∧
    s.excEnd.regs = s.regs := by
  unfold State.excEnd
  extract_lets on gone held s1 _ s2 s4 _ s3 _
  have h1 : s1.mem = s.mem ∧ s1.regs = s.regs :=
    ⟨foldl_leaves (fun u : State => u.mem) (fun u d => u.setDom d .off) (fun _ _ => rfl) _ _,
      foldl_leaves (fun u : State => u.regs) (fun u d => u.setDom d .off) (fun _ _ => rfl) _ _⟩
  have h3 : s3.mem = s.mem ∧ s3.regs = s.regs := by
    by_cases hd : (s2.spine.exc && s2.dark) = true
    · rw [show s3 = _ from if_pos hd]
      exact h1
    · rw [show s3 = s2 from if_neg hd]
      exact h1
  exact ⟨rfl, rfl, h3⟩

/-! ### Frames discarded -/

/-- The start delimiters of Table 11-1. -/
def knownSd (sd : Byte) : Bool := sd = 0x0F#8 || sd = 0x33#8 || sd = 0x55#8 || sd = 0x66#8

theorem exec_spineFrameDiscarded {s : State} {port : Bool} (sd : Byte) (nbits : Nat) (bytes : List Byte)
    (hp : bit s.rxPorts (ofBool port) = true) : exec (.spineFrameDiscarded port sd nbits bytes) s =
      let s0 : State := if knownSd sd then s.sdSeen else s
      if frameLen sd.toNat (byteAt bytes 0) != some nbits || bytes.length * 8 != nbits then .next (s0.count (fk 0x4000A074 16) 16 1)
      else .next (if (if sd = 0x33#8 then crc8 (bytes.take (bytes.length - 1)) == byteAt bytes (bytes.length - 1)
        else crc16 (bytes.take (bytes.length - 2)) == ofBe (bytes.drop (bytes.length - 2))) then s0 else s0.crcFail) :=
  if_neg (by rw [hp]; decide)

theorem knownSd_of_frameLen {sd : Byte} {b n : Nat} (h : frameLen sd.toNat b = some n) : knownSd sd = true := by
  unfold frameLen at h
  have hsd : sd.toNat = 0x0F ∨ sd.toNat = 0x33 ∨ sd.toNat = 0x55 ∨ sd.toNat = 0x66 := by
    split at h
    · exact .inl ‹_›
    · exact .inr (.inl ‹_›)
    · exact .inr (.inr (.inl ‹_›))
    · exact .inr (.inr (.inr ‹_›))
    · cases h
  unfold knownSd
  rcases hsd with h | h | h | h <;> simp [← BitVec.toNat_inj, h]

theorem knownSd_of_none {sd : Byte} {b : Nat} (h : frameLen sd.toNat b = none) : knownSd sd = decide (sd = 0x66#8) := by
  unfold knownSd
  by_cases h1 : sd = 0x0F#8
  · subst h1; cases h
  · by_cases h2 : sd = 0x33#8
    · subst h2; cases h
    · by_cases h3 : sd = 0x55#8
      · subst h3; cases h
      · simp [h1, h2, h3]

/-! ### The head's beacon and reports -/

theorem exec_headBeacon {s u : State} (conflict : Bool) (ha : s.headActive = true) (hr : s.spine.reply = none)
    (hu : s.useArb 16 (sptxReq 0) = some u) : exec (.headBeacon conflict) s = .next
      (let s1 : State := u.spineSend (withCrc16 0x0F u.headBody)
       let s2 : State := { s1 with spine := { s1.spine with headStop := conflict } }
       if conflict then s2.setFlag (kSpineEvent 4) true else s2) := by
  simp only [exec, execHeadBeacon, ha, hr, hu]
  rfl

/-- Of the spine a transmission changes what stands on the wire. -/
theorem State.spineSend_eq (s : State) (bs : List Byte) : ∃ x, (s.spineSend bs).spine = { s.spine with tx := x } ∧
    (s.spineSend bs).mem = s.mem ∧ ∀ k, k ≠ fk 0x4000A074 0 → (s.spineSend bs).reg k = s.reg k := by
  unfold State.spineSend
  split
  · exact ⟨s.spine.tx, rfl, rfl, fun _ _ => rfl⟩
  · exact ⟨bs, rfl, rfl, fun k hk => State.reg_setReg_other _ _ _ _ hk.symm⟩

theorem ArbOnly.spine {i : Nat} {s t : State} (h : ArbOnly i s t) : t.spine = s.spine := by
  obtain ⟨⟨a, r, rfl⟩, -⟩ := h
  rfl

/-- The fragment that leaves, and the reports queued behind it. -/
def State.reportsLeft (s : State) (r : Rpt) (rest : List Rpt) : List Rpt :=
  if s.rptFrags r.buf ≤ r.sent + 1 then rest else { r with sent := r.sent + 1, ticks := 0 } :: rest

theorem exec_reportFragment {s u : State} {k : Fin 32} {r : Rpt} {rest : List Rpt} (hq : s.spine.reports = r :: rest)
    (ho : s.slotOk = true) (hs : s.reportSlot k = true) (hown : s.slotOwner k = s.shelf) (hr : s.spine.reply = none)
    (hu : s.useArb 16 (sptxReq 2) = some u) : ∃ bs, exec (.reportFragment k) s = .next
      (({ u with spine := { u.spine with reports := u.reportsLeft r rest } } : State).spineSend bs) := by
  simp only [exec, execReportFragment, hq, ho, hs, hown, hr, hu]
  unfold State.reportsLeft
  by_cases hl : u.rptFrags r.buf ≤ r.sent + 1
  · simp only [hl]
    exact ⟨_, by simp; rfl⟩
  · simp only [hl]
    exact ⟨_, by simp; rfl⟩

/-- A report that has waited eight ticks is dropped and reported (R259). -/
theorem exec_undelivered {s : State} {r : Rpt} (h : s.spine.reports.find? (fun r => decide (8 ≤ r.ticks)) = some r) :
    ∃ t, exec .undelivered s = .next t ∧ t.spine.reports = s.spine.reports.filter (fun x => x.buf != r.buf) ∧
      t.flag (kProbeEvent 1) = true ∧ t.reg (fk 0x4000B048 0) = s.rptTag r.buf := by
  simp only [exec, execUndelivered, h]
  refine ⟨_, rfl, ?_⟩
  generalize hv : (State.setReg (State.setFlag _ (kProbeEvent 1) true) (fk 0x4000B048 0) (s.rptTag r.buf)) = v
  have hreports : v.spine.reports = s.spine.reports.filter (fun x => x.buf != r.buf) := by rw [← hv]; rfl
  have hflag : v.flag (kProbeEvent 1) = true := by
    rw [← hv, State.flag_setReg_other _ _ (by decide)]
    exact State.flag_setFlag _ (kProbeEvent 1) true
  have htag : v.reg (fk 0x4000B048 0) = s.rptTag r.buf := by rw [← hv]; exact State.reg_setReg _ _ _
  split
  · rw [State.raise_spine, State.flag_raise, State.reg_raise]
    exact ⟨hreports, hflag, htag⟩
  · split
    · exact ⟨hreports, hflag, htag⟩
    · exact ⟨hreports, (State.flag_setReg_other _ _ (by decide)).trans hflag,
        (State.reg_setReg_other _ _ _ _ (by decide)).trans htag⟩

/-! ### Pair slots -/

theorem exec_pairTx {s u : State} (hf : s.pairFrame = true) (ho : s.slotOk = true) (hs : s.pairSender = true)
    (hn : s.spine.pairSent = false) (ht : s.reg kTxTail ≠ s.reg (fk 0x4000B018 0)) (hu : s.useArb 16 (sptxReq 3) = some u) :
    exec .pairTx s = .next (({ u with spine := { u.spine with pairSent := true } } : State).spineSend
      (withCrc16 0x66 ([BitVec.ofNat 8 (u.shelf + 64), BitVec.ofNat 8 u.pairPeer, BitVec.ofNat 8 (byteAt u.pairOldest 4 % 16)] ++
        u.pairOldest.take 4))) := by
  simp only [exec, execPairTx, hf, ho, hs, hn, hu]
  exact if_neg (by simpa using ht)

theorem not_pair_skipped {s : State} (hf : s.pairFrame = true) (ho : s.slotOk = true) (hs : s.pairSender = false) :
    ¬(!(s.pairFrame && s.slotOk && !s.pairSender)) = true := by
  rw [hf, ho, hs]; decide

theorem exec_pair_none {s u : State} {frame : Rx 72} (hf : s.pairFrame = true) (ho : s.slotOk = true) (hs : s.pairSender = false)
    (h : s.pickFrame frame (crc16Ok 9) = (none, u)) : exec (.pair frame) s = .next u := by
  simp only [exec, execPair, h]
  exact if_neg (not_pair_skipped hf ho hs)

theorem exec_pair_some {s u : State} {frame : Rx 72} {f : BitVec 72} (hf : s.pairFrame = true) (ho : s.slotOk = true)
    (hs : s.pairSender = false) (h : s.pickFrame frame (crc16Ok 9) = (some f, u)) :
    exec (.pair frame) s = .next (u.pairTake (beBytes f.toNat 9)) := by
  simp only [exec, execPair, h]
  exact if_neg (not_pair_skipped hf ho hs)

/-- A transmission that its arbiter may not grant: memory, the spine but the wire, and the registers but two counters stay. -/
theorem State.sent_or_not (v : State) (bs : List Byte) : ∃ x,
    ((v.useArb 16 (sptxReq 3)).elim v (·.spineSend bs)).spine = { v.spine with tx := x } ∧
    ((v.useArb 16 (sptxReq 3)).elim v (·.spineSend bs)).mem = v.mem ∧
    ∀ k, k ≠ fk 0x4000A074 0 → k ≠ kArb 16 0x14 0 → ((v.useArb 16 (sptxReq 3)).elim v (·.spineSend bs)).reg k = v.reg k := by
  cases h : v.useArb 16 (sptxReq 3) with
  | none => exact ⟨v.spine.tx, rfl, rfl, fun _ _ _ => rfl⟩
  | some u =>
    have hab := ArbOnly.useArb h
    obtain ⟨x, hsp, hm, hr⟩ := u.spineSend_eq bs
    exact ⟨x, hab.spine ▸ hsp, hm.trans hab.mem, fun k h1 h2 => (hr k h1).trans (hab.2 (by decide) k h2)⟩

/-- The state after a new PAIR frame has been taken, before its acknowledgement. -/
def State.pairStored (s : State) (bs : List Byte) : State :=
  let s0 : State := s.frameAccepted
  let s1 : State := { s0 with spine := { s0.spine with pairDone := true } }
  let s2 : State := s1.wrBytes (0x1200C200 + 8 * s.reg kRxHead)
    ((bs.drop 3).take 4 ++ [BitVec.ofNat 8 (byteAt bs 2 % 16), 0#8, 0#8, 0#8])
  { s2.setReg kRxHead ((s.reg kRxHead + 1) % 64) with spine := { s2.spine with pairSeq := some (byteAt bs 2 % 16) } }

theorem State.pairTake_new {s : State} {bs : List Byte} (hk : byteAt bs 0 / 64 = 1) (hp : byteAt bs 0 % 64 = s.pairPeer)
    (hs : byteAt bs 1 % 64 = s.shelf) (hseq : s.spine.pairSeq ≠ some (byteAt bs 2 % 16))
    (hroom : (s.reg kRxHead + 1) % 64 ≠ s.reg (fk 0x4000B01C 0)) : ∃ ack,
      s.pairTake bs = ((s.pairStored bs).useArb 16 (sptxReq 3)).elim (s.pairStored bs) (·.spineSend ack) := by
  have hroom' : ¬(s.reg kRxHead + 1) % 64 = s.frameAccepted.reg (fk 0x4000B01C 0) := by
    rw [State.frameAccepted, State.count, State.reg_setReg_other _ _ _ _ (by decide)]
    exact hroom
  unfold State.pairTake
  rw [if_neg (by simp [hk, hp, hs])]
  extract_lets seq h s0 _ s1 s2 _ _ r ack
  have hr : r = (0, s.pairStored bs) := (if_neg hseq).trans (if_neg hroom')
  rw [hr]
  exact ⟨_, rfl⟩

theorem State.pairStored_spec {s : State} {bs : List Byte} (hl : bs.length = 9) :
    (s.pairStored bs).rdBytes (0x1200C200 + 8 * s.reg kRxHead) 4 = (bs.drop 3).take 4 ∧
      (s.pairStored bs).reg kRxHead = (s.reg kRxHead + 1) % 64 ∧ (s.pairStored bs).spine.pairSeq = some (byteAt bs 2 % 16) ∧
      (s.pairStored bs).spine.pairDone = true := by
  have hlen : ((bs.drop 3).take 4).length = 4 := by simp [hl]
  refine ⟨?_, State.reg_setReg _ _ _, rfl, ?_⟩
  · apply List.ext_getElem
    · rw [hlen]; simp [State.rdBytes]
    · intro i h1 h2
      have hi : i < 4 := by simpa [State.rdBytes] using h1
      simp only [State.rdBytes, List.getElem_map, List.getElem_range]
      refine (State.rd_wrBytes_inside _ _ i _ (by simp; omega)).trans ?_
      exact List.getElem_append_left h2
  · show (State.wrBytes _ _ _).spine.pairDone = true
    rw [State.wrBytes_eq]

section
variable {s t : State} (h : PickOnly s t)
include h

theorem PickOnly.pairPeer : t.pairPeer = s.pairPeer := h.2 _ (by decide) (by decide)
theorem PickOnly.txTail : t.reg kTxTail = s.reg kTxTail := h.2 _ (by decide) (by decide)

theorem PickOnly.pairOldest : t.pairOldest = s.pairOldest := by
  unfold State.pairOldest
  rw [h.txTail, State.rdBytes_of_mem h.mem]

end

theorem exec_pairAck {s u : State} {frame : Rx 88} {f : BitVec 88} (he : s.flag kPairEn = true) (hs : s.pairSender = true)
    (hn : s.spine.pairSent = true) (h : s.pickFrame frame (crc16Ok 11) = (some f, u)) :
    exec (.pairAck frame) s = .next (u.pairAcked (beBytes f.toNat 11)) := by
  simp only [exec, execPairAck, h]
  exact if_neg (by rw [he, hs, hn]; decide)

theorem State.pairAcked_valid {u : State} {bs : List Byte} (hk : byteAt bs 0 / 64 = 2) (hp : byteAt bs 0 % 64 = u.pairPeer)
    (hs : byteAt bs 1 % 64 = u.shelf) (hseq : byteAt bs 2 % 16 = byteAt u.pairOldest 4 % 16) :
    (u.pairAcked bs).spine.pairDone = true ∧
      (u.pairAcked bs).reg kTxTail = if byteAt bs 2 / 16 = 0 then (u.reg kTxTail + 1) % 64 else u.reg kTxTail := by
  have htail : u.frameAccepted.reg kTxTail = u.reg kTxTail := State.reg_setReg_other _ _ _ _ (by decide)
  unfold State.pairAcked
  rw [if_neg (by simp [hk, hp, hs, hseq])]
  extract_lets s0 _ s1
  have htail1 : s1.reg kTxTail = u.reg kTxTail := htail
  split
  · exact ⟨rfl, (State.reg_setReg _ _ _).trans (by rw [htail1])⟩
  · exact ⟨rfl, htail1⟩

/-- Settles O50. That a transmission leaves once the transmitter's arbiter has granted it is log entry 141. -/
theorem spineSlotsAndGuards : Obligations.SpineSlotsAndGuards := by
  unfold Obligations.SpineSlotsAndGuards
  intro s
  refine ⟨?_, ?_, ?_, ?_, rfl, ?_, s.excEnd_eq, ?_, ?_, ?_, ?_, ?_, fun r hr => exec_undelivered hr, ?_, ?_, ?_, ?_, ?_, ?_, ?_, ?_,
    fun port => rfl⟩
  · intro port hl hp he
    have hup (d : Nat) (hd : d < 28 ∨ 44 ≤ d) := State.isUp_excPowered (s := s) hd
    refine ⟨_, exec_energyDetect port hl hp he, rfl, rfl, (hup 68 (by decide)).trans ?_, (hup 1 (by decide)).trans ?_,
      (hup 3 (by decide)).trans ?_, s.mem_excPowered⟩
    · rw [State.isUp_setDom_other _ (by decide), State.isUp_setDom_other _ (by decide), State.isUp_setDom_up]
    · rw [State.isUp_setDom_other _ (by decide), State.isUp_setDom_up]
    · exact State.isUp_setDom_up _ 3
  · exact fun bank hb hd => congrArg Host.Outcome.next (if_pos (by rw [hb, hd]; rfl))
  · exact fun he hs => congrArg Host.Outcome.next (if_pos (by rw [he, hs]; rfl))
  · exact fun hs => congrArg Host.Outcome.next (if_neg (by rw [hs]; simp))
  · exact fun sd b0 b1 he hf => congrArg Host.Outcome.next (if_pos (by rw [he, hf]; rfl))
  · intro port sd nbits bytes hp
    have hex := exec_spineFrameDiscarded sd nbits bytes hp
    refine ⟨fun hn => hex.trans ?_, fun n hn hne => hex.trans ?_, fun hn hl h33 hcrc => hex.trans ?_⟩
    · refine (if_pos (by rw [hn]; rfl)).trans ?_
      rw [knownSd_of_none hn]
      by_cases h66 : sd = 0x66#8 <;> simp [h66]
    · refine (if_pos ?_).trans ?_
      · rw [hn]
        simp [Ne.symm hne]
      · rw [knownSd_of_frameLen hn] <;> rfl
    · refine (if_neg (by rw [hn, hl]; simp)).trans ?_
      rw [if_neg h33, knownSd_of_frameLen hn]
      exact congrArg Host.Outcome.next (if_neg (by simpa using hcrc))
  · intro u ha hr hu htx
    refine ⟨_, exec_headBeacon false ha hr hu, ?_⟩
    rw [State.spineSend_driven _ htx]
    exact ⟨rfl, rfl, rfl⟩
  · intro u ha hr hu
    exact ⟨_, exec_headBeacon true ha hr hu, rfl, State.flag_setFlag _ (kSpineEvent 4) true⟩
  · intro k r rest u hq ho hs hown hr hu
    obtain ⟨bs, hex⟩ := exec_reportFragment hq ho hs hown hr hu
    obtain ⟨x, hsp, hm, -⟩ := State.spineSend_eq ({ u with spine := { u.spine with reports := u.reportsLeft r rest } } : State) bs
    refine ⟨_, hex, hm, fun hl => ?_, fun hl => ?_⟩
    · exact (congrArg Spine.reports hsp).trans (if_pos hl)
    · exact (congrArg Spine.reports hsp).trans (if_neg (Nat.not_le.mpr hl))
  · intro he hh hs h0 hrun
    unfold State.headTick
    rw [if_neg (by rw [he, hh, hs, h0]; decide), hrun]
    simp only [if_true]
    rw [← hrun]
  · intro u hf ho hs hn ht hu htx
    refine ⟨_, exec_pairTx hf ho hs hn ht hu, ?_⟩
    rw [State.spineSend_driven _ (show ({ u with spine := { u.spine with pairSent := true } } : State).txPorts ≠ 0 from htx)]
    exact ⟨rfl, rfl⟩
  · exact fun frame hf ho hs => ⟨fun u h => exec_pair_none hf ho hs h,
      fun f u h => ⟨beq_iff_eq.mp (State.pickFrame_valid h), exec_pair_some hf ho hs h⟩⟩
  · intro bs hl _ hk hp hs hseq hroom
    obtain ⟨ack, htake⟩ := State.pairTake_new hk hp hs hseq hroom
    obtain ⟨x, hsp, hm, hr⟩ := (s.pairStored bs).sent_or_not ack
    obtain ⟨hbytes, hhead, hps, hpd⟩ := State.pairStored_spec (s := s) hl
    dsimp only
    rw [htake]
    refine ⟨(State.rdBytes_of_mem hm _ _).trans hbytes, (hr _ (by decide) (by decide)).trans hhead, ?_, ?_⟩
    · rw [hsp]; exact hps
    · rw [hsp]; exact hpd
  · intro frame f u he hs hn h bs hk hp hsh hseq
    have hpick := PickOnly.of_pick h
    obtain ⟨hdone, htail⟩ := State.pairAcked_valid (u := u) hk (hp.trans hpick.pairPeer.symm) (hsh.trans hpick.shelf.symm)
      (hseq.trans (by rw [hpick.pairOldest]))
    refine ⟨beq_iff_eq.mp (State.pickFrame_valid h), _, exec_pairAck he hs hn h, hdone, htail.trans ?_⟩
    rw [hpick.txTail]
  · exact fun hf hd => congrArg Host.Outcome.next (if_pos (by rw [hf, hd]; rfl))
  · exact fun port hp h0 he => congrArg Host.Outcome.next (if_pos (by rw [hp, h0, he]; rfl))
  · exact fun port hp => congrArg Host.Outcome.next (if_pos hp)
  · exact fun port h0 => congrArg Host.Outcome.next (if_pos (by rw [h0]; rfl))

end Sys2Proof.Machine
end

section
/-! PROOFS. O59: the events of power, levels, clocks, memories, engines and contexts complete. -/
namespace Sys2Proof.Machine
open Sys2Proof

/-! ### The gauge (R45, R51, R52) -/

theorem State.startSample_eq (s : State) : ∃ r h, s.startSample = { s with regs := r, harv := h } := by
  unfold State.startSample
  split
  · exact ⟨s.regs, s.harv, rfl⟩
  · split
    · exact ⟨_, _, rfl⟩
    · split
      · exact ⟨_, _, rfl⟩
      · exact ⟨s.regs, s.harv, rfl⟩

theorem State.allow_startSample (s : State) : s.startSample.allow = s.allow := by
  unfold State.startSample State.allow
  split
  · rfl
  · split
    · exact State.reg_setFlag_other _ _ _ _ (by decide)
    · split
      · exact State.reg_setFlag_other _ _ _ _ (by decide)
      · rfl

theorem State.publish_cat_dom (s : State) (v h d n : Nat) : (s.publish v h d n).cat = s.cat ∧ (s.publish v h d n).dom = s.dom := by
  unfold State.publish
  extract_lets vc e w cyc old new hv s1 s2 s3 s4 s5 s6
  have h4 : s4.cat = s.cat ∧ s4.dom = s.dom := by
    simp only [s4, s3, s2, s1, State.setFlag_cat, State.setReg_cat, State.setFlag_dom, State.setReg_dom, and_self]
  clear_value s4
  have h5 : s5.cat = s.cat ∧ s5.dom = s.dom := by
    unfold s5
    split <;> exact h4
  clear_value s5
  have h6 : s6.cat = s.cat ∧ s6.dom = s.dom := by
    unfold s6
    split <;> exact h5
  clear_value s6
  have hhal (i : Nat) : (s6.halyard i).cat = s.cat ∧ (s6.halyard i).dom = s.dom := by
    obtain ⟨r, p, hh⟩ := s6.halyard_eq i
    rw [hh]
    exact h6
  split
  · exact hhal 10
  · split
    · exact hhal 11
    · exact h6

/-- At allowance 3 and above, with FRAME powered and bank 15 not held, an update publishes and starts a sample, no more. -/
theorem exec_gaugeUpdate {s : State} {v h d n : Nat} (ha : s.aon = true) (hh : s.cat.hold15 = false) (h4 : s.domSt 4 ≠ .off)
    (hal : 3 ≤ (s.publish v h d n).reg kAllow) : exec (.gaugeUpdate v h d n) s = .next (s.publish v h d n).startSample := by
  obtain ⟨hcat, hdom⟩ := s.publish_cat_dom v h d n
  obtain ⟨r, x, ht⟩ := (s.publish v h d n).startSample_eq
  have hallow : 3 ≤ (s.publish v h d n).startSample.allow := (State.allow_startSample _).symm ▸ hal
  refine (if_neg (by rw [ha]; decide)).trans (congrArg Host.Outcome.next ?_)
  generalize (s.publish v h d n).startSample = u at ht hallow
  have hoff : ¬(u.domSt 4 == .off) = true := by
    rw [ht, show State.domSt { s.publish v h d n with regs := r, harv := x } 4 = s.domSt 4 by rw [State.domSt, hdom]; rfl]
    simpa using h4
  have hgo : u.letGo15 = u := if_neg (by rw [ht, hcat]; simp [hh])
  rw [if_neg hoff, hgo, if_neg (by omega), if_neg (by simp; omega)]

/-! ### The supplies (R66) and the clocks -/

theorem State.convEnable_harv (s : State) (c : Nat) (en : Bool) : (s.convEnable c en).harv = s.harv := by
  unfold State.convEnable
  split
  · rfl
  · refine foldl_leaves (fun u : State => u.harv) _ (fun u k => ?_) _ _
    split
    · split <;> rfl
    · rfl

theorem State.loseConv_harv (s : State) (c : Nat) : (s.loseConv c).harv = s.harv := s.convEnable_harv c false

theorem State.loseBayGroup_harv (s : State) (g : Nat) : (s.loseBayGroup g).harv = s.harv := by
  simp only [State.loseBayGroup, State.setReg_harv]

theorem State.dropRegs_harv (s : State) (lo hi : Nat) : (s.dropRegs lo hi).harv = s.harv := rfl

theorem State.dropBlock_harv (s : State) (b : Nat) : (s.dropBlock b).harv = s.harv := rfl

theorem State.loseArb_harv (s : State) (d : Nat) : (s.loseArb d).harv = s.harv := rfl

theorem harv_ite {c : Prop} [Decidable c] {a b : State} {h : Harv} (ha : a.harv = h) (hb : b.harv = h) : (if c then a else b).harv = h := by
  split
  · exact ha
  · exact hb

/-- The domains of bays, conversion, ports and clocks take nothing of the harvester with them. -/
theorem State.offDom_harv (s : State) {d : Nat} (h : 50 ≤ d) : (s.offDom d).harv = s.harv := by
  unfold State.offDom
  split
  · rfl
  · unfold State.loseDom
    rw [if_neg (by omega), if_neg (by omega), if_neg (by omega), if_neg (by omega), if_neg (by omega), if_neg (by omega),
      if_neg (by omega), if_neg (by omega), if_neg (by omega), if_neg (by omega), if_neg (by omega), if_neg (by omega),
      if_neg (by omega), if_neg (by omega)]
    refine harv_ite (harv_ite ?_ ?_) (harv_ite rfl (harv_ite (harv_ite ?_ ?_) ?_))
    · simp only [State.dropRegs_harv, State.loseConv_harv, State.loseArb_harv, State.setDom_harv]
    · simp only [State.dropBlock_harv, State.dropRegs_harv, State.loseConv_harv, State.loseArb_harv, State.setDom_harv]
    · simp only [State.dropRegs_harv, State.loseBayGroup_harv, State.loseArb_harv, State.setDom_harv]
    · simp only [State.dropBlock_harv, State.dropRegs_harv, State.loseBayGroup_harv, State.loseArb_harv, State.setDom_harv]
    refine harv_ite rfl (harv_ite rfl (harv_ite ?_ (harv_ite ?_ (harv_ite ?_ (harv_ite rfl (harv_ite rfl rfl))))))
    all_goals simp only [State.setFlag_harv, State.loseArb_harv, State.setDom_harv]

theorem foldl_offDom_harv (l : List Nat) (h : ∀ d ∈ l, 50 ≤ d) (s : State) : (l.foldl (fun s d => s.offDom d) s).harv = s.harv := by
  induction l generalizing s with
  | nil => rfl
  | cons d t ih =>
    rw [List.foldl_cons, ih fun x hx => h x (List.mem_cons_of_mem _ hx)]
    exact s.offDom_harv (h d List.mem_cons_self)

theorem exec_stbyLost {s : State} (hs : s.harv.st = .standby) (hp : s.harv.por = false) :
    ∃ t, exec .stbyLost s = .next t ∧ t.harv.st = .harvest := by
  have ha : ({ s with harv := { s.harv with st := .harvest } } : State).aon = true := by simp [State.aon, hp]
  refine ⟨_, (if_neg (by simp [hs])).trans (if_neg (by simp [ha])), ?_⟩
  obtain ⟨r, p, hh⟩ := (State.forceFirc (shedDomains.foldl (fun s d => s.offDom d) ((({ s with harv := { s.harv with st := .harvest } } :
    State).setFlag (kHarvStat 0) false).setFlag (kHarvEvent 6) true))).halyard_eq 8
  rw [hh]
  simp only [State.forceFirc, State.setFlag_harv, State.setReg_harv, foldl_offDom_harv shedDomains (by decide)]

theorem State.unanchor_flags (s0 s : State) : (s0.unanchor s).flag (kFrameStat 0) = false ∧
    ∀ k, k ≠ kFrameStat 0 → k ≠ kFrameEvent 1 → (s0.unanchor s).flag k = s.flag k := by
  unfold State.unanchor
  dsimp only
  split
  · exact ⟨(State.flag_setFlag_other _ _ _ _ (by decide)).trans (State.flag_setFlag _ _ _),
      fun k h0 h1 => (State.flag_setFlag_other _ _ _ _ h1.symm).trans (State.flag_setFlag_other _ _ _ _ h0.symm)⟩
  · exact ⟨State.flag_setFlag _ _ _, fun k h0 _ => State.flag_setFlag_other _ _ _ _ h0.symm⟩

theorem exec_xt1Fail {s : State} (ha : s.aon = true) (h1 : s.flag (kClkStat 0) = true) :
    ∃ t, exec .xt1Fail s = .next t ∧ t.flag (kClkStat 0) = false ∧ t.flag (kRtcEvent 2) = true := by
  refine ⟨_, congrArg Host.Outcome.next (if_pos (by rw [ha, h1]; rfl)), ?_, ?_⟩
  · rw [State.flag_setFlag_other _ _ _ _ (by decide), State.flag_setFlag_other _ _ _ _ (by decide),
      (State.unanchor_flags _ _).2 _ (by decide) (by decide), State.flag_clkEvent_other _ _ (by decide),
      State.flag_setFlag_other _ _ _ _ (by decide), State.flag_setFlag]
  · rw [State.flag_setFlag_other _ _ _ _ (by decide), State.flag_setFlag]

theorem exec_xt2Fail {s : State} (h67 : s.isUp 67 = true) (h1 : s.flag (kClkStat 1) = false) (h0 : s.reg kPhase = 0) :
    exec .xt2Fail s = .next (s.clkEvent 1) := by
  refine (if_neg (by rw [h67, h1]; decide)).trans (congrArg Host.Outcome.next (if_neg ?_))
  rw [State.reg_clkEvent_other _ _ (by decide), h0]
  decide

/-! ### Cleats and waits (R225–R231) -/

theorem State.cleatOk_mmode {s : State} {ctx : Nat} (c : Nat) (h : s.fenced ctx = false) : s.cleatOk c ctx false = true := by
  simp [State.cleatOk, h]

theorem State.value_hold (s : State) (c v ctx : Nat) : ((s.hold c v ctx).cleat c).value = v := by
  rw [State.hold, State.cleat_setCleat]

theorem State.storeCleat_ent (s : State) (core cleat v : Nat) {word : Nat} (hw : word < 4) :
    s.storeCleat core (s.cleatEnt core cleat word v) =
      if (s.cleatStore cleat word (s.ctxOf core) v (s.core core).tmode).1 = .busErr then
        (s.cleatStore cleat word (s.ctxOf core) v (s.core core).tmode).2.storeErr core (s.cleatEnt core cleat word v)
      else (s.cleatStore cleat word (s.ctxOf core) v (s.core core).tmode).2 := by
  have ho : 0x50000000 + 16 * cleat + 4 * word - 0x50000000 = 16 * cleat + 4 * word := by omega
  have hc : (16 * cleat + 4 * word) / 16 = cleat := by omega
  have hm : (16 * cleat + 4 * word) % 16 / 4 = word := by omega
  unfold State.storeCleat State.cleatEnt
  dsimp only
  rw [ho, hc, hm, if_pos rfl]

section
variable {s : State} {core : Fin 5} (cleat : Fin 256) (hl : s.lockReach core = true) (ht : (s.core core).tmode = false)
  (hf : s.fenced (s.ctxOf core) = false)
include hl ht hf

theorem exec_cleatValueWrite {v : Word} (h0 : (s.cleat cleat).value = 0) (hv : freeValue v.toNat = false) :
    exec (.cleatValueWrite core cleat v) s = .next (s.hold cleat v.toNat (s.ctxOf core)) := by
  have hst : s.cleatStore cleat 0 (s.ctxOf core) v.toNat false = (.data 0, s.hold cleat v.toNat (s.ctxOf core)) := by
    unfold State.cleatStore
    rw [if_neg (by rw [State.cleatOk_mmode _ hf]; decide)]
    simp [h0, freeValue, State.cleatWrite, show ¬v.toNat = 0 ∧ ¬v.toNat = 4294967294 ∧ ¬v.toNat = 4294967295 by
      simpa [freeValue, and_assoc] using hv]
  refine congrArg Host.Outcome.next ((if_pos hl).trans ((State.storeCleat_ent s core cleat v.toNat (by decide)).trans ?_))
  rw [ht, hst]
  exact if_neg (by simp)

theorem exec_cleatAcas {v : Word} (h0 : (s.cleat cleat).value = 0) (hv : freeValue v.toNat = false) :
    exec (.cleatAcas core cleat 0#32 v) s = .next (s.hold cleat v.toNat (s.ctxOf core)) := by
  have hsw : s.cleatSwap cleat 0 (s.ctxOf core) (0#32).toNat v.toNat false = (.data 0, s.hold cleat v.toNat (s.ctxOf core)) := by
    unfold State.cleatSwap
    rw [if_neg (by rw [State.cleatOk_mmode _ hf]; decide)]
    simp [h0, freeValue, State.cleatWrite, show ¬v.toNat = 0 ∧ ¬v.toNat = 4294967294 ∧ ¬v.toNat = 4294967295 by
      simpa [freeValue, and_assoc] using hv]
  refine (if_neg (by rw [hl]; decide)).trans ?_
  rw [ht, hsw]

theorem exec_cleatWaitRead (rd : Fin 16) (h0 : (s.cleat cleat).value = 0) (hw : ∀ w ∈ s.lock.waits, w.ctx ≠ s.ctxOf core) :
    ∃ x, exec (.cleatWaitRead core cleat rd) s = .next ((s.hold cleat (s.token (s.ctxOf core)) (s.ctxOf core)).setCore core x) := by
  have hrec : s.waitRec cleat (s.ctxOf core) = none := List.find?_eq_none.mpr fun w hm => by simp [hw w hm]
  have hld : s.cleatLoad cleat 1 (s.ctxOf core) false = (.data 0, s.hold cleat (s.token (s.ctxOf core)) (s.ctxOf core)) := by
    unfold State.cleatLoad
    rw [if_neg (by rw [State.cleatOk_mmode _ hf]; simp)]
    simp only [hrec, h0, if_true]
  simp only [exec, execCleatWaitRead, ht, hld]
  exact ⟨_, if_neg (by rw [hl]; decide)⟩

theorem exec_cleatLeaseWrite (hh : (s.cleat cleat).holder = some (s.ctxOf core)) : exec (.cleatLeaseWrite core cleat) s =
    .next (s.setCleat cleat { s.cleat cleat with lease := (s.cleat cleat).load }) := by
  have hst : s.cleatStore cleat 2 (s.ctxOf core) 0 false = (.data 0, s.setCleat cleat { s.cleat cleat with lease := (s.cleat cleat).load }) := by
    unfold State.cleatStore
    rw [if_neg (by rw [State.cleatOk_mmode _ hf]; decide)]
    exact if_pos hh
  refine congrArg Host.Outcome.next ((if_pos hl).trans ((State.storeCleat_ent s core cleat 0 (by decide)).trans ?_))
  rw [ht, hst]
  exact if_neg (by simp)

end

theorem State.core_breakReport (s : State) (x size cl c : Nat) : (s.breakReport x size cl).core c = s.core c := by
  unfold State.breakReport
  extract_lets last s1 s2
  clear_value last
  rw [State.core_raise]
  exact (State.core_of_setReg _ _ _ _).trans ((State.core_of_setReg _ _ _ _).trans ((State.core_of_setReg _ _ _ _).trans
    ((State.core_of_setReg _ _ _ _).trans (State.core_count s _ _ _ _))))

theorem State.coreOf_breakReport (s : State) (x size cl n : Nat) : (s.breakReport x size cl).coreOf n = s.coreOf n := by
  unfold State.coreOf
  simp only [State.core_breakReport]

/-- The victim waits on no cleat and runs on no core: its context is made runnable with the break marked. -/
theorem exec_waitBroken {s : State} {v : Nat} (h48 : s.isUp 48 = true) (he : s.flag (fk 0x40006000 0) = true)
    (hv : s.victim s.waitCycle = some v) (hw : s.waitsOn v = none) (hc : s.coreOf v = none) :
    ∃ t, exec .waitBroken s = .next (s.settle t) ∧ (t.slot v).state = 1 ∧ (t.slot v).broken = true := by
  have hf : s.lock.waits.find? (fun w => w.ctx == v && w.result.isNone) = none := Option.map_eq_none_iff.mp hw
  have hc' := (s.coreOf_breakReport v s.waitCycle.length 0xFF v).trans hc
  let u := s.breakReport v s.waitCycle.length 0xFF
  refine ⟨u.setSlot v { u.slot v with state := 1, broken := true, wfeOrder := none },
    (if_neg (by rw [h48, he]; decide)).trans ?_, ?_⟩
  · simp only [hv, hf, hc', u]
  · rw [State.slot_setSlot]
    exact ⟨rfl, rfl⟩

/-- Settles O59: each clause by the lemma of its command, where an earlier obligation states that command's effect. -/
theorem eventsOfPowerClocksAndMemoriesComplete : Obligations.EventsOfPowerClocksAndMemoriesComplete := by
  unfold Obligations.EventsOfPowerClocksAndMemoriesComplete
  intro s
  -- power
  refine ⟨?_, ?_, ?_, ?_, ?_, ?_, ?_, ?_, ?_, ?_, ?_, ?_, ?_, ?_, ?_, ?_⟩
  · exact fun v h d n => exec_gaugeUpdate
  · intro input uv ha hs
    refine ⟨_, exec_mpptSampleEnd ha hs uv, ?_, (State.reg_setAct_other _ ?_ ?_).trans (State.reg_setReg _ _ _)⟩
    · cases input <;> rfl
    · cases input <;> decide
    · cases input <;> decide
  · exact fun ha hs => congrArg Host.Outcome.next (if_pos (by simp [ha, hs]))
  · intro hc hs hw hm
    refine ⟨_, congrArg Host.Outcome.next (if_pos (by simp [hc, hs, hw, hm])), ?_, fun d => rfl⟩
    exact (powerLossKeepCellAndStandby.1 s.loseNor).2.1
  · intro ha
    refine ⟨_, congrArg Host.Outcome.next (if_pos ha), ?_, rfl⟩
    rw [State.flag_setAct_other _ (by decide) (by decide), State.flag_setFlag_other _ _ _ _ (by decide),
      State.flag_setFlag_other _ _ _ _ (by decide), State.flag_setFlag]
  · intro ha hf
    refine ⟨_, congrArg Host.Outcome.next (if_pos (by simp [ha, hf])), ?_⟩
    rw [State.flag_setAct_other _ (by decide) (by decide), State.flag_setFlag]
  · intro ha hv hl
    refine ⟨_, congrArg Host.Outcome.next (if_pos (by rw [ha, hv, hl]; rfl)), ?_, ?_⟩
    · rw [State.flag_halyard _ _ _ (by decide) (by decide), State.flag_setFlag_other _ _ _ _ (by decide), State.flag_setFlag]
    · obtain ⟨r, p, hh⟩ := State.halyard_eq (((({ s with harv := { s.harv with lowTicks := some 0 } } : State).setFlag (kHarvStat 3)
        true).setFlag (kHarvEvent 3) true)) 7
      rw [hh]
      rfl
  · exact fun ha hl => ⟨_, congrArg Host.Outcome.next (if_pos (by rw [ha, hl]; rfl)), State.flag_setFlag _ _ _, rfl⟩
  · intro n ha hl ht hn he hr h0 hlev
    refine congrArg Host.Outcome.next ((if_pos (by simp [ha, hl, ht, hn])).trans ?_)
    unfold State.storeLowEntry
    simp [he, hr, h0, hlev]
  · exact fun hk => ⟨_, congrArg Host.Outcome.next (if_neg (by simp [hk])), rfl, s.reg_resetThresholds.1⟩
  · exact fun hk => ⟨_, congrArg Host.Outcome.next (if_neg (by simp [hk])), rfl, rfl⟩
  · exact fun hs hk => ⟨_, congrArg Host.Outcome.next (if_pos (by simp [hs, hk])), rfl, rfl⟩
  · exact fun boot strap hp => ⟨_, if_neg (by simp [hp]), rfl, rfl⟩
  · intro hs
    simp only [exec, execStbyUp, hs]
    exact ⟨_, rfl, rfl, rfl⟩
  · exact exec_stbyLost
  -- levels
  refine ⟨?_, ?_, ?_, ?_, ?_, ?_, ?_, ?_, ?_⟩
  · intro l ha hq h0
    simp only [exec, execEntrySequenceStart, hq]
    exact congrArg Host.Outcome.next (if_pos (by simp [ha, h0]))
  · intro l he h1 hf hd
    simp only [exec, execEntrySwitchOff, he]
    simp [h1, hf, hd]
  · exact fun ha hl h0 hr hok => ⟨_, congrArg Host.Outcome.next (if_pos (by simp [ha, hl, h0, hr, hok])), State.reg_setReg _ _ _, rfl⟩
  · intro ha hl hh
    refine ⟨_, congrArg Host.Outcome.next ((if_pos ?_).trans (if_pos hl)), State.reg_setReg _ _ _⟩
    simp [State.reef1Due, hh]
  · exact fun ha hl h0 hal hw => congrArg Host.Outcome.next (if_pos (by simp [ha, hl, h0, hal, hw]))
  · intro ha h2 hd
    obtain ⟨-, -, -, -, -, -, -, -, hwake⟩ := reefRequestsAndLevelCommands.2 s ha
    obtain ⟨t, hex, hphase, hlevel, -⟩ := hwake h2 hd
    exact ⟨t, hex, hphase, hlevel⟩
  · exact fun d ha hd => ⟨_, congrArg Host.Outcome.next (if_pos ha), State.domSt_releaseDom hd⟩
  · exact fun d ha h2 hd => ⟨_, congrArg Host.Outcome.next (if_pos (by simp [ha, h2])), State.domSt_releaseDom hd⟩
  -- clocks
  refine ⟨?_, ?_, ?_, ?_, ?_, ?_, ?_, ?_, ?_, ?_, ?_, ?_, ?_, ?_, ?_⟩
  · exact fun ha => ⟨_, congrArg Host.Outcome.next (if_pos ha), State.flag_setFlag _ _ _⟩
  · exact exec_xt1Fail
  · exact fun h67 => congrArg Host.Outcome.next (if_pos h67)
  · exact exec_xt2Fail
  · exact fun h67 h1 => congrArg Host.Outcome.next (if_pos (by rw [h67, h1]; rfl))
  · exact fun pll hu h1 => congrArg Host.Outcome.next (if_pos (by rw [hu, h1]; rfl))
  · exact fun pll hl => ⟨_, rfl, (State.pllLoss_locked (ofBool_lt_two pll) hl).1⟩
  · exact fun ha => congrArg Host.Outcome.next (if_pos ha)
  · intro value h5 ha
    obtain ⟨u, hu⟩ := exec_start ha h5 value
    obtain ⟨hbusy, -, -, hres⟩ := u.fmStart_regs
    exact ⟨_, hu, hbusy, hres⟩
  · intro n ha hb hr
    refine ⟨_, if_neg (by simp [ha, hb, hr]), ?_, State.flag_setFlag _ _ _⟩
    exact (State.flag_setFlag_other _ _ _ _ (by decide)).trans (State.flag_setFlag _ _ _)
  · intro hl h4
    obtain ⟨sp, hsp⟩ := s.tickPlaced.headTick_eq
    refine ⟨_, (exec_frameTick hl).trans (congrArg Host.Outcome.next (if_pos h4)), ?_⟩
    rw [hsp]
    exact s.tickPlaced_clk.1.trans h4
  · exact fun ha h4 hd => congrArg Host.Outcome.next (if_pos (by rw [ha, h4, hd]; rfl))
  · intro frame e per f u hl hp
    simp only [exec, execBeacon, hp]
    exact if_neg (by rw [hl]; decide)
  · exact fun ha h7 => ⟨_, congrArg Host.Outcome.next (if_pos (by simp [ha, h7])), (State.unanchor_flags _ _).1⟩
  -- hub and catalog
  refine ⟨?_, ?_, ?_, ?_, ?_, ?_, ?_, ?_, ?_, ?_, ?_⟩
  · exact fun core addr hk => ⟨congrArg Host.Outcome.next (if_pos hk), congrArg Host.Outcome.next (if_pos hk),
      congrArg Host.Outcome.next (if_pos hk), fun data hd => congrArg Host.Outcome.next (if_pos (by simp [hk, hd]))⟩
  · exact fun addr hk => ⟨congrArg Host.Outcome.next (if_pos hk),
      fun data hd => congrArg Host.Outcome.next (if_pos (by simp [hk, hd]))⟩
  · intro addr data k h5 hreg off h1 h8 _ _
    simp only [exec, execCatalogWrite, hreg]
    exact if_pos (by simpa [h5] using And.intro h1 h8)
  · intro e rest u f0 f1 m hwb hst hl hm hup hu
    obtain ⟨t, ht⟩ : ∃ t, s.attempt e rest f0 f1 = some t := by
      have hb0 : bit e.left 0 = true := by rw [hl]; decide
      have hb1 : bit e.left 1 = false := by rw [hl]; decide
      unfold State.attempt
      rw [hb0, hb1, show ofBool true + ofBool false = 1 from rfl, hu]
      exact ⟨_, rfl⟩
    refine ⟨t, ?_, ht⟩
    simp only [exec, execWriteAttempt, hwb]
    refine (if_neg (by simp [hm, hst, hup])).trans ?_
    rw [if_pos hst, Option.bind_some, ht]
    rfl
  · exact fun d rest u f _ _ => rfl
  · exact fun core hu hi hr => congrArg Host.Outcome.next (if_pos (by rw [hu, hi, hr]; rfl))
  · intro addr k hreg h5 off he
    have hs : ¬s.eccOf off < (0#2).toNat := by simp
    simp only [exec, execCatalogRead, hreg]
    refine (if_neg (by rw [h5]; decide)).trans ?_
    rw [if_neg hs]
  · exact fun hd h43 h5 h2 => ⟨_, congrArg Host.Outcome.next (if_pos (by rw [hd, h43, h5, h2]; rfl)),
      (State.flag_setFlag s kRebuilding true :), rfl⟩
  · exact fun bad hr => ⟨_, if_neg (by simp [hr]), State.flag_setFlag _ _ _⟩
  · exact fun err h45 h5 hf hn hp => congrArg Host.Outcome.next (if_pos (by simp [h45, h5, hf, hn, hp]))
  -- DMA and CRYPT
  refine ⟨?_, ?_, ?_, ?_, ?_, ?_⟩
  · intro core place ha h47 h5 hb hf hz hn
    refine ⟨_, State.exec_go core place ha h47 h5, ?_⟩
    obtain ⟨hbusy, -⟩ := (dmaTransfersFollowTheirPlace place s).2.1 core hb hf hz hn
    exact hbusy
  · exact fun place h47 hb hg => ⟨fun hs => congrArg Host.Outcome.next (if_pos (by rw [h47, hb, hs, hg]; rfl)),
      fun hs hst => congrArg Host.Outcome.next (if_pos (by rw [h47, hb, hs, hst, hg]; rfl))⟩
  · intro place st h47 hb hst
    simp only [exec, execDmaEnd, hst]
    exact congrArg Host.Outcome.next (if_pos (by rw [h47, hb]; rfl))
  · intro ha h49 h5 _ _
    have hcmd (op slot len : Nat) (hop : op < 16) (hslot : slot < 64) (hlen : len < 1024) :
        s.regCommand 0x40016004 (op + slot * 256 + len * 65536) = s.cryptCmd op slot len := State.regCommand_crypt ha h49 h5 hop hslot hlen
    have hop (op : Nat) (h : op < 16) : (.next (s.regCommand 0x40016004 op) : Out) = .next (s.cryptCmd op 0 0) :=
      congrArg Host.Outcome.next (hcmd op 0 0 h (by decide) (by decide))
    exact ⟨fun slot => ⟨congrArg Host.Outcome.next (hcmd 1 slot 0 (by decide) slot.isLt (by decide)),
        congrArg Host.Outcome.next (hcmd 2 slot 0 (by decide) slot.isLt (by decide))⟩,
      fun len => congrArg Host.Outcome.next (hcmd 3 0 len (by decide) (by decide) len.isLt), hop 4 (by decide), hop 5 (by decide),
      hop 6 (by decide), hop 7 (by decide), hop 8 (by decide)⟩
  · intro o ho h49 hst
    simp only [exec, execCryptOperationEnd, ho]
    exact congrArg Host.Outcome.next (if_pos (by rw [State.stands] at hst; simp [h49, hst]))
  -- ARB and LOCK
  refine ⟨?_, ?_, ?_, ?_, ?_, ?_, ?_⟩
  · intro inst k beats prio ctx r hon hdom hb hi ht hs hm hf
    simp only [exec, execArbRequest, hm, ht, hs, hf]
    rw [if_neg (by simp [hon, hdom, hb]), if_neg (by simp), if_neg (by simp), if_neg (by simp; omega)]
  · exact fun inst hon hb => congrArg Host.Outcome.next ((if_neg (by rw [hb]; decide)).trans (if_pos hon))
  · intro core cleat ctx x hl ht hf
    refine ⟨fun v h0 hv => ⟨_, exec_cleatValueWrite cleat hl ht hf h0 hv, State.value_hold _ _ _ _⟩,
      fun v h0 hv => ⟨_, exec_cleatAcas cleat hl ht hf h0 hv, State.value_hold _ _ _ _⟩, fun rd h0 hw => ?_,
      fun hh => exec_cleatLeaseWrite cleat hl ht hf hh⟩
    obtain ⟨y, hex⟩ := exec_cleatWaitRead cleat hl ht hf rd h0 hw
    exact ⟨_, hex, State.value_hold _ _ _ _⟩
  · intro w hw h48 hd h3
    have hw' : s.lock.waits.find? (fun w => w.ctx == (64 : Fin 65).val && w.result.isNone) = some w := hw
    simp only [exec, execWaitTimeout, hw']
    exact congrArg Host.Outcome.next ((if_pos (by simp [h48, hd, h3])).trans (if_pos rfl))
  · exact fun cleat h48 hd hl => congrArg Host.Outcome.next (if_pos (by simp [h48, hd, hl]))
  · exact fun v => exec_waitBroken
  -- contexts
  obtain ⟨-, -, -, -, -, -, -, hovr, hinit, -⟩ := contextsTenantsAndInterrupts s
  refine ⟨?_, ?_, ?_, ?_, ?_, ?_⟩
  · intro n s1 ht hr hn
    simp only [exec, execCcInterrupt, ht]
    refine (if_neg (by rw [hr]; decide)).trans (congrArg Host.Outcome.next ?_)
    split
    case h_6 => rfl
    all_goals exact absurd hn (by decide)
  · exact fun core n hs hr => exec_parked core hs hr
  · intro core n hs hr
    obtain ⟨t, hex, hst, -⟩ := hovr core n hs hr
    exact ⟨t, hex, hst⟩
  · intro slot a ha h5 h4 ht hc hp he
    obtain ⟨t, hex, hpend, -⟩ := hinit slot ha h5 h4 ht hc hp he
    exact ⟨t, hex, hpend⟩
  · intro r hr he
    simp only [exec, execTenResetComplete, hr]
    exact congrArg Host.Outcome.next (if_pos he)
  · exact fun tenant v h27 => if_neg (by rw [h27]; decide)

end Sys2Proof.Machine
end

section
/-! PROOFS. O60: the events of bays, ports, conversion, SFU, NOR, errors, service ports, spine and queue complete. -/
namespace Sys2Proof.Machine
open Sys2Proof

/-! ### Bays -/

theorem BayCh.tripped_flt (c : BayCh) (b : Nat) : (c.tripped b).flt = c.flt := by
  unfold BayCh.tripped
  split
  · rfl
  · rfl

theorem State.st_bayRestart (s : State) {n : Nat} (h : (s.bayCh n).st = 4) : ((s.bayRestart n).bayCh n).st = 0 := by
  rw [State.bayRestart, if_pos h, State.bayCh_setBayCh]

/-- R308: whatever a change of the fault input does to its channel, the input's new level stands. -/
theorem State.execFlt_level {s : State} {chan : Fin 128} {i : BayIn} (hu : s.bayUp chan = true) (hr : s.bayRing chan = true)
    (hmode : s.flag (kBayu chan 0 1) = false) (hi : (s.bayCh chan).flt.change true = (i, true, false)) :
    ∃ t, exec (.flt chan true) s = .next t ∧ (t.bayCh chan).flt = i := by
  have h1 : (s.setBayCh chan { s.bayCh chan with flt := i }).bayCh chan = { s.bayCh chan with flt := i } := State.bayCh_setBayCh _ _ _
  simp only [exec, execFlt, hu, hr, hmode, hi, Bool.not_true, Bool.or_self, Bool.and_self, Bool.false_eq_true, if_false, Bool.false_or]
  generalize s.setBayCh chan { s.bayCh chan with flt := i } = s1 at h1
  have h2 : (s1.bayEvent chan 3).bayCh chan = { s.bayCh chan with flt := i } := h1
  generalize s1.bayEvent chan 3 = s2 at h2
  split
  · exact ⟨_, rfl, by rw [h1]⟩
  · refine ⟨_, rfl, ?_⟩
    split
    · split
      · rw [State.bayCh_bayTrip, h2, BayCh.tripped_flt]
      · split
        · rw [State.bayCh_bayOff, h2]
        · rw [h2]
    · rw [h2]

theorem exec_bayuRingMove {s u : State} {chan : Fin 128} {w : Nat} {rest : List Nat} (hrx : (s.port chan).rx = w :: rest)
    (hu : s.bayUp chan = true) (hl : s.reg (kBayu chan 4 0) ≠ 0)
    (hroom : ((s.port chan).head + 65536 - s.reg (kBayu chan 8 0)) % 65536 < 2 ^ s.reg (kBayu chan 4 0))
    (hok : s.sparOk (s.reg (kBayu chan 4 6) * 64 + 2 * ((s.port chan).head % 2 ^ s.reg (kBayu chan 4 0))) = true)
    (harb : s.reef1Leave.useArb 19 (plainReq 1 1) = some u) : exec (.bayuRingMove chan) s =
      .next ((u.memWrite (s.reg (kBayu chan 4 6) * 64 + 2 * ((s.port chan).head % 2 ^ s.reg (kBayu chan 4 0))) (leBytes w 2)).setPort chan
        { s.port chan with rx := rest, head := ((s.port chan).head + 1) % 65536 }) := by
  simp only [exec, execBayuRingMove, hrx]
  rw [if_neg (by simp [hu, hl, hroom, hok]), harb]
  rfl

theorem BayuCh.take_busy {p : BayuCh} (en : Bool) (h : p.shifting.isSome = true) : p.take en = p := by
  unfold BayuCh.take
  split
  · next hs _ => rw [hs] at h; contradiction
  · rfl

/-! ### The end of an SFU job (R337) -/

theorem HubOnly.sfu {s t : State} (h : HubOnly s t) : t.sfu = s.sfu := by
  obtain ⟨m, c, r, rfl⟩ := h
  rfl

theorem HubOnly.ncWrite (s : State) (a : Nat) (bs : List Byte) : HubOnly s (s.ncWrite a bs) := by
  unfold State.ncWrite
  split
  · exact (HubOnly.snoopAll _ _ _ _).trans (.wrBytes _ _ _)
  · exact .wrBytes _ _ _

theorem State.sfu_event (s : State) (ctx i : Nat) : (s.event ctx i).sfu = s.sfu := by
  unfold State.event
  split
  · rfl
  · split
    · dsimp only
      split
      · rfl
      · rfl
    · unfold State.eventSaved
      dsimp only
      split
      · rfl
      · have hw := (HubOnly.ncWrite s (s.ctxAddr ctx + 0x5C)
          (leBytes (setBit (setBit (s.recWord ctx 23) (8 + i) true) 16 true) 4)).sfu
        split
        · exact hw
        · exact hw

theorem State.sfu_flushTable (s : State) : s.flushTable.sfu = s.sfu := by
  unfold State.flushTable
  exact foldl_leaves (fun u : State => u.sfu) _ (fun u w => (HubOnly.wrBytes u _ _).sfu) _ _

theorem State.busy_jobEnd (s : State) (p : Nat) (value : Int) (index status : Nat) : ((s.jobEnd p value index status).job p).busy = false := by
  unfold State.jobEnd
  extract_lets j d s1 s2 s3
  clear_value s1 s2
  have h3 : (s3.job p).busy = false := by
    have hsfu : s3.sfu = ((s2.unstand 17 p).sfuFree p).sfu := (State.sfu_flushTable _).trans (State.sfu_event _ _ _)
    rw [State.job, hsfu]
    exact congrArg Job.busy (State.job_setJob _ _ _)
  split
  · rw [State.job, State.irq_sfu]
    exact h3
  · exact h3

/-- A job with no beat left to ask for ends, and its place is free. -/
theorem exec_sfuJobEnd {s : State} {place : Fin 6} (h46 : s.isUp 46 = true) (hb : (s.job place).busy = true)
    (hst : (s.job place).started = true) (ha : (s.arb 17).standing = []) :
    ∃ t, exec (.sfuJobEnd place) s = .next t ∧ (t.job place).busy = false :=
  ⟨_, if_neg (by simp [h46, hb, hst, ha]), State.busy_jobEnd _ _ _ _ _⟩

/-! ### The NOR store -/

theorem State.norOp_norEnd (s : State) (r k v : Nat) : ((s.norEnd r).setReg k v).norOp.state = 0 := (s.norEnd_eq r).1

theorem exec_norCheckDone {s : State} (h44 : s.isUp 44 = true) (h1 : s.norOp.state = 1) :
    ∃ t, exec .norCheckDone s = .next t ∧ (t.norOp.state = 0 ∨ t.norOp.state = 2) := by
  simp only [exec, execNorCheckDone]
  rw [if_neg (by simp [h44, h1])]
  split
  · exact ⟨_, rfl, .inl (s.norOp_norEnd _ _ _)⟩
  · exact ⟨_, rfl, .inr rfl⟩

theorem exec_norVerifyDone {s : State} (h44 : s.isUp 44 = true) (h5 : s.norOp.state = 5) :
    ∃ t, exec .norVerifyDone s = .next t ∧ t.norOp.state = 0 := by
  simp only [exec, execNorVerifyDone]
  rw [if_neg (by simp [h44, h5])]
  split
  · exact ⟨_, rfl, s.norOp_norEnd _ _ _⟩
  · exact ⟨_, rfl, (s.norEnd_eq 0).1⟩

/-! ### The end of a warm reset (R366–R368) -/

theorem State.boot_onDom (s : State) (d : Nat) : (s.onDom d).boot = s.boot := by
  unfold State.onDom
  split
  · rfl
  · dsimp only
    split <;> rfl

/-! ### The report queue of the spine (R259) -/

/-- A fragment that leaves is taken off the queue, or counted on its front. -/
theorem State.reportsLeft_ne (u : State) (r : Rpt) (rest : List Rpt) : u.reportsLeft r rest ≠ r :: rest := by
  unfold State.reportsLeft
  split
  · intro h
    simpa using congrArg List.length h
  · intro h
    have hsent := congrArg Rpt.sent (List.cons.inj h).1
    simp at hsent

/-- Settles O60: each clause by the lemma of its command, where an earlier obligation states that command's effect. That a port holds
a datagram while Cyntoux does not run is log entry 96, that a kept frame and a console byte leave Reef 1 is entry 155. -/
theorem eventsOfBaysPortsSpineAndQueueComplete : Obligations.EventsOfBaysPortsSpineAndQueueComplete := by
  unfold Obligations.EventsOfBaysPortsSpineAndQueueComplete
  intro s
  -- bays
  refine ⟨?_, ?_, ?_, ?_, ?_, ?_, ?_, ?_⟩
  · intro chan n ha h5 hu
    obtain ⟨hcmd, -⟩ := bayCommandsAndEvents chan s
    obtain ⟨hstart, hstop, hrestart⟩ := hcmd ha h5 hu
    exact ⟨⟨_, hstart, by rw [State.bayCh_setBayCh]⟩, ⟨_, hstop, by rw [State.bayCh_setBayCh]⟩,
      fun h4 => ⟨_, hrestart, State.st_bayRestart _ h4⟩⟩
  · intro gangs ha h5 h55
    obtain ⟨-, hgang, -⟩ := bayCommandsAndEvents 0 s
    obtain ⟨hstart, hstop⟩ := hgang ha h5 h55 gangs
    exact ⟨⟨_, hstart, rfl⟩, ⟨_, hstop, rfl⟩⟩
  · intro chan n hu h1
    obtain ⟨-, -, hramp, hshort, -⟩ := bayCommandsAndEvents chan s
    exact ⟨(hramp hu h1).1, hshort hu (.inl h1)⟩
  · exact fun chan hu hd h3 hb => congrArg Host.Outcome.next (if_pos (by simp [hu, hd, h3, hb]))
  · intro g hg
    refine ⟨congrArg Host.Outcome.next (if_pos hg), fun hv => ?_, congrArg Host.Outcome.next (if_pos hg)⟩
    obtain ⟨-, -, -, -, -, -, -, -, -, -, -, huv⟩ := bayCommandsAndEvents 0 s
    obtain ⟨t, hex, -, hoff, -⟩ := huv g hg hv
    exact ⟨t, hex, fun n hn => ⟨(hoff n hn).1, (hoff n hn).2.1⟩⟩
  · intro chan n c hu hr
    refine ⟨fun hm hl hc => ?_, fun hmode hm hl hc => ?_⟩
    · obtain ⟨t, hex, hflag, hprs⟩ := State.execPrsChg_counted hu hr (BayIn.change_counts hm hl hc)
      exact ⟨t, hex, hflag, by rw [hprs]⟩
    · obtain ⟨t, hex, hflt⟩ := State.execFlt_level hu hr hmode (BayIn.change_counts hm hl hc)
      exact ⟨t, hex, by rw [hflt]⟩
  · intro chan n c hu hm
    have hu' : s.bayUp chan = true := hu
    have hm' : (s.bayCh chan).prs.masked = some 0 := hm
    exact if_neg (by simp [hu', hm'])
  -- ports
  refine ⟨?_, ?_, ?_⟩
  · intro chan n p
    obtain ⟨htx, hrx, hrecv, -, hfalse, hshift, -⟩ := baySerialPorts chan s
    refine ⟨fun data ha h5 hu hl hs => ⟨_, (htx ha h5 hu data).1 hl, ?_⟩, fun w rest ha hu h => (hrx ha hu).1 w rest h,
      fun data hu hen hr ha hl hm => (hrecv hu hen hr hm data).1 ha hl, hfalse, fun ch hu hs htx => (hshift ch hu hs).1 htx⟩
    rw [State.port_setPort, BayuCh.take_busy (p := { p with tx := p.tx ++ [data.toNat] }) _ hs]
  · intro chan w rest u n p a hrx hu hl hroom hok harb
    exact exec_bayuRingMove hrx hu hl hroom hok harb
  -- conversion
  refine ⟨?_, ?_, ?_, ?_, ?_, ?_⟩
  · exact fun conv hr ht hi => congrArg Host.Outcome.next (if_pos (by rw [hr, hi, ht]; rfl))
  · exact fun conv uv hu hr hw => congrArg Host.Outcome.next (if_pos (by rw [hu, hr, hw]; rfl))
  · intro k r w rest u hf ha a dst hroom hok
    obtain ⟨-, -, hmove, -⟩ := adcSequencersAndResults 0 s
    obtain ⟨t, hex, hfifo, -⟩ := hmove k r w rest u hf ha hroom hok
    exact ⟨t, hex, hfifo⟩
  · exact fun h54 => congrArg Host.Outcome.next (if_pos h54)
  · intro conv e v ha h5 hu
    obtain ⟨-, -, -, -, hseq⟩ := adcSequencersAndResults conv s
    obtain ⟨t, hex, -, -, -, hcount, -⟩ := hseq e v ha h5 hu
    exact ⟨t, hex, hcount⟩
  -- SFU and NOR
  refine ⟨?_, ?_, ?_, ?_, ?_, ?_, ?_, ?_, ?_, ?_⟩
  · intro place j h46 hb
    refine ⟨fun hs hg hstd hc => ?_, fun hs harb => exec_sfuJobEnd h46 hb hs harb⟩
    obtain ⟨hstart, -⟩ := sfuJobsAndRows.1 place s
    exact (hstart h46 hb hs hg hstd).1 hc
  · exact fun addr value h46 hw hu => congrArg Host.Outcome.next ((if_pos (by rw [h46, hw]; rfl)).trans (if_neg (by rw [hu]; decide)))
  · exact fun h46 => congrArg Host.Outcome.next (if_pos h46)
  · exact fun ha h5 h44 h0 => (norOperations s h44).1 ha h5 h0
  · exact exec_norCheckDone
  · exact fun h44 h2 => ⟨_, if_neg (by simp [h44, h2]), rfl⟩
  · exact exec_norVerifyDone
  · intro addr h44 hr h3
    refine ⟨_, congrArg Host.Outcome.next ((if_pos (by simp [h44, hr])).trans (if_pos h3)), rfl⟩
  · exact fun h44 h4 => ⟨_, congrArg Host.Outcome.next (if_pos (by simp [h44, h4])), rfl⟩
  -- errors and start-up
  refine ⟨?_, ?_, ?_, ?_, ?_, ?_, ?_, ?_, ?_⟩
  · intro cls source tenant code seq address offset segment detail h5 hc hl
    obtain ⟨hrec, -⟩ := errorRecordsResetsAndRomBoot.1 s
    obtain ⟨t, hex, hcount, -⟩ := (hrec cls source tenant code seq address offset segment detail h5 (.inl hc)).1 hl
    exact ⟨t, hex, hcount⟩
  · intro n e hf he hd
    rw [exec_fatalResetDue hf hd, if_pos he]
  · exact exec_rstN_on
  · exact fun src reason => exec_warmResetStart
  · intro boot strap src reason hd ha hr hl hw hm
    refine ⟨_, exec_warmResetEnd boot strap hd ha hr hl hw hm, ?_⟩
    have hboot (u : State) : (startDomains.foldl (fun s d => s.onDom d) u).boot = u.boot :=
      foldl_leaves (fun u : State => u.boot) (fun u d => u.onDom d) State.boot_onDom _ _
    rw [hboot]
    exact ⟨rfl, rfl⟩
  · intro id ha h6 h5 hst h44 hc
    obtain ⟨hrom, -⟩ := errorRecordsResetsAndRomBoot.2 s ha h6 h5 hst
    obtain ⟨t, hex, hacc, hdone, -⟩ := (hrom hc id).2 h44
    exact ⟨t, hex, hacc, hdone⟩
  · intro ha h6 h5 hst hc hf hv
    obtain ⟨-, hwarm, -⟩ := errorRecordsResetsAndRomBoot.2 s ha h6 h5 hst
    obtain ⟨t, hex, hacc, -⟩ := (hwarm hc hf).1 hv
    exact ⟨t, hex, hacc⟩
  · rfl
  -- service ports
  refine ⟨?_, ?_, ?_, ?_, ?_, ?_, ?_, ?_, ?_, ?_, ?_, ?_⟩
  · intro port f p hup
    obtain ⟨-, -, hdrop, -, harp, hecho, -⟩ := servicePortsJtagAndTrace.1 port s
    exact ⟨hdrop f hup, fun hk hr => ⟨_, harp f hup hk hr⟩, fun hk hr => ⟨_, hecho f hup hk hr⟩,
      fun hk hr hc => exec_udpDatagram_held port hup hk hr hc⟩
  · intro port
    obtain ⟨-, -, -, -, -, -, hlink, -, ⟨t, hex, hdown, -⟩, -⟩ := servicePortsJtagAndTrace.1 port s
    exact ⟨hlink, t, hex, hdown⟩
  · intro port d h69 hrx hio hl
    obtain ⟨-, -, -, -, -, -, -, -, -, hbyte, -⟩ := servicePortsJtagAndTrace.1 port s
    refine ⟨_, (hbyte d h69 hrx hio).1 hl, ?_⟩
    obtain ⟨r, q, hh⟩ := (s.reef1Leave.setCons (ofBool port) (s.consBuf (ofBool port) ++ [d.toNat])).halyard_eq 14
    rw [hh]
    exact Tab.get_set_same _ _ _ _
  · intro port rest hr h69 hb
    exact exec_consoleFrame (f := []) port hr h69 hb (by simp)
  · intro pin l h5 hio
    obtain ⟨-, -, -, -, -, -, -, -, -, -, hgpio, -⟩ := servicePortsJtagAndTrace.1 false s
    obtain ⟨t, hex, -, hin, -⟩ := hgpio pin l h5 hio
    exact ⟨t, hex, hin⟩
  · exact fun ha => congrArg Host.Outcome.next (if_neg (by rw [ha]; decide))
  · intro hal
    refine ⟨_, congrArg Host.Outcome.next (if_pos (by rw [hal]; rfl)), ?_⟩
    obtain ⟨r, p, hh⟩ := State.halyard_eq { s with serv := { s.serv with alert := true } } 13
    rw [hh]
  · exact fun v h5 => congrArg Host.Outcome.next (if_pos h5)
  · intro fan h5 hio
    obtain ⟨-, -, -, -, -, -, -, -, -, -, -, -, -, -, -, -, -, hfan⟩ := servicePortsJtagAndTrace.1 false s
    obtain ⟨t, hex, hedge, -⟩ := hfan fan h5 hio
    exact ⟨t, hex, hedge⟩
  · intro ha
    obtain ⟨hcells, hid, hclamp, hhiz, hdebug, -, hbyp, htrst, -⟩ := servicePortsJtagAndTrace.2 s ha
    refine ⟨fun c v => ⟨_, (hcells c v).1, rfl, rfl⟩, fun c v => ⟨_, (hcells c v).2, rfl, rfl⟩, ⟨_, hid, rfl, rfl⟩, ⟨_, hclamp, rfl⟩,
      ⟨_, hhiz, rfl, rfl⟩, fun hl h70 => ?_, fun code hc => ⟨_, hbyp code hc, rfl⟩, ⟨_, htrst, rfl⟩⟩
    obtain ⟨t, hex, hir, -⟩ := hdebug hl h70
    exact ⟨t, hex, hir⟩
  · intro source kind payload h71 hdl hw hd hl
    refine ⟨_, (if_neg (by simp [h71, hdl, hw])).trans (congrArg Host.Outcome.next (if_pos ?_)), ?_⟩
    · simp [hd, tracePkt]; omega
    · simp [hd, tracePkt]; omega
  -- spine
  refine ⟨?_, ?_, ?_, ?_, ?_, ?_, ?_, ?_, ?_, ?_, ?_, ?_, ?_, ?_, ?_, ?_⟩
  · intro hp ha rep
    have hans (op tenant key : Nat) (late : Bool) : (s.answer op tenant key late).spine.reply.isSome = true := by
      rw [State.answer_reply hp ha rfl]
      rfl
    exact ⟨⟨_, rfl, hans _ _ _ _⟩, ⟨_, rfl, hans _ _ _ _⟩, ⟨_, rfl, hans _ _ _ _⟩, ⟨_, rfl, hans _ _ _ _⟩, ⟨_, rfl, hans _ _ _ _⟩,
      fun n key late tk => ⟨⟨_, rfl, hans _ _ _ _⟩, ⟨_, rfl, hans _ _ _ _⟩⟩⟩
  · intro data hp ha hal hen hd hn
    obtain ⟨-, hopen⟩ := queriesAnswerAndReplyLeaves.1 s
    obtain ⟨-, -, -, -, -, -, -, hchunk, -⟩ := hopen hp ha
    obtain ⟨t, hex, hone, -⟩ := hchunk data hal hen hd hn
    exact ⟨t, hex, hone⟩
  · intro ports x y late f u hp
    simp only [exec, execQuery, hp]
  · intro r u hr hp hu
    obtain ⟨-, -, -, hreply, -⟩ := queriesAnswerAndReplyLeaves.2
    exact ⟨_, hreply s u r hr hp hu⟩
  · intro port hl hp he
    exact ⟨_, exec_energyDetect port hl hp he, rfl⟩
  · exact fun bank hb hd => congrArg Host.Outcome.next (if_pos (by rw [hb, hd]; rfl))
  · exact fun he => ⟨fun hs => congrArg Host.Outcome.next (if_pos (by rw [he, hs]; rfl)), rfl,
      fun sd b0 b1 hf => congrArg Host.Outcome.next (if_pos (by rw [he, hf]; rfl))⟩
  · exact fun u ha hr hu => ⟨_, exec_headBeacon false ha hr hu, rfl⟩
  · intro k r rest u hq ho hk hown hr hu
    obtain ⟨bs, hex⟩ := exec_reportFragment hq ho hk hown hr hu
    refine ⟨_, hex, ?_⟩
    obtain ⟨x, hsp, -⟩ := State.spineSend_eq { u with spine := { u.spine with reports := u.reportsLeft r rest } } bs
    rw [hsp]
    exact u.reportsLeft_ne r rest
  · intro r hr
    obtain ⟨t, hex, hreports, hflag, -⟩ := exec_undelivered hr
    exact ⟨t, hex, hreports, hflag⟩
  · intro hf ho
    refine ⟨fun u hs hn ht hu => ?_, fun frame f u hs hp => exec_pair_some hf ho hs hp⟩
    refine ⟨_, exec_pairTx hf ho hs hn ht hu, ?_⟩
    obtain ⟨x, hsp, -⟩ := State.spineSend_eq { u with spine := { u.spine with pairSent := true } } (withCrc16 0x66
      ([BitVec.ofNat 8 (u.shelf + 64), BitVec.ofNat 8 u.pairPeer, BitVec.ofNat 8 (byteAt u.pairOldest 4 % 16)] ++ u.pairOldest.take 4))
    rw [hsp]
  · exact fun frame f u he hs hn hp => exec_pairAck he hs hn hp
  · exact fun hf hd => congrArg Host.Outcome.next (if_pos (by rw [hf, hd]; rfl))
  · exact fun port => ⟨fun hp h0 he => ⟨_, congrArg Host.Outcome.next (if_pos (by rw [hp, h0, he]; rfl)), State.flag_setFlag _ _ _⟩,
      fun hp => ⟨_, congrArg Host.Outcome.next (if_pos hp), State.flag_setFlag _ _ _⟩,
      fun h0 => congrArg Host.Outcome.next (if_pos (by rw [h0]; rfl))⟩
  · intro port sd nbits bytes hp hn h66
    obtain ⟨-, -, -, -, -, -, -, hdisc, -⟩ := spineSlotsAndGuards s
    exact ((hdisc port sd nbits bytes hp).1 hn).trans (by rw [if_neg h66])
  -- the queue
  refine ⟨?_, ?_, ?_, ?_⟩
  · intro c st bs es t hr hacc hocc hc hten hheld hrun
    obtain ⟨-, hstart, -⟩ := commandsStartCompleteAndRetry s hr
    obtain ⟨-, -, hgo⟩ := hstart c hc hacc hocc
    exact (hgo (.inr hten) hheld).1 st bs es t hrun
  · intro c w rest st bs es t hr hl hpoll
    obtain ⟨-, -, -, -, -, -, hlongs, -⟩ := commandsStartCompleteAndRetry s hr
    exact (hlongs c w rest hl).1 st bs es t hpoll
  · intro c g tries cyc due hr hl hd h48 h0
    obtain ⟨-, -, -, -, -, -, -, hcleat, -⟩ := commandsStartCompleteAndRetry s hr
    exact (hcleat c g _ tries cyc due hl hd h48 rfl).1 h0
  · intro n hr hp hn
    obtain ⟨-, -, -, -, -, -, -, -, hpg⟩ := commandsStartCompleteAndRetry s hr
    obtain ⟨t, hex, hwait, -, hseq⟩ := hpg n hp hn
    exact ⟨t, hex, hwait, hseq⟩

end Sys2Proof.Machine
end
